-- ==== Sys2Proof/Word.lean ====
section
/-! DEFINITION. The word types of the block: register data, addresses and bytes (R8, R36), and their plainest arithmetic. -/

namespace Sys2Proof

/-- 64 data bits: a general register, a system register, an aperture register (R17, R36). -/
abbrev Word := BitVec 64

/-- A 32-bit word: an instruction word (R60), a Groom register (R394). -/
abbrev Half := BitVec 32

/-- One byte of memory (R9). -/
abbrev Byte := BitVec 8

/-- Bits `[h:l]` of a word as a number (R25). -/
def Word.bits (w : Word) (h l : Nat) : Nat := (w.toNat >>> l) % 2 ^ (h + 1 - l)

/-- Bit `n` of a word (R8). -/
def Word.bit (w : Word) (n : Nat) : Bool := w.getLsbD n

/-- The word `w` with bits `[h:l]` replaced by the low bits of `v` (R8). -/
def Word.putBits (w : Word) (h l : Nat) (v : Nat) : Word :=
  let m : Nat := 2 ^ (h + 1 - l) - 1
  (w &&& ~~~(BitVec.ofNat 64 (m <<< l))) ||| BitVec.ofNat 64 ((v &&& m) <<< l)

/-- `w` with bit `n` set to `b`. -/
def Word.putBit (w : Word) (n : Nat) (b : Bool) : Word := Word.putBits w n n b.toNat

/-- The word whose value is the natural number `n`, taken modulo 2^64. -/
def Word.ofNat (n : Nat) : Word := BitVec.ofNat 64 n

/-- The word of a truth value: a condition result (R52). -/
def Word.ofBool (b : Bool) : Word := if b then 1 else 0

/-- The ceiling of a quotient of natural numbers, used by the cost rules (R173). -/
def ceilDiv (a b : Nat) : Nat := (a + b - 1) / b

end Sys2Proof
end

