-- ==== Sys2Proof/Syntax.lean ====
section
/-! DEFINITION. The commands of the block: one constructor per row of the table of operations and events, each with the
operands its rule names. A core instruction carries every field of its 32-bit word that its group's code does not fix (R60, R61). -/

namespace Sys2Proof

/-- The tag codes of R39. -/
inductive Tag where
  | none | int | vaddr | baddr | f64 | f32 | shape | sdesc | wide | poison
  deriving DecidableEq, Repr

/-- A tagged value: 64 data bits and a tag (R36). -/
structure TVal where
  data : Word
  tag : Tag
  deriving DecidableEq, Repr

/-- A general register number, g0 to g31 (R36). -/
abbrev Reg := BitVec 5

/-- A rounding mode of the scalar floating-point groups (R68, fn[7:6]). -/
abbrev Rm := BitVec 2

/-- Who reads or writes the aperture: the dispatched context's core access, the register port with a requester class
(R508), a Groom thread (R391), or the instruments of the IEEE 1687 network (R513). -/
inductive Requester where
  | core
  | regp (cls : BitVec 2)
  | groom (t : BitVec 2)
  | ijtag
  deriving DecidableEq, Repr

/-- The part of a 64-bit aperture register that an access names (R17); `neither` is REGP_BE = 0b00 (R508). -/
inductive Lanes where
  | both | lo | hi | neither
  deriving DecidableEq, Repr

/-- What a register access does: a write with its value, or a read, which answers on the requester's port. -/
inductive RegOp where
  | write (v : TVal)
  | read
  deriving DecidableEq, Repr

/-- Where a register access is aimed: the aperture (R31), the Groom's control registers (R399), or the BIST results, which
the instruments of R513 read. -/
inductive RegSpace where
  | aperture | groomCtl | bist
  deriving DecidableEq, Repr

/-- A memory access port's response (R319). -/
inductive PortResp where
  | good | poison | notarget
  deriving DecidableEq, Repr

/-- A physical error that an operation meets, for the detection mechanisms of R448: it comes from outside. -/
inductive HwFault where
  /-- No error is detected beyond those that the state itself shows (parity, checksums, ports). -/
  | none
  /-- The residue check fails in 64-cell group `group` of region row `row`, at `stage` (R450, R458). -/
  | residue (row : BitVec 10) (group : BitVec 4) (stage : BitVec 3)
  /-- An upset has left the cell at logical (`row`, `col`) with S `v` and with parity that disagrees in `limbs` (R98, R449). -/
  | cellUpset (row col : BitVec 10) (v : BitVec 128) (limbs : BitVec 8)
  /-- The run buffer or an image slot delivers an uncorrectable word (R455). -/
  | runBufUe
  /-- The run buffer or an image slot delivers a corrected word (R453). -/
  | runBufCe
  deriving DecidableEq, Repr

/-- R456, R458: where in an array that carries SECDED an error lies: way or bank, address, syndrome. -/
structure Ecc where
  unit : BitVec 16
  addr : Word
  syndrome : BitVec 16
  deriving DecidableEq, Repr

/-- R321, R322: the error in a cache way that firmware acts on. -/
inductive CacheErr where
  /-- No error of this moment: an array BIST failure, or an error that was reported before. -/
  | none
  | corrected (addr : BitVec 52) (syndrome : BitVec 16)
  | uncorrectable (addr : BitVec 52) (syndrome : BitVec 16)
  deriving DecidableEq, Repr

/-- R451, R257: an error in the array of a stall or in the context state array. -/
inductive StallErr where
  | none
  | corrected (e : Ecc)
  /-- An uncorrectable error in a general register of a stall. -/
  | register (stall : BitVec 5) (r : Reg) (e : Ecc)
  /-- An uncorrectable error in the PC, the status or a system register of a stall. -/
  | control (stall : BitVec 5) (e : Ecc)
  /-- An uncorrectable error in a context's entry. -/
  | entry (c : BitVec 10) (e : Ecc)
  deriving DecidableEq, Repr

/-- The caches whose ways firmware can disable (R322). -/
inductive CacheId where
  | l1i | l1d | l2
  deriving DecidableEq, Repr

/-- The point that a Tack commit had reached when the block was reset (R485). -/
inductive CommitCut where
  | notStarted | programmingA | verifiedA | verifiedBoth
  deriving DecidableEq, Repr

/-- Why a Groom restart begins (R458, R463). -/
inductive RestartReason where
  | firmware | nested
  deriving DecidableEq, Repr

/-- What raises a machine check (R408), or the corrected error that only is recorded (R390). -/
inductive MachineCheck where
  /-- An uncorrectable error in the 32-bit word at a Groom address. -/
  | memoryError (word : Half) (e : Ecc)
  | memoryCorrected (e : Ecc)
  | escalated
  deriving DecidableEq, Repr

/-- The strap inputs sampled at the release of PORESET_N (R492). -/
structure Straps where
  blkBase : BitVec 28
  fwBase : BitVec 40
  recBase : BitVec 32
  stePresent : BitVec 16
  deriving DecidableEq, Repr

/-- What the self-tests of start-up find: they are physical facts (R493 steps 4, 6 and 7, R495). -/
structure SelfTest where
  romOk : Bool
  tackOk : Bool
  arraysOk : Bool
  /-- Cache ways that fail array BIST, in the layout of R325. -/
  badWays : BitVec 28
  deriving DecidableEq, Repr

/-- R119: the rows that an inline TLD or TST has moved when its context takes a trap or an alert or is switched out: bit i
stands for row i of the instruction. -/
abbrev CutRows := Option (BitVec 1024)

/-- The commands: one constructor per row of the table. A `word` of TRAP and of SYNC of the Groom, where it is given, is the
fetched word itself: it names an encoding that no row of the table stands for (R61, R394). -/
inductive Instr where
  -- R64, R65: the integer group
  | add (d a b : Reg) | sub (d a b : Reg) | and (d a b : Reg) | or (d a b : Reg) | xor (d a b : Reg)
  | sll (d a b : Reg) | srl (d a b : Reg) | sra (d a b : Reg)
  | mul (d a b : Reg) | mulh (d a b : Reg) | mulhu (d a b : Reg)
  | div (d a b : Reg) | divu (d a b : Reg) | rem (d a b : Reg) | remu (d a b : Reg)
  | min (d a b : Reg) | max (d a b : Reg) | minu (d a b : Reg) | maxu (d a b : Reg)
  | ceq (d a b : Reg) | cne (d a b : Reg) | clt (d a b : Reg) | cltu (d a b : Reg)
  | cle (d a b : Reg) | cleu (d a b : Reg)
  -- R66: the immediate forms; `hi` is imm[14:8] of SHI
  | addi (d a : Reg) (imm : BitVec 15) | andi (d a : Reg) (imm : BitVec 15)
  | ori (d a : Reg) (imm : BitVec 15) | xori (d a : Reg) (imm : BitVec 15)
  | slli (d a : Reg) (sh : BitVec 6) (hi : BitVec 7) | srli (d a : Reg) (sh : BitVec 6) (hi : BitVec 7)
  | srai (d a : Reg) (sh : BitVec 6) (hi : BitVec 7)
  | ceqi (d a : Reg) (imm : BitVec 15) | clti (d a : Reg) (imm : BitVec 15) | cltui (d a : Reg) (imm : BitVec 15)
  | movi (d a : Reg) (imm : BitVec 15) | orsh (d a : Reg) (imm : BitVec 15)
  -- R67, R51: the tag group (`t` is fn[3:0]) and the conditional group
  | tagof (d a b : Reg) (t : BitVec 4) | retag (d a b : Reg) (t : BitVec 4) | mov (d a b : Reg) (t : BitVec 4)
  | cmovnz (d a b : Reg) | cmovz (d a b : Reg)
  -- R68 to R70: the FP64 group and the FP32 group
  | faddD (d a b : Reg) (rm : Rm) | fsubD (d a b : Reg) (rm : Rm) | fmulD (d a b : Reg) (rm : Rm)
  | fdivD (d a b : Reg) (rm : Rm) | fsqrtD (d a b : Reg) (rm : Rm)
  | fmaddD (d a b : Reg) (rm : Rm) | fmsubD (d a b : Reg) (rm : Rm) | fnmaddD (d a b : Reg) (rm : Rm)
  | fminD (d a b : Reg) (rm : Rm) | fmaxD (d a b : Reg) (rm : Rm) | fabsD (d a b : Reg) (rm : Rm)
  | fnegD (d a b : Reg) (rm : Rm)
  | fceqD (d a b : Reg) (rm : Rm) | fcltD (d a b : Reg) (rm : Rm) | fcleD (d a b : Reg) (rm : Rm)
  | fcunD (d a b : Reg) (rm : Rm)
  | faddS (d a b : Reg) (rm : Rm) | fsubS (d a b : Reg) (rm : Rm) | fmulS (d a b : Reg) (rm : Rm)
  | fdivS (d a b : Reg) (rm : Rm) | fsqrtS (d a b : Reg) (rm : Rm)
  | fmaddS (d a b : Reg) (rm : Rm) | fmsubS (d a b : Reg) (rm : Rm) | fnmaddS (d a b : Reg) (rm : Rm)
  | fminS (d a b : Reg) (rm : Rm) | fmaxS (d a b : Reg) (rm : Rm) | fabsS (d a b : Reg) (rm : Rm)
  | fnegS (d a b : Reg) (rm : Rm)
  | fceqS (d a b : Reg) (rm : Rm) | fcltS (d a b : Reg) (rm : Rm) | fcleS (d a b : Reg) (rm : Rm)
  | fcunS (d a b : Reg) (rm : Rm)
  -- R71: the conversion group
  | fcvtDI (d a b : Reg) (rm : Rm) | fcvtDIu (d a b : Reg) (rm : Rm) | fcvtID (d a b : Reg) (rm : Rm)
  | fcvtIuD (d a b : Reg) (rm : Rm) | fcvtSI (d a b : Reg) (rm : Rm) | fcvtSIu (d a b : Reg) (rm : Rm)
  | fcvtIS (d a b : Reg) (rm : Rm) | fcvtIuS (d a b : Reg) (rm : Rm) | fcvtDS (d a b : Reg) (rm : Rm)
  | fcvtSD (d a b : Reg) (rm : Rm)
  -- R47, R73: loads and stores
  | ldI8 (d a : Reg) (imm : BitVec 15) | ldI8u (d a : Reg) (imm : BitVec 15)
  | ldI16 (d a : Reg) (imm : BitVec 15) | ldI16u (d a : Reg) (imm : BitVec 15)
  | ldI32 (d a : Reg) (imm : BitVec 15) | ldI32u (d a : Reg) (imm : BitVec 15)
  | ldI (d a : Reg) (imm : BitVec 15) | ldF32 (d a : Reg) (imm : BitVec 15) | ldF64 (d a : Reg) (imm : BitVec 15)
  | ldVa (d a : Reg) (imm : BitVec 15) | ldBa (d a : Reg) (imm : BitVec 15) | ldSh (d a : Reg) (imm : BitVec 15)
  | ldSd (d a : Reg) (imm : BitVec 15) | ldW (d a : Reg) (imm : BitVec 15)
  | stI8 (d a : Reg) (imm : BitVec 15) | stI16 (d a : Reg) (imm : BitVec 15)
  | stI32 (d a : Reg) (imm : BitVec 15) | stI (d a : Reg) (imm : BitVec 15)
  -- R72: branches
  | bz (a : Reg) (off : BitVec 20) | bnz (a : Reg) (off : BitVec 20) | jal (a : Reg) (off : BitVec 20)
  | jalr (d a : Reg) (imm : BitVec 15)
  -- R78 to R84: fences, system registers, scheduling, TRAP, the context group
  | fence (d a b : Reg) | fenceSt (d a b : Reg) | ifence (d a b : Reg) | ssync (d a b : Reg)
  | srd (d a : Reg) (n : BitVec 15) | swr (d a : Reg) (n : BitVec 15)
  | tret (d a b : Reg) | wait (d a b : Reg) | yieldOp (d a b : Reg) | keysw (d a b : Reg)
  | trap (d a : Reg) (imm : BitVec 15) (word : Option Half)
  | ctxsvL (d a b : Reg) | ctxsvU (d a b : Reg) | ctxldL (d a b : Reg) | ctxldU (d a b : Reg)
  -- R346: stream instructions
  | sarm (d a b : Reg) | srearm (d a b : Reg) | sstat (d a b : Reg) | scancel (d a b : Reg)
  | bdecl (d a b : Reg) | brel (d a b : Reg) | bqry (d a b : Reg)
  -- R161: tile instructions; `k` is tfn = K - 1
  | opaT (sh l r : Reg) | opaM (sh l r : Reg) | opkT (sh l r : Reg) (k : BitVec 6) | opkM (sh l r : Reg) (k : BitVec 6)
  | tld (sh l r : Reg) (cut : CutRows) | tldScale (sh l r : Reg) (cut : CutRows)
  | tst (sh l r : Reg) (cut : CutRows) | tstScale (sh l r : Reg) (cut : CutRows)
  | tzf (sh l r : Reg) | tzfRelease (sh l r : Reg)
  | tdr (sh l r : Reg) (dfmt act : BitVec 3) (clr bias xr xc : Bool)
  | tdw (sh l r : Reg) (clr : Bool) | taw (sh l r : Reg) | tchk (sh l r : Reg) | tsync (sh l r : Reg)
  | tewQ (sh l r : Reg) (w : BitVec 6) | tewR (sh l r : Reg) (w : BitVec 6) | tewD (sh l r : Reg) (w : BitVec 6)
  | trunLoad (sh l r : Reg) | trunGo (sh l r : Reg) (gate : Bool) | trunGoAt (sh l r : Reg) | trunStat (sh l r : Reg)
  -- R394: Groom instructions of thread `t`; fields as in formats R and I
  | gAdd (t : BitVec 2) (d a b : BitVec 4) | gSub (t : BitVec 2) (d a b : BitVec 4)
  | gAnd (t : BitVec 2) (d a b : BitVec 4) | gOr (t : BitVec 2) (d a b : BitVec 4)
  | gXor (t : BitVec 2) (d a b : BitVec 4) | gSll (t : BitVec 2) (d a b : BitVec 4)
  | gSrl (t : BitVec 2) (d a b : BitVec 4) | gSra (t : BitVec 2) (d a b : BitVec 4)
  | gSlt (t : BitVec 2) (d a b : BitVec 4) | gSltu (t : BitVec 2) (d a b : BitVec 4)
  | gAddi (t : BitVec 2) (d a : BitVec 4) (imm : BitVec 18) | gAndi (t : BitVec 2) (d a : BitVec 4) (imm : BitVec 18)
  | gOri (t : BitVec 2) (d a : BitVec 4) (imm : BitVec 18) | gXori (t : BitVec 2) (d a : BitVec 4) (imm : BitVec 18)
  | gSlti (t : BitVec 2) (d a : BitVec 4) (imm : BitVec 18) | gSltui (t : BitVec 2) (d a : BitVec 4) (imm : BitVec 18)
  | gLui (t : BitVec 2) (d a : BitVec 4) (imm : BitVec 18)
  | gSlli (t : BitVec 2) (d a : BitVec 4) (sh : BitVec 5) (hi : BitVec 11)
  | gSrli (t : BitVec 2) (d a : BitVec 4) (sh : BitVec 5) (hi : BitVec 11)
  | gSrai (t : BitVec 2) (d a : BitVec 4) (sh : BitVec 5) (hi : BitVec 11)
  | gMul (t : BitVec 2) (d a b : BitVec 4) | gMulhu (t : BitVec 2) (d a b : BitVec 4)
  | gDiv (t : BitVec 2) (d a b : BitVec 4) | gDivu (t : BitVec 2) (d a b : BitVec 4)
  | gRem (t : BitVec 2) (d a b : BitVec 4) | gRemu (t : BitVec 2) (d a b : BitVec 4)
  | gLdw (t : BitVec 2) (d a : BitVec 4) (imm : BitVec 18) | gLdhu (t : BitVec 2) (d a : BitVec 4) (imm : BitVec 18)
  | gLdbu (t : BitVec 2) (d a : BitVec 4) (imm : BitVec 18) | gStw (t : BitVec 2) (d a : BitVec 4) (imm : BitVec 18)
  | gSth (t : BitVec 2) (d a : BitVec 4) (imm : BitVec 18) | gStb (t : BitVec 2) (d a : BitVec 4) (imm : BitVec 18)
  | gBz (t : BitVec 2) (d a : BitVec 4) (imm : BitVec 18) | gBnz (t : BitVec 2) (d a : BitVec 4) (imm : BitVec 18)
  | gJl (t : BitVec 2) (d a : BitVec 4) (imm : BitVec 18) | gJlr (t : BitVec 2) (d a : BitVec 4) (imm : BitVec 18)
  | gSync (t : BitVec 2) (d a b : BitVec 4) (word : Option Half) | gIret (t : BitVec 2) (d a b : BitVec 4)
  | gWfi (t : BitVec 2) (d a b : BitVec 4)
  -- R200, R100, R342: events of the tile unit; `sad` names a saddle
  | tileInsnComplete (sad : BitVec 1) (hw : HwFault) | saddleSwitch (sad : BitVec 1) | bufwaitExpiry
  -- R219 to R244: events of a sealed run
  | runStart (sad : BitVec 1) | runInsnStart (sad : BitVec 1) (hw : HwFault) (after : BitVec 32) | runReplay (sad : BitVec 1)
  | runEnd (sad : BitVec 1) | runTimingLimit (sad : BitVec 1)
  | preemptSwitchOut (sad : BitVec 1) | preemptSwitchBack (sad : BitVec 1)
  | runPauseTaken (sad : BitVec 1) | runAbandon (sad : BitVec 1)
  -- R261 to R277: the scheduler
  | schedDecide | contextSwitch (err : StallErr) | alertDelivery | stallFill | stallOverflow | sliceExpiry
  | timerFire (c : BitVec 10)
  -- R365 to R371: queues
  | doorbell (who : Requester) (q : BitVec 12) (lanes : Lanes) (data : Word)
  | qtake (who : Requester) (q : BitVec 12) (lanes : Lanes)
  | qtakeany (who : Requester) (lanes : Lanes)
  | qdone (who : Requester) (q : BitVec 12) (lanes : Lanes) (v : TVal)
  | queuePortDoorbell (q : BitVec 12) (tail : BitVec 32)
  -- R374 to R376: remote windows
  | windowOpen (who : Requester) (w : BitVec 10) | windowOpened (w : BitVec 10)
  | windowClose (who : Requester) (w : BitVec 10) | windowCloseComplete (w : BitVec 10)
  | windowWrite (w : BitVec 11) (gen : BitVec 8) (off : BitVec 20) (data : List (Byte × Bool)) (poison : List Bool)
      (tag : BitVec 16)
  -- R379 to R383: the starting gate
  | gateArrive (who : Requester) | gateLoad (who : Requester) | gateUnload (who : Requester)
  | gateInRise | gateRelease | gateTimeout
  -- R319, R320: memory access and snoop ports; a block is 256 bytes, a line 128
  | memPortResponse (tag : BitVec 8) (write : Bool) (block : BitVec 44) (lmask : BitVec 2) (resp : PortResp)
      (data : List Byte) (pmask : BitVec 16)
  | snoopInvalidate (line : BitVec 45) (tag : BitVec 8) | snoopRead (line : BitVec 45) (tag : BitVec 8)
  -- R335, R336, R340: buffer ports and the range-check port
  | bufReadData (port : BitVec 3) (chunk : BitVec 28) (data : List Byte) (rpoison : BitVec 32) (rerr : Bool)
  | bufWriteAck (port : BitVec 2) (chunk : BitVec 28) (len : BitVec 5) (aerr : Bool)
  | rcResponse (tag : BitVec 16)
  -- R352, R356, R357: stream engines
  | streamRowDone (eng : BitVec 4) (slot : BitVec 3)
  | streamDone (eng : BitVec 4) (slot : BitVec 3) (status : BitVec 8) (rows : BitVec 25) (pchunks : BitVec 16)
  | streamWatchdog (c : BitVec 10)
  | wayDisable (cache : CacheId) (way : BitVec 4) (err : CacheErr)
  -- R422 to R447: Bridle; `m` is the mailbox whose command the firmware serves
  | mbGo (who : Requester) (m : BitVec 5) | mbAbort (who : Requester) (m : BitVec 5)
  | info (m : BitVec 5) | cfgStage (m : BitVec 5) | cfgCommit (m : BitVec 5) | cfgCommitDeadline (m : BitVec 5)
  | gatePoint | cfgDiscard (m : BitVec 5) | cfgRead (m : BitVec 5)
  | ctxStart (m : BitVec 5) | ctxStop (m : BitVec 5) | ctxStopGraceEnd (m : BitVec 5) | ctxRemove (m : BitVec 5)
  | ctxQuery (m : BitVec 5) | alertPost (m : BitVec 5) | rsvSetup (m : BitVec 5)
  | runPause (m : BitVec 5) | runPark (m : BitVec 5) | runResume (m : BitVec 5) | runCancel (m : BitVec 5)
  | waymapRead (m : BitVec 5) | waymapClear (m : BitVec 5) | tackRead (m : BitVec 5) | tackWrite (m : BitVec 5)
  | gateCal (m : BitVec 5) | licenseeCommand (m : BitVec 5) | extTimeout (m : BitVec 5)
  -- R18, R461, R409, R465: register accesses, RAS, restart
  | regWrite (who : Requester) (space : RegSpace) (off : BitVec 24) (lanes : Lanes) (op : RegOp)
  | errAdv (who : Requester) | grestart (who : Requester) | groomRestart (reason : RestartReason) (t : BitVec 2)
  | bridleReady
  -- R473 to R486: the Tack store
  | tkRegWriteLow (t : BitVec 2) (n : BitVec 9) (v : Half) | tkRegWriteHigh (t : BitVec 2) (n : BitVec 9) (v : Half)
  | tackCommit (failA failB : BitVec 2) | tkSeal (t : BitVec 2) | tackAutoSeal
  -- R511, R496, R491, R493, R487: counters, firmware load, reset, start-up
  | pmcClear (who : Requester) | fwloadGo (cls : BitVec 2) (v : Word)
  | poresetAssert (cut : CommitCut) | poresetRelease (straps : Straps) (test : SelfTest)
  | pllLock (band icp : BitVec 6) (fwValid : Bool)
  -- R501 to R504: power
  | pwrfailAssert | pwrfailSequenceEnd | pfDone | thermalSample (temp : BitVec 8) (thermN : Bool)
  | thermNAssert | ptelSample (mw : BitVec 20) | pacingWindow | licIrq (n : BitVec 3) (level : Bool)
  -- R390 to R408: events of the Groom
  | groomDivComplete | groomAccessResponse (t : BitVec 2)
  | groomInterruptEntry (t : BitVec 2) | groomMachineCheck (why : MachineCheck)
  | groomTimerExpiry (n : BitVec 2) | iset (t : BitVec 2) (v : Half) | hashDone
  -- R512: the test wrapper
  | wsBypass | wsExtest (cells : List Bool) | wsIntest (cells : List Bool) | wsScan | wsMbist
  -- R380, R419
  | gateInFall | mailboxAccessRefused (who : Requester) (off : BitVec 24)
  deriving DecidableEq, Repr

end Sys2Proof
end

