-- ==== Sys2Proof/WellFormed.lean ====
section
/-! DEFINITION. Which commands are well formed: for a core instruction, every field that its definition does not use is 0
and every code is one that the definition gives (R61); for a Groom instruction, the same (R394). An instruction that is
not well formed takes ILLEGAL. -/

namespace Sys2Proof

/-- Whether a core instruction's word breaks no rule of R61: its unused fields are 0 and its codes are defined. -/
def Instr.legal : Instr → Bool
  -- R66: MOVI needs a = g0; SHI needs imm[14:8] = 0
  | .movi _ a _ => a == 0
  | .slli _ _ _ hi | .srli _ _ _ hi | .srai _ _ _ hi => hi == 0
  -- R67: b is g0, and TAGOF and MOV have fn[3:0] = 0
  | .tagof _ _ b t | .mov _ _ b t => b == 0 && t == 0
  | .retag _ _ b _ => b == 0
  -- R68: one-operand forms need b = g0; compares, FMIN, FMAX, FABS and FNEG need fn[7:6] = 0
  | .fsqrtD _ _ b _ | .fsqrtS _ _ b _ => b == 0
  | .fminD _ _ _ rm | .fmaxD _ _ _ rm | .fminS _ _ _ rm | .fmaxS _ _ _ rm => rm == 0
  | .fabsD _ _ b rm | .fnegD _ _ b rm | .fabsS _ _ b rm | .fnegS _ _ b rm => b == 0 && rm == 0
  | .fceqD _ _ _ rm | .fcltD _ _ _ rm | .fcleD _ _ _ rm | .fcunD _ _ _ rm => rm == 0
  | .fceqS _ _ _ rm | .fcltS _ _ _ rm | .fcleS _ _ _ rm | .fcunS _ _ _ rm => rm == 0
  -- R71: b is g0; FCVT.D.S needs fn[7:6] = 0
  | .fcvtDI _ _ b _ | .fcvtDIu _ _ b _ | .fcvtID _ _ b _ | .fcvtIuD _ _ b _ => b == 0
  | .fcvtSI _ _ b _ | .fcvtSIu _ _ b _ | .fcvtIS _ _ b _ | .fcvtIuS _ _ b _ | .fcvtSD _ _ b _ => b == 0
  | .fcvtDS _ _ b rm => b == 0 && rm == 0
  -- R78: the fence group names g0 throughout
  | .fence d a b | .fenceSt d a b | .ifence d a b | .ssync d a b => d == 0 && a == 0 && b == 0
  -- R81: imm[14:12] is 0; SRD has a = g0, SWR has d = g0
  | .srd _ a n => a == 0 && n.extractLsb' 12 3 == 0
  | .swr d _ n => d == 0 && n.extractLsb' 12 3 == 0
  -- R82: only KEYSW uses a
  | .tret d a b | .wait d a b | .yieldOp d a b => d == 0 && a == 0 && b == 0
  | .keysw d _ b => d == 0 && b == 0
  -- R83, R84; a word that no row spells is ILLEGAL (R61)
  | .trap d a _ w => d == 0 && a == 0 && w.isNone
  | .ctxsvL d _ _ | .ctxsvU d _ _ | .ctxldL d _ _ | .ctxldU d _ _ => d == 0
  -- R346: the g0 fields of the stream instructions
  | .sstat _ a _ | .scancel _ a _ => a == 0
  | .brel d _ b => d == 0 && b == 0
  | .bqry _ _ b => b == 0
  -- R161, R162: the g0 fields, control word numbers and activation codes of the tile instructions
  | .tld sh _ _ _ | .tst sh _ _ _ | .tstScale sh _ _ _ => sh == 0
  | .tzf _ _ r => r == 0
  | .tzfRelease sh l r | .tsync sh l r | .trunGo sh l r _ => sh == 0 && l == 0 && r == 0
  | .tdr _ _ _ _ act _ _ _ _ => act.toNat < 6
  | .tchk _ l r | .trunStat _ l r => l == 0 && r == 0
  | .tewQ sh _ r w | .tewD sh _ r w => sh == 0 && r == 0 && w.toNat < 4
  | .tewR _ l r w => l == 0 && r == 0 && w.toNat < 4
  | .trunLoad sh _ r => sh == 0 && r == 0
  | .trunGoAt sh l _ => sh == 0 && l == 0
  -- R394: unused fields of the Groom's instructions
  | .gLui _ _ a _ | .gJl _ _ a _ => a == 0
  | .gSlli _ _ _ _ hi | .gSrli _ _ _ _ hi | .gSrai _ _ _ _ hi => hi == 0
  | .gBz _ d _ _ | .gBnz _ d _ _ => d == 0
  | .gSync _ d a b w => d == 0 && a == 0 && b == 0 && w.isNone
  | .gIret _ d a b | .gWfi _ d a b => d == 0 && a == 0 && b == 0
  -- every field of the other instructions is used, and an event's operands have no reserved values
  | _ => true

end Sys2Proof
end

