-- ==== Sys2Proof/Decode.lean ====
section
/-! DEFINITION. The words of the core's instructions: the encoder of the formats and the opcode map (R60 to R63, R161,
R346), its inverse, which the run images' check uses (R214), and the reading of table words. -/

namespace Sys2Proof

/-- Format A of R60: op, d, a, b, fn. -/
def fmtA (op : BitVec 7) (d a b : Reg) (fn : BitVec 10) : Half := op ++ d ++ a ++ b ++ fn

/-- Format I of R60: op, d, a, imm. -/
def fmtI (op : BitVec 7) (d a : Reg) (imm : BitVec 15) : Half := op ++ d ++ a ++ imm

/-- Format B of R60: op, a, offset. -/
def fmtB (op : BitVec 7) (a : Reg) (off : BitVec 20) : Half := op ++ a ++ off

/-- Format T of R60: op, shape, left, right, tfn, flags. -/
def fmtT (op : BitVec 7) (sh l r : Reg) (tfn : BitVec 6) (flags : BitVec 4) : Half := op ++ sh ++ l ++ r ++ tfn ++ flags

/-- Four flag bits, bit 3 first. -/
def bit4 (b3 b2 b1 b0 : Bool) : BitVec 4 :=
  BitVec.ofBool b3 ++ BitVec.ofBool b2 ++ BitVec.ofBool b1 ++ BitVec.ofBool b0

/-- The word of a core instruction (R63 to R71, R78, R82, R84, R161, R346). The events and the Groom's instructions
have none here; a TRAP that carries the fetched word has that word. -/
def coreWord : Instr → Option Half
  | .add d a b => some (fmtA 0x01 d a b 0x000)
  | .sub d a b => some (fmtA 0x01 d a b 0x001)
  | .and d a b => some (fmtA 0x01 d a b 0x002)
  | .or d a b => some (fmtA 0x01 d a b 0x003)
  | .xor d a b => some (fmtA 0x01 d a b 0x004)
  | .sll d a b => some (fmtA 0x01 d a b 0x005)
  | .srl d a b => some (fmtA 0x01 d a b 0x006)
  | .sra d a b => some (fmtA 0x01 d a b 0x007)
  | .mul d a b => some (fmtA 0x01 d a b 0x008)
  | .mulh d a b => some (fmtA 0x01 d a b 0x009)
  | .mulhu d a b => some (fmtA 0x01 d a b 0x00a)
  | .div d a b => some (fmtA 0x01 d a b 0x00b)
  | .divu d a b => some (fmtA 0x01 d a b 0x00c)
  | .rem d a b => some (fmtA 0x01 d a b 0x00d)
  | .remu d a b => some (fmtA 0x01 d a b 0x00e)
  | .min d a b => some (fmtA 0x01 d a b 0x00f)
  | .max d a b => some (fmtA 0x01 d a b 0x010)
  | .minu d a b => some (fmtA 0x01 d a b 0x011)
  | .maxu d a b => some (fmtA 0x01 d a b 0x012)
  | .ceq d a b => some (fmtA 0x01 d a b 0x018)
  | .cne d a b => some (fmtA 0x01 d a b 0x019)
  | .clt d a b => some (fmtA 0x01 d a b 0x01a)
  | .cltu d a b => some (fmtA 0x01 d a b 0x01b)
  | .cle d a b => some (fmtA 0x01 d a b 0x01c)
  | .cleu d a b => some (fmtA 0x01 d a b 0x01d)
  | .addi d a i => some (fmtI 0x02 d a i)
  | .andi d a i => some (fmtI 0x03 d a i)
  | .ori d a i => some (fmtI 0x04 d a i)
  | .xori d a i => some (fmtI 0x05 d a i)
  | .ceqi d a i => some (fmtI 0x07 d a i)
  | .clti d a i => some (fmtI 0x08 d a i)
  | .cltui d a i => some (fmtI 0x09 d a i)
  | .movi d a i => some (fmtI 0x0a d a i)
  | .orsh d a i => some (fmtI 0x0b d a i)
  | .ldI8 d a i => some (fmtI 0x18 d a i)
  | .ldI8u d a i => some (fmtI 0x19 d a i)
  | .ldI16 d a i => some (fmtI 0x1a d a i)
  | .ldI16u d a i => some (fmtI 0x1b d a i)
  | .ldI32 d a i => some (fmtI 0x1c d a i)
  | .ldI32u d a i => some (fmtI 0x1d d a i)
  | .ldI d a i => some (fmtI 0x1e d a i)
  | .ldF32 d a i => some (fmtI 0x1f d a i)
  | .ldF64 d a i => some (fmtI 0x20 d a i)
  | .ldVa d a i => some (fmtI 0x21 d a i)
  | .ldBa d a i => some (fmtI 0x22 d a i)
  | .ldSh d a i => some (fmtI 0x23 d a i)
  | .ldSd d a i => some (fmtI 0x24 d a i)
  | .ldW d a i => some (fmtI 0x25 d a i)
  | .stI8 d a i => some (fmtI 0x28 d a i)
  | .stI16 d a i => some (fmtI 0x29 d a i)
  | .stI32 d a i => some (fmtI 0x2a d a i)
  | .stI d a i => some (fmtI 0x2b d a i)
  | .jalr d a i => some (fmtI 0x33 d a i)
  | .srd d a i => some (fmtI 0x39 d a i)
  | .swr d a i => some (fmtI 0x3a d a i)
  | .trap d a i none => some (fmtI 0x3c d a i)
  | .trap _ _ _ (some w) => some w
  | .slli d a sh hi => some (fmtI 0x06 d a (hi ++ (0b00 : BitVec 2) ++ sh))
  | .srli d a sh hi => some (fmtI 0x06 d a (hi ++ (0b01 : BitVec 2) ++ sh))
  | .srai d a sh hi => some (fmtI 0x06 d a (hi ++ (0b10 : BitVec 2) ++ sh))
  | .tagof d a b t => some (fmtA 0x0c d a b ((0x00 : BitVec 6) ++ t))
  | .retag d a b t => some (fmtA 0x0c d a b ((0x01 : BitVec 6) ++ t))
  | .mov d a b t => some (fmtA 0x0c d a b ((0x02 : BitVec 6) ++ t))
  | .cmovnz d a b => some (fmtA 0x0d d a b 0x000)
  | .cmovz d a b => some (fmtA 0x0d d a b 0x001)
  | .faddD d a b rm => some (fmtA 0x10 d a b ((0 : BitVec 2) ++ rm ++ (0x00 : BitVec 6)))
  | .fsubD d a b rm => some (fmtA 0x10 d a b ((0 : BitVec 2) ++ rm ++ (0x01 : BitVec 6)))
  | .fmulD d a b rm => some (fmtA 0x10 d a b ((0 : BitVec 2) ++ rm ++ (0x02 : BitVec 6)))
  | .fdivD d a b rm => some (fmtA 0x10 d a b ((0 : BitVec 2) ++ rm ++ (0x03 : BitVec 6)))
  | .fsqrtD d a b rm => some (fmtA 0x10 d a b ((0 : BitVec 2) ++ rm ++ (0x04 : BitVec 6)))
  | .fmaddD d a b rm => some (fmtA 0x10 d a b ((0 : BitVec 2) ++ rm ++ (0x05 : BitVec 6)))
  | .fmsubD d a b rm => some (fmtA 0x10 d a b ((0 : BitVec 2) ++ rm ++ (0x06 : BitVec 6)))
  | .fnmaddD d a b rm => some (fmtA 0x10 d a b ((0 : BitVec 2) ++ rm ++ (0x07 : BitVec 6)))
  | .fminD d a b rm => some (fmtA 0x10 d a b ((0 : BitVec 2) ++ rm ++ (0x08 : BitVec 6)))
  | .fmaxD d a b rm => some (fmtA 0x10 d a b ((0 : BitVec 2) ++ rm ++ (0x09 : BitVec 6)))
  | .fabsD d a b rm => some (fmtA 0x10 d a b ((0 : BitVec 2) ++ rm ++ (0x0a : BitVec 6)))
  | .fnegD d a b rm => some (fmtA 0x10 d a b ((0 : BitVec 2) ++ rm ++ (0x0b : BitVec 6)))
  | .fceqD d a b rm => some (fmtA 0x10 d a b ((0 : BitVec 2) ++ rm ++ (0x10 : BitVec 6)))
  | .fcltD d a b rm => some (fmtA 0x10 d a b ((0 : BitVec 2) ++ rm ++ (0x11 : BitVec 6)))
  | .fcleD d a b rm => some (fmtA 0x10 d a b ((0 : BitVec 2) ++ rm ++ (0x12 : BitVec 6)))
  | .fcunD d a b rm => some (fmtA 0x10 d a b ((0 : BitVec 2) ++ rm ++ (0x13 : BitVec 6)))
  | .faddS d a b rm => some (fmtA 0x11 d a b ((0 : BitVec 2) ++ rm ++ (0x00 : BitVec 6)))
  | .fsubS d a b rm => some (fmtA 0x11 d a b ((0 : BitVec 2) ++ rm ++ (0x01 : BitVec 6)))
  | .fmulS d a b rm => some (fmtA 0x11 d a b ((0 : BitVec 2) ++ rm ++ (0x02 : BitVec 6)))
  | .fdivS d a b rm => some (fmtA 0x11 d a b ((0 : BitVec 2) ++ rm ++ (0x03 : BitVec 6)))
  | .fsqrtS d a b rm => some (fmtA 0x11 d a b ((0 : BitVec 2) ++ rm ++ (0x04 : BitVec 6)))
  | .fmaddS d a b rm => some (fmtA 0x11 d a b ((0 : BitVec 2) ++ rm ++ (0x05 : BitVec 6)))
  | .fmsubS d a b rm => some (fmtA 0x11 d a b ((0 : BitVec 2) ++ rm ++ (0x06 : BitVec 6)))
  | .fnmaddS d a b rm => some (fmtA 0x11 d a b ((0 : BitVec 2) ++ rm ++ (0x07 : BitVec 6)))
  | .fminS d a b rm => some (fmtA 0x11 d a b ((0 : BitVec 2) ++ rm ++ (0x08 : BitVec 6)))
  | .fmaxS d a b rm => some (fmtA 0x11 d a b ((0 : BitVec 2) ++ rm ++ (0x09 : BitVec 6)))
  | .fabsS d a b rm => some (fmtA 0x11 d a b ((0 : BitVec 2) ++ rm ++ (0x0a : BitVec 6)))
  | .fnegS d a b rm => some (fmtA 0x11 d a b ((0 : BitVec 2) ++ rm ++ (0x0b : BitVec 6)))
  | .fceqS d a b rm => some (fmtA 0x11 d a b ((0 : BitVec 2) ++ rm ++ (0x10 : BitVec 6)))
  | .fcltS d a b rm => some (fmtA 0x11 d a b ((0 : BitVec 2) ++ rm ++ (0x11 : BitVec 6)))
  | .fcleS d a b rm => some (fmtA 0x11 d a b ((0 : BitVec 2) ++ rm ++ (0x12 : BitVec 6)))
  | .fcunS d a b rm => some (fmtA 0x11 d a b ((0 : BitVec 2) ++ rm ++ (0x13 : BitVec 6)))
  | .fcvtDI d a b rm => some (fmtA 0x12 d a b ((0 : BitVec 2) ++ rm ++ (0x00 : BitVec 6)))
  | .fcvtDIu d a b rm => some (fmtA 0x12 d a b ((0 : BitVec 2) ++ rm ++ (0x01 : BitVec 6)))
  | .fcvtID d a b rm => some (fmtA 0x12 d a b ((0 : BitVec 2) ++ rm ++ (0x02 : BitVec 6)))
  | .fcvtIuD d a b rm => some (fmtA 0x12 d a b ((0 : BitVec 2) ++ rm ++ (0x03 : BitVec 6)))
  | .fcvtSI d a b rm => some (fmtA 0x12 d a b ((0 : BitVec 2) ++ rm ++ (0x04 : BitVec 6)))
  | .fcvtSIu d a b rm => some (fmtA 0x12 d a b ((0 : BitVec 2) ++ rm ++ (0x05 : BitVec 6)))
  | .fcvtIS d a b rm => some (fmtA 0x12 d a b ((0 : BitVec 2) ++ rm ++ (0x06 : BitVec 6)))
  | .fcvtIuS d a b rm => some (fmtA 0x12 d a b ((0 : BitVec 2) ++ rm ++ (0x07 : BitVec 6)))
  | .fcvtDS d a b rm => some (fmtA 0x12 d a b ((0 : BitVec 2) ++ rm ++ (0x08 : BitVec 6)))
  | .fcvtSD d a b rm => some (fmtA 0x12 d a b ((0 : BitVec 2) ++ rm ++ (0x09 : BitVec 6)))
  | .bz a off => some (fmtB 0x30 a off)
  | .bnz a off => some (fmtB 0x31 a off)
  | .jal a off => some (fmtB 0x32 a off)
  | .fence d a b => some (fmtA 0x38 d a b 0x000)
  | .fenceSt d a b => some (fmtA 0x38 d a b 0x001)
  | .ifence d a b => some (fmtA 0x38 d a b 0x010)
  | .ssync d a b => some (fmtA 0x38 d a b 0x020)
  | .tret d a b => some (fmtA 0x3b d a b 0x000)
  | .wait d a b => some (fmtA 0x3b d a b 0x001)
  | .yieldOp d a b => some (fmtA 0x3b d a b 0x002)
  | .keysw d a b => some (fmtA 0x3b d a b 0x003)
  | .ctxsvL d a b => some (fmtA 0x3d d a b 0x000)
  | .ctxsvU d a b => some (fmtA 0x3d d a b 0x001)
  | .ctxldL d a b => some (fmtA 0x3d d a b 0x002)
  | .ctxldU d a b => some (fmtA 0x3d d a b 0x003)
  | .sarm d a b => some (fmtA 0x40 d a b 0x000)
  | .srearm d a b => some (fmtA 0x41 d a b 0x000)
  | .sstat d a b => some (fmtA 0x42 d a b 0x000)
  | .scancel d a b => some (fmtA 0x43 d a b 0x000)
  | .bdecl d a b => some (fmtA 0x44 d a b 0x000)
  | .brel d a b => some (fmtA 0x45 d a b 0x000)
  | .bqry d a b => some (fmtA 0x46 d a b 0x000)
  | .opaT sh l r => some (fmtT 0x60 sh l r 0 0)
  | .opaM sh l r => some (fmtT 0x61 sh l r 0 0)
  | .opkT sh l r k => some (fmtT 0x62 sh l r k 0)
  | .opkM sh l r k => some (fmtT 0x63 sh l r k 0)
  | .tld sh l r _ => some (fmtT 0x64 sh l r 0 0)
  | .tldScale sh l r _ => some (fmtT 0x64 sh l r 1 0)
  | .tst sh l r _ => some (fmtT 0x65 sh l r 0 0)
  | .tstScale sh l r _ => some (fmtT 0x65 sh l r 1 0)
  | .tzf sh l r => some (fmtT 0x66 sh l r 0 0)
  | .tzfRelease sh l r => some (fmtT 0x66 sh l r 0 1)
  | .tdr sh l r df ac clr bias xr xc => some (fmtT 0x67 sh l r (df ++ ac) (bit4 xc xr bias clr))
  | .tdw sh l r clr => some (fmtT 0x68 sh l r 0 (bit4 false false false clr))
  | .taw sh l r => some (fmtT 0x69 sh l r 0 0)
  | .tchk sh l r => some (fmtT 0x6a sh l r 0 0)
  | .tsync sh l r => some (fmtT 0x6b sh l r 0 0)
  | .tewQ sh l r w => some (fmtT 0x6c sh l r w 0)
  | .tewR sh l r w => some (fmtT 0x6c sh l r w 1)
  | .tewD sh l r w => some (fmtT 0x6c sh l r w 2)
  | .trunLoad sh l r => some (fmtT 0x6d sh l r 0 0)
  | .trunGo sh l r g => some (fmtT 0x6d sh l r 1 (bit4 false false false g))
  | .trunGoAt sh l r => some (fmtT 0x6d sh l r 2 0)
  | .trunStat sh l r => some (fmtT 0x6d sh l r 3 0)
  | _ => none

/-- The group of op 0x01, selected by fn (R63). -/
def decodeGroup01 (d a b : Reg) (fn : Nat) : Option Instr :=
  match fn with
  | 0x000 => some (.add d a b)
  | 0x001 => some (.sub d a b)
  | 0x002 => some (.and d a b)
  | 0x003 => some (.or d a b)
  | 0x004 => some (.xor d a b)
  | 0x005 => some (.sll d a b)
  | 0x006 => some (.srl d a b)
  | 0x007 => some (.sra d a b)
  | 0x008 => some (.mul d a b)
  | 0x009 => some (.mulh d a b)
  | 0x00a => some (.mulhu d a b)
  | 0x00b => some (.div d a b)
  | 0x00c => some (.divu d a b)
  | 0x00d => some (.rem d a b)
  | 0x00e => some (.remu d a b)
  | 0x00f => some (.min d a b)
  | 0x010 => some (.max d a b)
  | 0x011 => some (.minu d a b)
  | 0x012 => some (.maxu d a b)
  | 0x018 => some (.ceq d a b)
  | 0x019 => some (.cne d a b)
  | 0x01a => some (.clt d a b)
  | 0x01b => some (.cltu d a b)
  | 0x01c => some (.cle d a b)
  | 0x01d => some (.cleu d a b)
  | _ => none

/-- The group of op 0x0d, selected by fn (R63). -/
def decodeGroup0d (d a b : Reg) (fn : Nat) : Option Instr :=
  match fn with
  | 0x000 => some (.cmovnz d a b)
  | 0x001 => some (.cmovz d a b)
  | _ => none

/-- The group of op 0x38, selected by fn (R63). -/
def decodeGroup38 (d a b : Reg) (fn : Nat) : Option Instr :=
  match fn with
  | 0x000 => some (.fence d a b)
  | 0x001 => some (.fenceSt d a b)
  | 0x010 => some (.ifence d a b)
  | 0x020 => some (.ssync d a b)
  | _ => none

/-- The group of op 0x3b, selected by fn (R63). -/
def decodeGroup3b (d a b : Reg) (fn : Nat) : Option Instr :=
  match fn with
  | 0x000 => some (.tret d a b)
  | 0x001 => some (.wait d a b)
  | 0x002 => some (.yieldOp d a b)
  | 0x003 => some (.keysw d a b)
  | _ => none

/-- The group of op 0x3d, selected by fn (R63). -/
def decodeGroup3d (d a b : Reg) (fn : Nat) : Option Instr :=
  match fn with
  | 0x000 => some (.ctxsvL d a b)
  | 0x001 => some (.ctxsvU d a b)
  | 0x002 => some (.ctxldL d a b)
  | 0x003 => some (.ctxldU d a b)
  | _ => none

/-- The group of op 0x10, selected by fn[5:0] (R68, R71). -/
def decodeGroup10 (d a b : Reg) (rm : Rm) (f : Nat) : Option Instr :=
  match f with
  | 0x000 => some (.faddD d a b rm)
  | 0x001 => some (.fsubD d a b rm)
  | 0x002 => some (.fmulD d a b rm)
  | 0x003 => some (.fdivD d a b rm)
  | 0x004 => some (.fsqrtD d a b rm)
  | 0x005 => some (.fmaddD d a b rm)
  | 0x006 => some (.fmsubD d a b rm)
  | 0x007 => some (.fnmaddD d a b rm)
  | 0x008 => some (.fminD d a b rm)
  | 0x009 => some (.fmaxD d a b rm)
  | 0x00a => some (.fabsD d a b rm)
  | 0x00b => some (.fnegD d a b rm)
  | 0x010 => some (.fceqD d a b rm)
  | 0x011 => some (.fcltD d a b rm)
  | 0x012 => some (.fcleD d a b rm)
  | 0x013 => some (.fcunD d a b rm)
  | _ => none

/-- The group of op 0x11, selected by fn[5:0] (R68, R71). -/
def decodeGroup11 (d a b : Reg) (rm : Rm) (f : Nat) : Option Instr :=
  match f with
  | 0x000 => some (.faddS d a b rm)
  | 0x001 => some (.fsubS d a b rm)
  | 0x002 => some (.fmulS d a b rm)
  | 0x003 => some (.fdivS d a b rm)
  | 0x004 => some (.fsqrtS d a b rm)
  | 0x005 => some (.fmaddS d a b rm)
  | 0x006 => some (.fmsubS d a b rm)
  | 0x007 => some (.fnmaddS d a b rm)
  | 0x008 => some (.fminS d a b rm)
  | 0x009 => some (.fmaxS d a b rm)
  | 0x00a => some (.fabsS d a b rm)
  | 0x00b => some (.fnegS d a b rm)
  | 0x010 => some (.fceqS d a b rm)
  | 0x011 => some (.fcltS d a b rm)
  | 0x012 => some (.fcleS d a b rm)
  | 0x013 => some (.fcunS d a b rm)
  | _ => none

/-- The group of op 0x12, selected by fn[5:0] (R68, R71). -/
def decodeGroup12 (d a b : Reg) (rm : Rm) (f : Nat) : Option Instr :=
  match f with
  | 0x000 => some (.fcvtDI d a b rm)
  | 0x001 => some (.fcvtDIu d a b rm)
  | 0x002 => some (.fcvtID d a b rm)
  | 0x003 => some (.fcvtIuD d a b rm)
  | 0x004 => some (.fcvtSI d a b rm)
  | 0x005 => some (.fcvtSIu d a b rm)
  | 0x006 => some (.fcvtIS d a b rm)
  | 0x007 => some (.fcvtIuS d a b rm)
  | 0x008 => some (.fcvtDS d a b rm)
  | 0x009 => some (.fcvtSD d a b rm)
  | _ => none

/-- The tag group of op 0x0C, selected by fn[9:4] (R67). -/
def decodeTagGroup (d a b : Reg) (f : Nat) (t : BitVec 4) : Option Instr :=
  match f with
  | 0 => some (.tagof d a b t)
  | 1 => some (.retag d a b t)
  | 2 => some (.mov d a b t)
  | _ => none

/-- SHI, op 0x06: imm[7:6] is the kind and 0b11 is none (R66). -/
def decodeShi (d a : Reg) (i : BitVec 15) : Option Instr :=
  match (i.extractLsb' 6 2).toNat with
  | 0 => some (.slli d a (i.extractLsb' 0 6) (i.extractLsb' 8 7))
  | 1 => some (.srli d a (i.extractLsb' 0 6) (i.extractLsb' 8 7))
  | 2 => some (.srai d a (i.extractLsb' 0 6) (i.extractLsb' 8 7))
  | _ => none

/-- The tile instructions, op 0x60 to 0x6D (R161). A tfn or flags value that no row defines gives none. -/
def decodeTile (op : Nat) (d a b : Reg) (tfn : BitVec 6) (fl : BitVec 4) : Option Instr :=
  match op with
  | 0x60 => if tfn = 0 ∧ fl = 0 then some (.opaT d a b) else none
  | 0x61 => if tfn = 0 ∧ fl = 0 then some (.opaM d a b) else none
  | 0x62 => if fl = 0 then some (.opkT d a b tfn) else none
  | 0x63 => if fl = 0 then some (.opkM d a b tfn) else none
  | 0x64 => if tfn = 0 ∧ fl = 0 then some (.tld d a b none) else if tfn = 1 ∧ fl = 0 then some (.tldScale d a b none) else none
  | 0x65 => if tfn = 0 ∧ fl = 0 then some (.tst d a b none) else if tfn = 1 ∧ fl = 0 then some (.tstScale d a b none) else none
  | 0x66 => if tfn = 0 ∧ fl = 0 then some (.tzf d a b) else if tfn = 0 ∧ fl = 1 then some (.tzfRelease d a b) else none
  | 0x67 => some (.tdr d a b (tfn.extractLsb' 3 3) (tfn.extractLsb' 0 3) (fl.getLsbD 0) (fl.getLsbD 1) (fl.getLsbD 2) (fl.getLsbD 3))
  | 0x68 => if tfn = 0 ∧ fl.extractLsb' 1 3 = 0 then some (.tdw d a b (fl.getLsbD 0)) else none
  | 0x69 => if tfn = 0 ∧ fl = 0 then some (.taw d a b) else none
  | 0x6a => if tfn = 0 ∧ fl = 0 then some (.tchk d a b) else none
  | 0x6b => if tfn = 0 ∧ fl = 0 then some (.tsync d a b) else none
  | 0x6c =>
    if fl = 0 then some (.tewQ d a b tfn) else if fl = 1 then some (.tewR d a b tfn)
    else if fl = 2 then some (.tewD d a b tfn) else none
  | 0x6d =>
    if tfn = 0 ∧ fl = 0 then some (.trunLoad d a b)
    else if tfn = 1 ∧ fl.extractLsb' 1 3 = 0 then some (.trunGo d a b (fl.getLsbD 0))
    else if tfn = 2 ∧ fl = 0 then some (.trunGoAt d a b) else if tfn = 3 ∧ fl = 0 then some (.trunStat d a b) else none
  | _ => none

/-- The instruction that a 32-bit word spells under the opcode map (R63). A reserved op, fn or tfn gives none: such a
word is ILLEGAL (R61) and is no command. Unused fields that are not 0 are kept, and the instruction then takes ILLEGAL. -/
def decodeCore (w : Half) : Option Instr :=
  let d : Reg := w.extractLsb' 20 5
  let a : Reg := w.extractLsb' 15 5
  let b : Reg := w.extractLsb' 10 5
  let fn : BitVec 10 := w.extractLsb' 0 10
  let i : BitVec 15 := w.extractLsb' 0 15
  let off : BitVec 20 := w.extractLsb' 0 20
  let rm : Rm := w.extractLsb' 6 2
  let f6 : Nat := (w.extractLsb' 0 6).toNat
  let hi2 : Nat := (w.extractLsb' 8 2).toNat
  let op : Nat := (w.extractLsb' 25 7).toNat
  match op with
  | 0x01 => decodeGroup01 d a b fn.toNat
  | 0x02 => some (.addi d a i)
  | 0x03 => some (.andi d a i)
  | 0x04 => some (.ori d a i)
  | 0x05 => some (.xori d a i)
  | 0x06 => decodeShi d a i
  | 0x07 => some (.ceqi d a i)
  | 0x08 => some (.clti d a i)
  | 0x09 => some (.cltui d a i)
  | 0x0a => some (.movi d a i)
  | 0x0b => some (.orsh d a i)
  | 0x0c => decodeTagGroup d a b (w.extractLsb' 4 6).toNat (w.extractLsb' 0 4)
  | 0x0d => decodeGroup0d d a b fn.toNat
  | 0x10 => if hi2 = 0 then decodeGroup10 d a b rm f6 else none
  | 0x11 => if hi2 = 0 then decodeGroup11 d a b rm f6 else none
  | 0x12 => if hi2 = 0 then decodeGroup12 d a b rm f6 else none
  | 0x18 => some (.ldI8 d a i)
  | 0x19 => some (.ldI8u d a i)
  | 0x1a => some (.ldI16 d a i)
  | 0x1b => some (.ldI16u d a i)
  | 0x1c => some (.ldI32 d a i)
  | 0x1d => some (.ldI32u d a i)
  | 0x1e => some (.ldI d a i)
  | 0x1f => some (.ldF32 d a i)
  | 0x20 => some (.ldF64 d a i)
  | 0x21 => some (.ldVa d a i)
  | 0x22 => some (.ldBa d a i)
  | 0x23 => some (.ldSh d a i)
  | 0x24 => some (.ldSd d a i)
  | 0x25 => some (.ldW d a i)
  | 0x28 => some (.stI8 d a i)
  | 0x29 => some (.stI16 d a i)
  | 0x2a => some (.stI32 d a i)
  | 0x2b => some (.stI d a i)
  | 0x30 => some (.bz d off)
  | 0x31 => some (.bnz d off)
  | 0x32 => some (.jal d off)
  | 0x33 => some (.jalr d a i)
  | 0x38 => decodeGroup38 d a b fn.toNat
  | 0x39 => some (.srd d a i)
  | 0x3a => some (.swr d a i)
  | 0x3b => decodeGroup3b d a b fn.toNat
  | 0x3c => some (.trap d a i none)
  | 0x3d => decodeGroup3d d a b fn.toNat
  | 0x40 => if fn = 0 then some (.sarm d a b) else none
  | 0x41 => if fn = 0 then some (.srearm d a b) else none
  | 0x42 => if fn = 0 then some (.sstat d a b) else none
  | 0x43 => if fn = 0 then some (.scancel d a b) else none
  | 0x44 => if fn = 0 then some (.bdecl d a b) else none
  | 0x45 => if fn = 0 then some (.brel d a b) else none
  | 0x46 => if fn = 0 then some (.bqry d a b) else none
  | _ => decodeTile op d a b (w.extractLsb' 4 6) (w.extractLsb' 0 4)

/-! ## The Groom's words (R394) -/

/-- Format R of R394: op, d, a, b, fn. -/
def fmtR (op : BitVec 6) (d a b : BitVec 4) (fn : BitVec 14) : Half := op ++ d ++ a ++ b ++ fn

/-- The immediate format of R394: op, d, a, imm. -/
def fmtG (op : BitVec 6) (d a : BitVec 4) (imm : BitVec 18) : Half := op ++ d ++ a ++ imm

/-- The word of a Groom instruction (R394); a SYNC that carries the fetched word has that word. -/
def groomWord : Instr → Option Half
  | .gAdd _ d a b => some (fmtR 0x01 d a b 0) | .gSub _ d a b => some (fmtR 0x01 d a b 1)
  | .gAnd _ d a b => some (fmtR 0x01 d a b 2) | .gOr _ d a b => some (fmtR 0x01 d a b 3)
  | .gXor _ d a b => some (fmtR 0x01 d a b 4) | .gSll _ d a b => some (fmtR 0x01 d a b 5)
  | .gSrl _ d a b => some (fmtR 0x01 d a b 6) | .gSra _ d a b => some (fmtR 0x01 d a b 7)
  | .gSlt _ d a b => some (fmtR 0x01 d a b 8) | .gSltu _ d a b => some (fmtR 0x01 d a b 9)
  | .gAddi _ d a i => some (fmtG 0x02 d a i) | .gAndi _ d a i => some (fmtG 0x03 d a i)
  | .gOri _ d a i => some (fmtG 0x04 d a i) | .gXori _ d a i => some (fmtG 0x05 d a i)
  | .gSlti _ d a i => some (fmtG 0x06 d a i) | .gSltui _ d a i => some (fmtG 0x07 d a i)
  | .gLui _ d a i => some (fmtG 0x08 d a i)
  | .gSlli _ d a sh hi => some (fmtG 0x09 d a (hi ++ (0 : BitVec 2) ++ sh))
  | .gSrli _ d a sh hi => some (fmtG 0x09 d a (hi ++ (1 : BitVec 2) ++ sh))
  | .gSrai _ d a sh hi => some (fmtG 0x09 d a (hi ++ (2 : BitVec 2) ++ sh))
  | .gMul _ d a b => some (fmtR 0x0A d a b 0) | .gMulhu _ d a b => some (fmtR 0x0A d a b 1)
  | .gDiv _ d a b => some (fmtR 0x0B d a b 0) | .gDivu _ d a b => some (fmtR 0x0B d a b 1)
  | .gRem _ d a b => some (fmtR 0x0B d a b 2) | .gRemu _ d a b => some (fmtR 0x0B d a b 3)
  | .gLdw _ d a i => some (fmtG 0x10 d a i) | .gLdhu _ d a i => some (fmtG 0x11 d a i)
  | .gLdbu _ d a i => some (fmtG 0x12 d a i)
  | .gStw _ d a i => some (fmtG 0x14 d a i) | .gSth _ d a i => some (fmtG 0x15 d a i)
  | .gStb _ d a i => some (fmtG 0x16 d a i)
  | .gBz _ d a i => some (fmtG 0x18 d a i) | .gBnz _ d a i => some (fmtG 0x19 d a i)
  | .gJl _ d a i => some (fmtG 0x1A d a i) | .gJlr _ d a i => some (fmtG 0x1B d a i)
  | .gSync _ d a b none => some (fmtR 0x1C d a b 0)
  | .gSync _ _ _ _ (some w) => some w
  | .gIret _ d a b => some (fmtR 0x1C d a b 1) | .gWfi _ d a b => some (fmtR 0x1C d a b 2)
  | _ => none

/-- The register group 0x01. -/
def decodeGroom01 (t : BitVec 2) (d a b : BitVec 4) (fn : Nat) : Option Instr :=
  match fn with
  | 0 => some (.gAdd t d a b) | 1 => some (.gSub t d a b) | 2 => some (.gAnd t d a b) | 3 => some (.gOr t d a b)
  | 4 => some (.gXor t d a b) | 5 => some (.gSll t d a b) | 6 => some (.gSrl t d a b) | 7 => some (.gSra t d a b)
  | 8 => some (.gSlt t d a b) | 9 => some (.gSltu t d a b) | _ => none

/-- The shift group 0x09: imm[6:5] 3 is reserved. -/
def decodeGroomShi (t : BitVec 2) (d a : BitVec 4) (imm : BitVec 18) : Option Instr :=
  let sh : BitVec 5 := imm.extractLsb' 0 5
  let hi : BitVec 11 := imm.extractLsb' 7 11
  match (imm.extractLsb' 5 2).toNat with
  | 0 => some (.gSlli t d a sh hi) | 1 => some (.gSrli t d a sh hi) | 2 => some (.gSrai t d a sh hi) | _ => none

/-- The instruction that a word spells for thread `t` (R394). A reserved op or fn gives none: such a word is ILLEGAL. -/
def decodeGroom (t : BitVec 2) (w : Half) : Option Instr :=
  let d : BitVec 4 := w.extractLsb' 22 4
  let a : BitVec 4 := w.extractLsb' 18 4
  let b : BitVec 4 := w.extractLsb' 14 4
  let fn : Nat := (w.extractLsb' 0 14).toNat
  let i : BitVec 18 := w.extractLsb' 0 18
  let op : Nat := (w.extractLsb' 26 6).toNat
  match op with
  | 0x01 => decodeGroom01 t d a b fn
  | 0x02 => some (.gAddi t d a i) | 0x03 => some (.gAndi t d a i) | 0x04 => some (.gOri t d a i)
  | 0x05 => some (.gXori t d a i) | 0x06 => some (.gSlti t d a i) | 0x07 => some (.gSltui t d a i)
  | 0x08 => some (.gLui t d a i)
  | 0x09 => decodeGroomShi t d a i
  | 0x0A => if fn = 0 then some (.gMul t d a b) else if fn = 1 then some (.gMulhu t d a b) else none
  | 0x0B =>
    if fn = 0 then some (.gDiv t d a b) else if fn = 1 then some (.gDivu t d a b)
    else if fn = 2 then some (.gRem t d a b) else if fn = 3 then some (.gRemu t d a b) else none
  | 0x10 => some (.gLdw t d a i) | 0x11 => some (.gLdhu t d a i) | 0x12 => some (.gLdbu t d a i)
  | 0x14 => some (.gStw t d a i) | 0x15 => some (.gSth t d a i) | 0x16 => some (.gStb t d a i)
  | 0x18 => some (.gBz t d a i) | 0x19 => some (.gBnz t d a i)
  | 0x1A => some (.gJl t d a i) | 0x1B => some (.gJlr t d a i)
  | 0x1C =>
    if fn = 0 then some (.gSync t d a b none) else if fn = 1 then some (.gIret t d a b)
    else if fn = 2 then some (.gWfi t d a b) else none
  | _ => none

/-- R61, R394: whether a command stands for the instruction word it carries: one that carries a fetched word does so only
where no row of the table spells that word. -/
def Instr.spells : Instr → Bool
  | .trap _ _ _ (some w) => (decodeCore w).isNone
  | .gSync t _ _ _ (some w) => (decodeGroom t w).isNone
  | _ => true

/-- A command without what its word does not hold: the rows that an abandoned transfer has moved (R119). -/
def Instr.uncut : Instr → Instr
  | .tld sh l r _ => .tld sh l r none
  | .tldScale sh l r _ => .tldScale sh l r none
  | .tst sh l r _ => .tst sh l r none
  | .tstScale sh l r _ => .tstScale sh l r none
  | i => i

/-- The command that a table word spells. The table gives no row any bits (98_reader.md: no row has a fixed pattern), so
the word is read under the one 32-bit encoding that the spec gives the core (R60, R61, R63): op, and fn or tfn with it,
select the instruction. Which of the core's and the Groom's encodings such a word stands for is DESIGN CHOICE, log entry 122.
Another width spells no command. -/
def decodeTableWord (nbits w : Nat) : Option Instr :=
  if nbits = 32 then decodeCore (BitVec.ofNat 32 w) else none

end Sys2Proof
end

