-- ==== Sys2Proof/Config.lean ====
section
/-! DEFINITION. What the source leaves open: the free values, as constants with no body, so that no proof can see what
they are, and the one implementation number the model needs besides the ones in the rules. Each free value has a log entry. -/

namespace Sys2Proof.Config

/-- R297: which of several matching TLB entries an access uses is not defined. The n-th such choice takes the matching
entry at this position, modulo the number of matches. DESIGN CHOICE, log entry 6. -/
opaque tlbChoice : Nat → Nat

/-- R390, R387: the contents of the Groom's ROM are fixed, and no rule states them. DESIGN CHOICE, log entry 9. -/
opaque romByte : Nat → Byte

/-- R397, R398: to how many words thread `t` has filled its prefetch queue when it issues at a time and a pc. DESIGN CHOICE,
log entry 59. -/
opaque prefetch : Nat → Nat → BitVec 32 → BitVec 3

/-- R411: the key hash held in ROM. PRESUMED, log entry 10. -/
opaque romKeyHash : BitVec 384

/-- R413: where firmware finds the licensee's extension image: a physical address that no rule states. DESIGN CHOICE, log entry 11. -/
opaque extBase : Nat

/-- R5, R451: data that the source calls unpredictable or undefined, where no other rule fixes it. DESIGN CHOICE, log entry 12. -/
opaque freeWord : Nat → Word

end Sys2Proof.Config
end

