-- ==== Sys2Proof/Machine/Table.lean ====
section
/-! DEFINITION. Sparse tables: a list of (key, value) pairs with rising keys. Every large array of the block (registers,
contexts, queues, cells, memories) is one, so that state is plain data. -/

namespace Sys2Proof.Machine

/-- A sparse table. A key that is not listed reads as the table's default, which the reader supplies. -/
abbrev Tbl (α : Type) := List (Nat × α)

/-- The value at key `k`, or `d` where none is listed. -/
def Tbl.get {α : Type} (d : α) : Tbl α → Nat → α
  | [], _ => d
  | (j, v) :: t, k => if k = j then v else Tbl.get d t k

/-- The table with `v` at key `k`. -/
def Tbl.set {α : Type} : Tbl α → Nat → α → Tbl α
  | [], k, v => [(k, v)]
  | (j, w) :: t, k, v =>
    if k = j then (k, v) :: t else if k < j then (k, v) :: (j, w) :: t else (j, w) :: Tbl.set t k v

/-- The table with nothing listed at key `k`. -/
def Tbl.del {α : Type} : Tbl α → Nat → Tbl α
  | [], _ => []
  | (j, w) :: t, k => if k = j then Tbl.del t k else (j, w) :: Tbl.del t k

/-- The canonical write: the default value is never listed. -/
def Tbl.put {α : Type} [DecidableEq α] (d : α) (t : Tbl α) (k : Nat) (v : α) : Tbl α :=
  if v = d then t.del k else t.set k v

/-- Every listed value replaced by its image. -/
def Tbl.mapVals {α : Type} (f : Nat → α → α) (t : Tbl α) : Tbl α := t.map fun p => (p.1, f p.1 p.2)

/-- The table with nothing listed at the keys that `p` accepts. -/
def Tbl.drop {α : Type} (p : Nat → Bool) (t : Tbl α) : Tbl α := t.filter fun e => !p e.1

/-- Keys strictly above `k` in rising order. -/
def Tbl.above {α : Type} (k : Nat) : Tbl α → Bool
  | [] => true
  | (j, _) :: t => decide (k < j) && Tbl.above j t

/-- The canonical order: keys strictly rising. -/
def Tbl.sorted {α : Type} : Tbl α → Bool
  | [] => true
  | (j, _) :: t => Tbl.above j t

/-- The canonical form of a byte memory: keys strictly rising and no entry equal to the default. -/
def Tbl.wf {α : Type} [DecidableEq α] (d : α) (t : Tbl α) : Bool := t.sorted && t.all fun p => decide (p.2 ≠ d)

/-- The first `n` natural numbers from `a` that `p` accepts: the lowest one. -/
def firstFrom (p : Nat → Bool) : (a n : Nat) → Option Nat
  | _, 0 => none
  | a, n + 1 => if p a then some a else firstFrom p (a + 1) n

end Sys2Proof.Machine
end

