-- ==== Sys2Proof/Machine/State.lean ====
section
/-! DEFINITION. The state of the block as plain data: every register, buffer, queue, counter and mode that the rules name,
the waiting commands, and the state at reset. -/

namespace Sys2Proof.Machine

/-! ## Contexts and stalls -/

/-- R249: what a stall holds of its resident context. `status` keeps MODE, PMODE, AE and PAE in bits [3:0]; SADDLE, SNUM
and RUN are read from the tile unit (R91, R275). -/
structure Stall where
  regs : Tbl TVal
  pc : Word
  status : Word
  cause : Word
  epc : Word
  tval : Word
  tvec : Word
  tsp : Word
  scratch : TVal
  asid : Word
  ptbase : Word
  keyrl : Word
  keyrh : Word
  bbase : Word
  bbound : Word
  bwlimit : Word
  /-- The in-use copies of ASID and ROOT (R301). -/
  useAsid : BitVec 16
  useRoot : Nat
  /-- R451: the general registers that hold an uncorrectable error which no read has met. -/
  upset : Tbl Ecc
  deriving DecidableEq, Repr

/-- R38 and the Reset columns of R55, R58, R299, R334: the stall of a new context before its descriptor's fields are put in. No
Reset column gives the tag of scratch and the values of scratch, epc and tval: the model takes INT and 0 (DESIGN CHOICE,
log entry 5). -/
def Stall.fresh : Stall :=
  { regs := [], pc := 0, status := 1, cause := 0, epc := 0, tval := 0, tvec := 0, tsp := 0, scratch := ⟨0, .int⟩,
    asid := 0, ptbase := 0, keyrl := 0, keyrh := 0, bbase := 0, bbound := 0, bwlimit := 0x10000, useAsid := 0, useRoot := 0,
    upset := [] }

/-- R256: the states of a registered context. -/
inductive CtxMode where
  | free | ready | running | waiting | stopped
  deriving DecidableEq, Repr

/-- Why an instruction of a context waits at issue (R99, R123, R199, R302, R328, R342, R343, R500, R501, R435). -/
inductive WaitWhy where
  | saddle | inactive | queueFull | earlier | range | governor | pacing | hold | release | runEnd | transfer
  deriving DecidableEq, Repr

/-- A wait at issue: its reason, the CCLK at which it began, whether the waiting instruction is a tile instruction
(R230), and, for a range wait, tval and OPFIELD of the BUFWAIT it would take (R342, R343). -/
structure Wait where
  why : WaitWhy
  since : Nat
  tile : Bool
  insn : Instr
  tval : Word
  opfield : Nat
  optag : Tag
  deriving DecidableEq, Repr

/-- R341: one declared range entry, at relocated offsets, with the tag of its acquire. -/
structure RangeEntry where
  off : Nat
  len : Nat
  baddr : Nat
  write : Bool
  consume : Bool
  granted : Bool
  tag : Nat
  deriving DecidableEq, Repr

/-- R343: a declared range of an image, held or waited for, at its relocated offset. -/
structure HeldRange where
  off : Nat
  len : Nat
  baddr : Nat
  write : Bool
  granted : Bool
  tag : Nat
  deriving DecidableEq, Repr

/-- R195: STATE of the run status word. -/
inductive RunSt where
  | empty | loaded | armed | running | preempted | done | failed
  deriving DecidableEq, Repr

/-- R257, R88, R124, R132, R195, R341, R367: the entry of the context state array, with the context's hidden state. -/
structure Ctx where
  mode : CtxMode
  stall : Option Nat
  lock : Bool
  saveLo : Nat
  saveHi : Nat
  prio : BitVec 3
  woke : BitVec 8
  pend : BitVec 8
  runix : BitVec 4
  evmask : Word
  alert : Word
  tsave : Word
  stamp : Nat
  /-- A WAIT of this context has not completed; its next dispatch moves PEND & EN to WOKE (R263). -/
  inWait : Bool
  stopCause : BitVec 16
  fpv : Bool
  recf : Bool
  framePa : Nat
  /-- The pinned tile save area (R124). -/
  pin : Option Nat
  runSt : RunSt
  runLate : Bool
  runResult : BitVec 8
  waitAt : Option Wait
  ranges : Tbl RangeEntry
  /-- The queue of the most recent successful QTAKEANY (R367). -/
  lastTake : Nat
  /-- The flow watchdog (R352): its count in ACLK, and the CCLK from which it counts on while a flow descriptor is active. -/
  flowCount : Nat
  flowSince : Nat
  /-- The ranges that a TRUN.GO waiting at issue has asked for (R217 step 4, R343). -/
  askedRanges : List HeldRange
  /-- The context's in-use copies of ASID and ROOT, which its stall also holds while it is resident (R301, R302). -/
  useAsid : BitVec 16
  useRoot : Nat
  deriving DecidableEq, Repr

/-- The entry of a context that is FREE (R255 step 4, R283). -/
def Ctx.free : Ctx :=
  { mode := .free, stall := none, lock := false, saveLo := 0, saveHi := 0, prio := 0, woke := 0, pend := 0, runix := 0,
    evmask := 0, alert := 0, tsave := 0, stamp := 0, inWait := false, stopCause := 0, fpv := false, recf := false,
    framePa := 0, pin := none, runSt := .empty, runLate := false, runResult := 0, waitAt := none, ranges := [],
    lastTake := 4095, flowCount := 0, flowSince := 0, askedRanges := [], useAsid := 0, useRoot := 0 }

/-- R265, R266: what the core executes. -/
inductive Disp where
  | idle | ctx (n : Nat) | reserve
  deriving DecidableEq, Repr

/-- R297: one TLB entry. -/
structure TlbEntry where
  base : Nat
  size : Nat
  asid : BitVec 16
  global : Bool
  level : Nat
  oa : Nat
  rd : Bool
  wr : Bool
  ex : Bool
  svc : Bool
  key : Nat
  st : Bool
  ty : Nat
  deriving DecidableEq, Repr

/-- R284, R296: an entry of a walk cache: the non-leaf entry of a level that covers an address, and the table it points
to. -/
structure WalkEntry where
  asid : BitVec 16
  level : Nat
  /-- The virtual address divided by the span of an entry of the level. -/
  va : Nat
  table : Nat
  deriving DecidableEq, Repr

/-- R284, R298: a TLB with its replacement LFSR and its walker's walk cache, newest entry first. -/
structure Tlb where
  entries : Tbl TlbEntry
  lfsr : BitVec 16
  walk : List WalkEntry
  deriving DecidableEq, Repr

/-- R274: one stall in the reserve stall's hold within one handler entry. -/
structure Hold where
  /-- A CTXSV.L of the stall has completed in this hold. -/
  savedL : Bool
  /-- The stall has been emptied by a CTXSV.U. -/
  emptied : Bool
  /-- The context that a CTXLD.L of this hold named. -/
  loadedL : Option Nat
  deriving DecidableEq, Repr

/-- R250, R271, R276, R278: the reserve stall's own state. -/
structure Reserve where
  setUp : Bool
  stopped : Bool
  current : Option Nat
  requests : List Nat
  holds : Tbl Hold
  deriving DecidableEq, Repr

/-- The scalar core: dispatch, stalls, the context state array, the TLBs and the scheduler (R248, R257, R265). -/
structure Core where
  disp : Disp
  stalls : Tbl Stall
  ctxs : Tbl Ctx
  tlb : Tlb
  ttlb : Tlb
  reserve : Reserve
  /-- A trigger of decide() has occurred and has not been served (R265). -/
  decideDue : Bool
  /-- The context that the last decision chose, not yet switched to. -/
  switchTo : Option Nat
  /-- The fills in progress, oldest first: the context and the stall (R277). -/
  fills : List (Nat × Nat)
  dispatchedAt : Nat
  sliceExpired : Bool
  deriving DecidableEq, Repr

/-! ## Tile state -/

/-- R94: a cell: S, its flags and CNT; `perr` marks the 16-bit limbs whose parity bit disagrees (R98, R449). -/
structure Cell where
  s : BitVec 128
  range : Bool
  count : Bool
  poison : Bool
  cnt : Nat
  perr : BitVec 8
  deriving DecidableEq, Repr

/-- A zero cell (R98). -/
def Cell.zero : Cell := { s := 0, range := false, count := false, poison := false, cnt := 0, perr := 0 }

/-- R102, R104, R106: an operand tile: element bytes, scale store and the poison map of each. -/
structure Tile where
  bytes : Tbl Byte
  scale : Tbl Byte
  pmap : Tbl Bool
  spmap : Tbl Bool
  deriving DecidableEq, Repr

/-- A tile in ZERO state (R107). -/
def Tile.zero : Tile := { bytes := [], scale := [], pmap := [], spmap := [] }

/-- R131: the tile status record. BSTATE holds two bits a block, OSTATE two bits a tile, SCL and SAX; `rstate` is RUNSTATE
as the last restore read it, and nothing where it is zeros. -/
structure TileRec where
  tstat : Word
  dseq : Word
  seedLo : Word
  seedHi : Word
  bstate : Word
  ostate : Word
  rstate : List Byte
  deriving DecidableEq, Repr

/-- A record of zeros (R126, R133). -/
def TileRec.zero : TileRec := { tstat := 0, dseq := 0, seedLo := 0, seedHi := 0, bstate := 0, ostate := 0, rstate := [] }

/-- Whether bytes lie in memory or in buffer memory (R116). -/
inductive Loc where
  | mem | buf
  deriving DecidableEq, Repr

/-- One row of an operand in memory (physical pieces, one per page) or buffer memory (offsets): R117, R172. -/
structure Row where
  loc : Loc
  pieces : List (Nat × Nat)
  deriving DecidableEq, Repr

/-- R197, R200: an accepted tile instruction with the operand values it read at issue and the places of its rows. -/
structure TileOp where
  insn : Instr
  shape : Word
  left : TVal
  right : TVal
  rows : List Row
  rows2 : List Row
  deriving DecidableEq, Repr

/-- R99: one saddle. Checksum and zero-mark keys are engine × 256 + index (R97, R98); cell keys are row × 1024 + column. -/
structure Saddle where
  owner : Option Nat
  cells : Tbl Cell
  /-- Zero marks that are clear: an engine row not listed has its mark set. -/
  live : Tbl Bool
  crow : Tbl (BitVec 136)
  ccol : Tbl (BitVec 136)
  tiles : Tbl Tile
  status : TileRec
  queue : List TileOp
  /-- When the owner's last tile instruction issued (R123). -/
  lastIssue : Nat
  deriving DecidableEq, Repr

/-- A saddle without an owner, after PORESET_N (R95, R98). -/
def Saddle.empty : Saddle :=
  { owner := none, cells := [], live := [], crow := [], ccol := [], tiles := [], status := .zero, queue := [], lastIssue := 0 }

/-- R114: the key of a rein-cache entry; `part` numbers the 2,048-byte parts of a longer vector. -/
structure ReinEntry where
  sad : BitVec 1
  first : Nat
  span : Nat
  col : Bool
  k : Nat
  fmt : Nat
  len : Nat
  part : Nat
  deriving DecidableEq, Repr

/-- R99, R100, R501: the tile unit. -/
structure TileUnit where
  sad0 : Saddle
  sad1 : Saddle
  active : BitVec 1
  /-- Stamps tile-instruction issue order (R123). -/
  issueSeq : Nat
  /-- Energy issued inline in the present 1,024 ACLK window, in twentieths of a picojoule (R501). -/
  winEnergy : Nat
  /-- R93, R114: the rein caches of the left and the right operand, most recently used entry first. -/
  reinL : List ReinEntry
  reinR : List ReinEntry
  /-- R115: the element last presented to each engine row and each engine column, by engine × 256 + index. -/
  rowLatch : Tbl Nat
  colLatch : Tbl Nat
  deriving DecidableEq, Repr

/-- The tile unit after PORESET_N (R95). -/
def TileUnit.reset : TileUnit :=
  { sad0 := .empty, sad1 := .empty, active := 0, issueSeq := 0, winEnergy := 0, reinL := [], reinR := [], rowLatch := [],
    colLatch := [] }

/-! ## Sealed runs -/

/-- R208: a loop of a run. -/
structure Loop where
  first : Nat
  last : Nat
  trips : Nat
  deriving DecidableEq, Repr

/-- R208: a run table entry. -/
structure RunDesc where
  first : Nat
  last : Nat
  cycles : Nat
  pro : Nat
  epi : Nat
  replayable : Bool
  chain : Bool
  loops : List Loop
  deriving DecidableEq, Repr

/-- R208: an operand table entry. -/
structure OpEntry where
  value : Word
  tag : Tag
  incs : List Word
  deriving DecidableEq, Repr

/-- R208: a pin entry. -/
structure Pin where
  va : Nat
  size : Nat
  rd : Bool
  wr : Bool
  deriving DecidableEq, Repr

/-- R208: a range entry. -/
structure BufRange where
  base : Nat
  len : Nat
  write : Bool
  deriving DecidableEq, Repr

/-- R206, R208: a loaded image. -/
structure Image where
  runs : List RunDesc
  ops : List OpEntry
  pins : List Pin
  ranges : List BufRange
  words : List Half
  total : Nat
  maxgap : Nat
  energy : Nat
  memTimed : Bool
  crc : BitVec 32
  loadedAt : Nat
  deriving DecidableEq, Repr

/-- R306: a pin held by an admitted run. -/
structure HeldPin where
  va : Nat
  size : Nat
  pa : Nat
  rd : Bool
  wr : Bool
  deriving DecidableEq, Repr

/-- R174: what a started instruction touches, for the cycle model: a box of cells, tile rows read and written, scale
rows, intervals of buffer memory or memory, and control words. -/
structure Foot where
  accum : Bool
  /-- Cells: first row, last row, first column, last column. -/
  cells : Option (Nat × Nat × Nat × Nat)
  /-- Tile rows: tile × 512 + row for element rows, plus 256 for scale rows; inclusive intervals. -/
  tileRd : List (Nat × Nat)
  tileWr : List (Nat × Nat)
  bytesRd : List (Bool × Nat × Nat)
  bytesWr : List (Bool × Nat × Nat)
  ctlWr : List Nat
  ctlUse : List Nat
  /-- The DSEQ advance and the sticky flags, which count against TEW only (R174). -/
  ctlSoft : List Nat
  deriving DecidableEq, Repr

/-- R223: an instruction that has started, of run `run` of the image. -/
structure Started where
  run : Nat
  start : Nat
  latency : Nat
  foot : Foot
  deriving DecidableEq, Repr

/-- R210, R227, R235: a stretch of instruction words that the sequence goes through, of one run of the image. `fresh`: it
is timed with every earlier instruction treated as complete. `iters` are the loop indices with which it is entered. -/
structure Part where
  run : Nat
  first : Nat
  last : Nat
  iters : List Nat
  fresh : Bool
  deriving DecidableEq, Repr

/-- R211: a place in the image's dynamic sequence: the run, the word and the loop indices. -/
structure Cursor where
  part : Nat
  word : Nat
  iters : List Nat
  deriving DecidableEq, Repr

/-- R242: the snapshot of the control words. -/
structure Snap where
  tstat : Word
  dseq : Word
  seedLo : Word
  seedHi : Word
  deriving DecidableEq, Repr

/-- The phases of an admitted image: R219, R231, R237, R238. -/
inductive RunPhase where
  | armed | running | preempted | paused | parked
  deriving DecidableEq, Repr

/-- An admitted image on its saddle, with the sequencer's state (R217 to R244). -/
structure Run where
  ctx : Nat
  image : Image
  phase : RunPhase
  pins : List HeldPin
  ranges : List HeldRange
  gated : Bool
  /-- The gate has released since admission (R219). -/
  released : Bool
  /-- The counter value of a TRUN.GO.AT (R194). -/
  goAt : Option Word
  /-- The CCLK at which the counter value was reached or the gate released (R219). -/
  metAt : Option Nat
  /-- The counter had reached the value at admission, or a load carried it beyond (R194). -/
  late : Bool
  cursor : Cursor
  /-- The part that the cursor is in, and those that follow it; none once every instruction has started. -/
  todo : List Part
  /-- The cycle model's issue slot and latest latency end (R223). -/
  slot : Nat
  lastEnd : Nat
  started : List Started
  /-- The cycle at which each run of the image began (R225). -/
  runStart : Tbl Nat
  /-- The snapshot of each run that has begun (R242). -/
  snaps : Tbl Snap
  /-- The largest latency end among the started instructions of each run (R235). -/
  ends : Tbl Nat
  /-- The runs whose replay has begun (R454). -/
  replayed : List Nat
  /-- Errors charged to the image: the run, the detection cycle and the RESULT that ends the image; 0 asks for a replay. -/
  charged : List (Nat × Nat × BitVec 8)
  /-- The image's POISON_IN record in the making: SRC, UNIT, the first poisoned chunk and their number (R459). -/
  poisonIn : Option (Nat × Nat × Nat × Nat)
  /-- An abandonment or cancellation waiting for the next boundary (R244). -/
  abandon : Option (BitVec 8)
  pauseReq : Bool
  parkReq : Bool
  /-- RUN_PAUSE met a preemption: the switch back is withheld (R443). -/
  holdBack : Bool
  preempts : Nat
  goCount : Word
  /-- The run buffer has delivered an uncorrectable word: the image is removed at its end (R455). -/
  dropImage : Bool
  deriving DecidableEq, Repr

/-- R206, R217: the run buffer's images, by context, and the admitted images, by saddle. -/
structure RunUnit where
  images : Tbl Image
  loadSeq : Nat
  run0 : Option Run
  run1 : Option Run
  /-- Parked images, by context: they hold no saddle (R238). -/
  parked : Tbl Run
  deriving DecidableEq, Repr

/-! ## Memories outside the block -/

/-- Bytes with a poison mark for each 16-byte chunk (R49, R358). -/
structure Store where
  bytes : Tbl Byte
  poison : Tbl Bool
  deriving DecidableEq, Repr

/-- R339: the scoreboard state of a byte. -/
structure SbState where
  filled : Bool
  readers : Nat
  writer : Bool
  consume : Bool
  deriving DecidableEq, Repr

/-- R339: EMPTY, with no holders and no mark. -/
def SbState.empty : SbState := { filled := false, readers := 0, writer := false, consume := false }

/-- A run of bytes of one scoreboard state. -/
structure Seg where
  lo : Nat
  hi : Nat
  st : SbState
  deriving DecidableEq, Repr

/-- Who waits for a pending acquire of the range-check port (R341, R343, R374). -/
inductive AcqOwner where
  | entry (c i : Nat) | admission (c i : Nat) | window (w : Nat)
  deriving DecidableEq, Repr

/-- R340: a pending acquire. -/
structure Acq where
  tag : Nat
  lo : Nat
  hi : Nat
  write : Bool
  owner : AcqOwner
  deriving DecidableEq, Repr

/-- R333, R339: buffer memory as the block reaches it, and its range scoreboard. -/
structure Buffer where
  store : Store
  size : Nat
  sb : List Seg
  pend : List Acq
  deriving DecidableEq, Repr

/-- Memory as the memory access ports answer for it; `noTarget` lists the 128-byte lines that are answered NOTARGET (R319). -/
structure HostMem where
  store : Store
  noTarget : Tbl Bool
  deriving DecidableEq, Repr

/-! ## Streams -/

/-- R349, R350: a checked descriptor with relocated offsets and translated addresses. -/
structure StreamD where
  kind : BitVec 3
  flow : Bool
  notify : Bool
  consume : Bool
  bufOff : Nat
  bstride : Int
  rowLen : Nat
  rows : Nat
  /-- The physical address of memory row 0, or of the table. -/
  memPa : Nat
  mstride : Int
  tlog2 : Nat
  idxPa : Nat
  statPa : Option Nat
  /-- STATVA, which an error record names (R458). -/
  statVa : Word
  user : Word
  granted : Bool
  rowsDone : Nat
  pchunks : Nat
  /-- The first poisoned chunk that the descriptor received (R458). -/
  firstBad : Nat
  badRows : Nat
  cancel : Bool
  deriving DecidableEq, Repr

/-- R348: one slot of a stream engine. -/
structure StreamSlot where
  gen : BitVec 8
  ctx : Nat
  act : Option StreamD
  shadow : Option StreamD
  deriving DecidableEq, Repr

/-! ## Queues, windows, gate -/

/-- R361, R363: a queue's counters, flags, and the holders of its entries in flight, oldest first. -/
structure Queue where
  tail : BitVec 32
  taken : BitVec 32
  done : BitVec 32
  badTail : Bool
  seqErr : Bool
  denied : Bool
  holders : List Nat
  deriving DecidableEq, Repr

/-- A queue after PORESET_N (R363). -/
def Queue.empty : Queue :=
  { tail := 0, taken := 0, done := 0, badTail := false, seqErr := false, denied := false, holders := [] }

/-- R373: STATE of WCS. -/
inductive WinSt where
  | closed | opening | opened | closing
  deriving DecidableEq, Repr

/-- R373: a remote window's registers and its held target. -/
structure Window where
  wtgt : Word
  wlen : Word
  st : WinSt
  gen : BitVec 8
  last : BitVec 4
  evOpened : Bool
  evFull : Bool
  evClosed : Bool
  evRejected : Bool
  count : Nat
  /-- The relocated offset or the translated address of an open window. -/
  target : Option (Loc × Nat)
  tag : Nat
  granted : Bool
  /-- The close releases with REL_WP (R377). -/
  spoil : Bool
  deriving DecidableEq, Repr

/-- A window after PORESET_N (R373). -/
def Window.empty : Window :=
  { wtgt := 0, wlen := 1, st := .closed, gen := 0, last := 0, evOpened := false, evFull := false, evClosed := false,
    evRejected := false, count := 0, target := none, tag := 0, granted := false, spoil := false }

/-- R382: a calibration in progress: the rises of GATE_OUT to come, the largest count so far, and whether GATE_OUT is raised
for it. -/
structure GateCal where
  left : Nat
  best : Nat
  high : Bool
  deriving DecidableEq, Repr

/-- R379 to R385: the starting gate. -/
structure Gate where
  epoch : BitVec 32
  arrived : Nat
  arrivedCtxs : List Nat
  out : Bool
  timeout : Bool
  loadArm : Bool
  rtt : BitVec 12
  gcountLd : Word
  /-- The level of GATE_IN as last sampled, and whether it has been low since the last release (R380). -/
  gateIn : Bool
  lowSeen : Bool
  /-- The CCLK of the sampled rise that awaits its release, and of the rise of GATE_OUT. -/
  riseAt : Option Nat
  outAt : Nat
  /-- The time-out of the present rise has been taken (R383). -/
  timedOut : Bool
  /-- A release has armed the load of gcount for the next TCLK edge (R385). -/
  loadDue : Bool
  /-- The PCLK of the release after which GATE_OUT drops (R381). -/
  dropAt : Option Nat
  cal : Option GateCal
  deriving DecidableEq, Repr

/-! ## Bridle -/

/-- R428: a configuration item. -/
structure CfgItem where
  item : Nat
  index : Nat
  value : Word
  deriving DecidableEq, Repr

/-- What a command in progress waits for (R423, R431, R439, R442, R443, R445, R446, R447). -/
inductive MbWait where
  | fresh | turn | committing | grace | pausing | parking | cancelling | reserve | tack | licensee | calibrating
  deriving DecidableEq, Repr

/-- R418: STATE of MB_STATUS. -/
inductive MbSt where
  | idle | busy | done
  deriving DecidableEq, Repr

/-- R418, R422: one mailbox. -/
structure Mailbox where
  cmd : Tbl Byte
  resp : Tbl Byte
  st : MbSt
  overrun : Bool
  abortReq : Bool
  irq : Bool
  lastStat : BitVec 16
  doneCnt : BitVec 32
  /-- A GO is held until READY (R422). -/
  held : Bool
  waitFor : MbWait
  /-- The CCLK at which the present wait began. -/
  since : Nat
  set : List CfgItem
  deriving DecidableEq, Repr

/-- A mailbox after PORESET_N (R418). -/
def Mailbox.empty : Mailbox :=
  { cmd := [], resp := [], st := .idle, overrun := false, abortReq := false, irq := false, lastStat := 0, doneCnt := 0,
    held := false, waitFor := .fresh, since := 0, set := [] }

/-- R431: what a commit still writes into the staged copies: an item, or a field of a Tack register, bits [hi:lo]. -/
inductive StageOp where
  | item (it : CfgItem)
  | reg (n hi lo v : Nat)
  deriving DecidableEq, Repr

/-- R431: the commit in progress. -/
structure Commit where
  m : Nat
  t0 : Nat
  deadline : Nat
  hold : Bool
  /-- The writes that have not begun. -/
  todo : List StageOp
  deriving DecidableEq, Repr

/-- R418, R424, R431: the interface's shared state. -/
structure Bridle where
  ready : Bool
  stand : Bool
  line : BitVec 16
  refused : BitVec 32
  /-- BUSY mailboxes in the order their GOs were sampled (R424). -/
  goOrder : List Nat
  commit : Option Commit
  minor : BitVec 16
  svn : BitVec 32
  deriving DecidableEq, Repr

/-- R20, R429: the active and staged values of the G-class items, by item and index. -/
structure Cfg where
  active : Tbl Word
  staged : Tbl Word
  deriving DecidableEq, Repr

/-! ## RAS -/

/-- R456: an error record. -/
structure ErrRec where
  seq : BitVec 32
  src : Byte
  outcome : Byte
  rflags : Byte
  code : BitVec 16
  ctx : BitVec 16
  unit : BitVec 16
  cause2 : BitVec 16
  gstamp : Word
  addr : Word
  info : Word
  imgcrc : BitVec 32
  runix : Byte
  tau : BitVec 32
  items : BitVec 32
  deriving DecidableEq, Repr

/-- R460, R461, R462, R463: the error FIFO, its registers, the log and the firmware's counts. -/
structure Ras where
  fifo : List ErrRec
  nextSeq : BitVec 32
  ovf : Bool
  lost : BitVec 32
  logNext : Byte
  copied : BitVec 32
  /-- ERR_LOG, by word: 8 words a record. -/
  log : Tbl Word
  /-- Counts not yet added to the history: key 0 for CORRECTED, else the SRC (R462). -/
  counts : Tbl Nat
  /-- The times of corrected errors of each cache way, by bit of the way map (R322). -/
  ceTimes : Tbl (List Word)
  restarts : Nat
  deriving DecidableEq, Repr

/-! ## Tack store -/

/-- Who waits for a Tack write's completion: a Groom thread that wrote the Tack window or the staged copy of a field that
a register backs, firmware itself, or a Bridle command. -/
inductive TkSrc where
  | groom (t : Nat) | field (t : Nat) | firmware | mailbox (m : Nat) | commitItem (m : Nat)
  /-- The firmware's addition to an error history register (R462). -/
  | history
  deriving DecidableEq, Repr

/-- R475: a queued write. -/
structure TkWrite where
  reg : Nat
  value : Word
  /-- Its writers: more than one after a merge. -/
  srcs : List TkSrc
  deriving DecidableEq, Repr

/-- R470 to R486: the Tack store controller and the contents of its nonvolatile device. -/
structure Tack where
  value : Tbl Word
  level : Tbl Nat
  /-- The TCLK count at which a register's level was last settled (R478). -/
  stamp : Tbl Nat
  lastSeq : Tbl Nat
  nextSlot : Tbl Nat
  /-- Bad slots: copy × 32,768 + register × 64 + slot (R476). -/
  bad : Tbl Bool
  queue : List TkWrite
  /-- Writes that found the queue full (R475). -/
  heldW : List TkWrite
  /-- Staged low halves, by thread: the register and the half (R473). -/
  staging : Tbl (Nat × Half)
  ready : Bool
  single : Bool
  devFail : Bool
  sealedNow : Bool
  repairs : Nat
  badSlots : Nat
  wcode : Byte
  wreg : Nat
  device : Tbl Byte
  deriving DecidableEq, Repr

/-! ## The Groom -/

/-- R391, R392: a thread held by an access; a load's register and value arrive with the response. -/
structure GHeld where
  dest : Option (Nat × Half)
  deriving DecidableEq, Repr

/-- R406: a division that waits or runs. -/
structure GDiv where
  d : Nat
  op : Nat
  a : Half
  b : Half
  pc : Half
  deriving DecidableEq, Repr

/-- R394 to R405: one Groom thread. -/
structure GThread where
  w : Tbl Half
  pc : Half
  level : Nat
  ie : Bool
  ext : Bool
  causeCode : Byte
  causeSrc : Nat
  gfaddr : Half
  tstart : Half
  vbase : Half
  run : Bool
  wfi : Bool
  held : Option GHeld
  divOp : Option GDiv
  /-- The source that the thread has entered while its handler has issued no instruction (R404). -/
  entered : Option Nat
  /-- Lunge-mode results on their way: register, value and the GCLK from which a read returns it (R396). -/
  late : List (Nat × Half × Nat)
  /-- Pending Sync writes: control-register offset and value, oldest first (R400). -/
  pending : List (Nat × Half)
  /-- R397: the prefetch queue: address and word, in ascending address order following the PC. -/
  queue : List (Half × Half)
  /-- R397: the word that the last fetch delivered. -/
  word : Half
  deriving DecidableEq, Repr

/-- A thread at reset (R399, R400): TSTAT.LEVEL 16, everything else 0. -/
def GThread.reset : GThread :=
  { w := [], pc := 0, level := 16, ie := false, ext := false, causeCode := 0, causeSrc := 0, gfaddr := 0, tstart := 0,
    vbase := 0, run := false, wfi := false, held := none, divOp := none, entered := none, late := [],
    pending := [], queue := [], word := 0 }

/-- R387 to R416: the Groom. -/
structure Groom where
  threads : Tbl GThread
  threaded : Bool
  extOk : Bool
  ien : Word
  ipend : Word
  /-- IRQCFG PRIO and TGT, by source (R399). -/
  irqcfg : Tbl (Nat × Nat)
  /-- TMR_n: the count and the CCLK at which it was written (R399). -/
  tmr : Tbl (Nat × Nat)
  xwin : Half
  extEn : Bool
  lock : BitVec 2
  gdigest : Tbl Half
  /-- ILEN and DLEN of the verified copy (R409, R410). -/
  copyLen : Nat × Nat
  /-- The divider: the thread it serves and the GCLK at which it ends; the thread last served (R406). -/
  divBusy : Option (Nat × Nat)
  divLast : Nat
  iram : Tbl Byte
  dram : Tbl Byte
  /-- R390: the words of IRAM and DRAM, by Groom address div 4, that hold an uncorrectable error. -/
  bad : Tbl Ecc
  /-- R409: the restart flag with which ROM and the image are entered. -/
  restartFlag : Bool
  /-- Lunge mode's count of issue slots (R396). -/
  lclk : Nat
  /-- Thread 0 is between machine-check entry and its handler's IRET (R408), whose frame lies at `mcFrame`. -/
  inMc : Bool
  mcFrame : Half
  mcPending : Bool
  /-- ENTRY of the verified main image and of the extension (R410, R414). -/
  entry : Half
  extEntry : Half
  /-- LKEYHASH and IFLAGS.ADVANCE of the running image (R410, R412, R413). -/
  lkeyHash : BitVec 384
  advance : Bool
  extHalted : Bool
  /-- Stopped with no restart to come (R393, R409, R463). -/
  halted : Bool
  /-- The levels of LIC_IRQ[7:0] (R401). -/
  lic : BitVec 8
  deriving DecidableEq, Repr

/-! ## Clocks, reset, power, test -/

/-- R502: the thermal state. -/
inductive Therm where
  | normal | throttle | emergency
  deriving DecidableEq, Repr

/-- R498 to R506: power. -/
structure Power where
  therm : Therm
  temp : Byte
  thermN : Bool
  tel : BitVec 20
  pfail : Bool
  pfAt : Nat
  pfEnded : Bool
  pfDone : Bool
  /-- The ACLK of the last entry to EMERGENCY, and the contexts whose images it ended at once (R505). -/
  emAt : Option Nat
  emEnded : List Nat
  deriving DecidableEq, Repr

/-- R490 to R496: reset and start-up. -/
structure Boot where
  /-- PORESET_N is asserted. -/
  por : Bool
  sstep : Nat
  sfail : Bool
  fwWait : Bool
  straps : Straps
  test : SelfTest
  fwloadAddr : Word
  /-- FW_VALID as sampled when step 5 began (R494). -/
  fwValid : Bool
  pllLocked : Bool
  band : BitVec 6
  icp : BitVec 6
  brLevel : Byte
  errBusy : Bool
  busyOff : BitVec 24
  deriving DecidableEq, Repr

/-- R511: the performance counters. -/
structure Pmc where
  en : Bool
  cnt : Tbl Word
  deriving DecidableEq, Repr

/-- R512: the wrapper instruction register's instructions. -/
inductive Wir where
  | bypass | extest | intest | scan | mbist
  deriving DecidableEq, Repr

/-- R311, R315: one cache line's tag, dirty bit and age. Data is held once, in memory (R313). -/
structure CLine where
  line : Nat
  dirty : Bool
  age : Nat
  deriving DecidableEq, Repr

/-- R311, R325: the caches, by set × 16 + way, and the ways disabled in force, in the layout of R325. -/
structure Caches where
  l1i : Tbl CLine
  l1d : Tbl CLine
  l2 : Tbl CLine
  off : BitVec 28
  /-- What memory outside the block still holds of a line that a cache holds dirty: its bytes and poison marks (R491). -/
  stale : Tbl (List Byte × List Bool)
  deriving DecidableEq, Repr

/-- R509: a request of a memory access port: MA_OP 0 read, 1 write, 2 write-back, MA_PA, MA_LMASK, MA_TAG, and of a write
the bytes of the lines named, their enables and their poison bits. -/
structure MemReq where
  op : Nat
  block : Nat
  lmask : BitVec 2
  tag : BitVec 8
  wdata : List (Nat × Byte)
  wpoison : List Nat
  deriving DecidableEq, Repr

/-- R509: the last snoop response: SN_RTAG, SN_DIRTY and, when dirty, the line's bytes and poison bits. -/
structure SnoopRsp where
  tag : BitVec 8
  dirty : Bool
  data : List Byte
  poison : List Bool
  deriving DecidableEq, Repr

/-- What the block last drove on its ports (R320, R371, R378, R492, R508, R509, R513). -/
structure Ports where
  /-- The response of the last register access: data and error. -/
  rdata : Word
  rerr : Bool
  /-- What the instruments of the IEEE 1687 network last captured, and whether the access was refused. -/
  ijdata : Word
  ijerr : Bool
  /-- The QC announcements since reset, oldest first: queue, sequence number, status. -/
  qc : List (Nat × BitVec 32 × BitVec 16)
  /-- The last WI_RSP: tag and code. -/
  wi : Option (BitVec 16 × BitVec 2)
  snoop : Option SnoopRsp
  /-- The last request of each memory access port. -/
  ma : Tbl MemReq
  /-- The level on TK_RESET_N. -/
  tkResetN : Bool
  /-- The level on TK_CS_N (R491). -/
  tkCsN : Bool
  deriving DecidableEq, Repr

/-- The state of the block. -/
structure State where
  /-- The commands that wait, first in, first out. -/
  pending : List Instr
  /-- CCLK cycles since the release of PORESET_N. -/
  now : Nat
  gcount : Word
  /-- The number of free choices made so far: the model's own field. -/
  free : Nat
  core : Core
  tile : TileUnit
  runs : RunUnit
  mem : HostMem
  buf : Buffer
  streams : Tbl StreamSlot
  queues : Tbl Queue
  windows : Tbl Window
  gate : Gate
  mboxes : Tbl Mailbox
  bridle : Bridle
  cfg : Cfg
  ras : Ras
  tack : Tack
  groom : Groom
  power : Power
  boot : Boot
  pmc : Pmc
  wir : Wir
  /-- The wrapper boundary register, a cell for each port bit (R512). -/
  wbr : List Bool
  caches : Caches
  ports : Ports
  deriving DecidableEq, Repr

/-- Why the machine stops with a fault. No rule stops the block as a whole: an error, a trap, a refused access and a
missing target each have an effect on State, and that effect is the command's. So there is no reason. -/
inductive Fault where
  deriving DecidableEq, Repr

/-- Why a command has no meaning. -/
inductive Refusal where
  /-- Raised by an arm of `exec` whose command the model does not give a meaning yet; safe. -/
  | notModelled (mnemonic : String)
  deriving DecidableEq, Repr

/-- The core after PORESET_N (R298, R493 step 9): nothing dispatched, no context started. -/
def Core.reset : Core :=
  { disp := .idle, stalls := [], ctxs := [], tlb := { entries := [], lfsr := 0xACE1, walk := [] },
    ttlb := { entries := [], lfsr := 0xACE1, walk := [] },
    reserve := { setUp := false, stopped := false, current := none, requests := [], holds := [] },
    decideDue := false, switchTo := none, fills := [], dispatchedAt := 0, sliceExpired := false }

/-- The Tack store after PORESET_N, with the contents of its device, which no reset changes (R491). -/
def Tack.reset (device : Tbl Byte) : Tack :=
  { value := [], level := [], stamp := [], lastSeq := [], nextSlot := [], bad := [], queue := [], heldW := [],
    staging := [], ready := false, single := false, devFail := false, sealedNow := false, repairs := 0, badSlots := 0,
    wcode := 0, wreg := 0, device := device }

/-- The Groom after PORESET_N: lunge mode, TCTL.RUN = 1 (R396, R400). -/
def Groom.reset (lic : BitVec 8) : Groom :=
  { threads := [(0, { GThread.reset with run := true })], threaded := false, extOk := false, ien := 0, ipend := 0,
    irqcfg := [], tmr := [], xwin := 0, extEn := false, lock := 0, gdigest := [], copyLen := (0, 0), divBusy := none, divLast := 3,
    iram := [], dram := [], bad := [], restartFlag := false, lclk := 0, inMc := false, mcFrame := 0,
    mcPending := false, entry := 0, extEntry := 0, lkeyHash := 0,
    advance := false, extHalted := false, halted := false, lic := lic }

/-- The error unit after PORESET_N (R456, R461). -/
def Ras.reset : Ras :=
  { fifo := [], nextSeq := 0, ovf := false, lost := 0, logNext := 0, copied := 0,
    log := [], counts := [], ceTimes := [], restarts := 0 }

/-- The gate after PORESET_N (R379): GATE_IN has been sampled low. -/
def Gate.reset : Gate :=
  { epoch := 0, arrived := 0, arrivedCtxs := [], out := false, timeout := false, loadArm := false, rtt := 0,
    gcountLd := 0, gateIn := false, lowSeen := true, riseAt := none, outAt := 0,
    timedOut := false, loadDue := false, dropAt := none, cal := none }

/-- Power after PORESET_N (R490, R498). -/
def Power.reset : Power :=
  { therm := .normal, temp := 0, thermN := true, tel := 0, pfail := false, pfAt := 0, pfEnded := false, pfDone := false,
    emAt := none, emEnded := [] }

/-- Start-up state while PORESET_N is asserted (R490, R493). -/
def Boot.reset : Boot :=
  { por := true, sstep := 0, sfail := false, fwWait := false,
    straps := { blkBase := 0, fwBase := 0, recBase := 0, stePresent := 0 },
    test := { romOk := true, tackOk := true, arraysOk := true, badWays := 0 },
    fwloadAddr := 0, fwValid := false, pllLocked := false, band := 0, icp := 0, brLevel := 0, errBusy := false, busyOff := 0 }

/-- The memories outside the block when nothing has been written. The buffer size is the reference chip's (R333). -/
def Buffer.reset : Buffer := { store := { bytes := [], poison := [] }, size := 0x0C000000, sb := [], pend := [] }

/-- Everything that PORESET_N resets, around what it does not reach: the memories outside the block, the nonvolatile
device and the levels on the licensee interrupt inputs (R491). -/
def State.afterPoreset (pending : List Instr) (mem : HostMem) (buf : Buffer) (device : Tbl Byte) (lic : BitVec 8)
    (free : Nat) (wir : Wir) : State :=
  { pending := pending, now := 0, gcount := 0, free := free, core := .reset,
    tile := .reset,
    runs := { images := [], loadSeq := 0, run0 := none, run1 := none, parked := [] },
    mem := mem, buf := buf, streams := [], queues := [], windows := [], gate := .reset, mboxes := [],
    bridle := { ready := false, stand := false, line := 0, refused := 0, goOrder := [], commit := none, minor := 0, svn := 0 },
    cfg := { active := [], staged := [] }, ras := .reset, tack := .reset device, groom := .reset lic, power := .reset,
    boot := .reset, pmc := { en := false, cnt := [] }, wir := wir,
    wbr := [],
    caches := { l1i := [], l1d := [], l2 := [], off := 0, stale := [] },
    ports := { rdata := 0, rerr := false, ijdata := 0, ijerr := false, qc := [], wi := none, snoop := none, ma := [],
               tkResetN := false, tkCsN := true } }

/-- The block while PORESET_N is asserted, before its release: every register at its Reset column (R15, R491), no
command waiting, nothing written in any memory. -/
def State.reset : State :=
  State.afterPoreset [] { store := { bytes := [], poison := [] }, noTarget := [] } .reset [] 0 0 .bypass

end Sys2Proof.Machine
end

