-- ==== Sys2Proof/Machine/Ops.lean ====
section
/-! DEFINITION. The named operations over State that every family shares: contexts, stalls and registers, configuration
values, byte stores with poison marks, Groom interrupt pends, events, alerts and error records. -/

namespace Sys2Proof.Machine

/-! ## Contexts, stalls and registers -/

/-- The entry of context `n` (R257). -/
def State.ctx (s : State) (n : Nat) : Ctx := s.core.ctxs.get Ctx.free n

/-- `s` with the entry of context `n` replaced. -/
def State.setCtx (s : State) (n : Nat) (c : Ctx) : State :=
  { s with core := { s.core with ctxs := s.core.ctxs.set n c } }

/-- `s` with the entry of context `n` changed by `f`. -/
def State.modCtx (s : State) (n : Nat) (f : Ctx → Ctx) : State := s.setCtx n (f (s.ctx n))

/-- The contents of stall `k` (R249). -/
def State.stall (s : State) (k : Nat) : Stall := s.core.stalls.get Stall.fresh k

/-- `s` with the contents of stall `k` replaced. -/
def State.setStall (s : State) (k : Nat) (t : Stall) : State :=
  { s with core := { s.core with stalls := s.core.stalls.set k t } }

/-- `s` with the contents of stall `k` changed by `f`. -/
def State.modStall (s : State) (k : Nat) (f : Stall → Stall) : State := s.setStall k (f (s.stall k))

/-- The stall that executes: the dispatched context's, or the reserve stall 31 (R249, R250). -/
def State.curStall (s : State) : Option Nat :=
  match s.core.disp with
  | .idle => none
  | .ctx n => (s.ctx n).stall
  | .reserve => some 31

/-- The dispatched context, if one is (R256). -/
def State.curCtx (s : State) : Option Nat :=
  match s.core.disp with
  | .ctx n => some n
  | _ => none

/-- The contents of the executing stall. -/
def State.cur (s : State) : Stall := s.stall (s.curStall.getD 31)

/-- `s` with the contents of the executing stall changed by `f`. -/
def State.modCur (s : State) (f : Stall → Stall) : State := s.modStall (s.curStall.getD 31) f

/-- A register that nothing has written: data 0, tag NONE (R38). -/
def TVal.fresh : TVal := ⟨0, .none⟩

/-- An INT value. -/
def TVal.int (w : Word) : TVal := ⟨w, .int⟩

/-- R37: g0 reads as data 0 with tag INT. -/
def Stall.reg (t : Stall) (r : Nat) : TVal := if r = 0 then ⟨0, .int⟩ else t.regs.get TVal.fresh r

/-- R37: a result written to g0 is discarded. -/
def Stall.setReg (t : Stall) (r : Nat) (v : TVal) : Stall :=
  if r = 0 then t else { t with regs := t.regs.set r v, upset := t.upset.del r }

/-- A register of the executing stall. -/
def State.reg (s : State) (r : Reg) : TVal := s.cur.reg r.toNat

/-- `s` with register `r` of the executing stall written. -/
def State.setReg (s : State) (r : Reg) (v : TVal) : State := s.modCur fun t => t.setReg r.toNat v

/-- The mode of the executing stall: system mode when status.MODE is 1 (R53). -/
def Stall.sysMode (t : Stall) : Bool := t.status.bit 0

/-- The context that is resident in stall `k`: the first whose entry names it (R256). -/
def State.resident (s : State) (k : Nat) : Option Nat :=
  (s.core.ctxs.find? fun p => p.2.stall == some k).map (·.1)

/-- A context is started when it is neither FREE nor STOPPED (R256). -/
def Ctx.started (c : Ctx) : Bool := c.mode != .free && c.mode != .stopped

/-- The tag code of R39. -/
def tagCode : Tag → Nat
  | .none => 0 | .int => 1 | .vaddr => 2 | .baddr => 3 | .f64 => 4 | .f32 => 5 | .shape => 6 | .sdesc => 7
  | .wide => 8 | .poison => 15

/-- The tag that a code names; a reserved code loads as POISON (R41). -/
def tagOfCode (n : Nat) : Tag :=
  match n with
  | 0 => .none | 1 => .int | 2 => .vaddr | 3 => .baddr | 4 => .f64 | 5 => .f32 | 6 => .shape | 7 => .sdesc
  | 8 => .wide | _ => .poison

/-! ## Configuration (R20, R429) -/

/-- The table key of a configuration item. REG of offset 0x06_0000 and POWER_LIMIT name one register (R429, R498). -/
def cfgKey (item index : Nat) : Nat := if item = 0x70 ∧ index = 0xC000 then 0x40 * 65536 else item * 65536 + index

/-- The Reset column of R429 and of the registers that its items name. -/
def cfgReset (item : Nat) (index : Nat) : Word :=
  if item = 0x0002 then 0x10000
  else if item = 0x0003 then 0x100000
  else if item = 0x0020 then 0x400
  else if item = 0x0030 then 0x1E000000
  else if item = 0x0070 && index = 3 then 1
  else if item = 0x0070 && index = 0xC003 then 0x056E5F
  else 0

/-- The active value of a configuration item (R20). -/
def Cfg.act (c : Cfg) (item index : Nat) : Word := c.active.get (cfgReset item index) (cfgKey item index)

/-- The staged value of a configuration item (R20). -/
def Cfg.stg (c : Cfg) (item index : Nat) : Word := c.staged.get (cfgReset item index) (cfgKey item index)

/-- R470: the bits of a configuration item that are views of Tack registers. -/
def rwpBits (item index : Nat) : Word :=
  if item = 0x40 ∨ (item = 0x70 ∧ index = 0xC000) then 0x7FFFF else if item = 0x30 then 0xFFFFFF000FFF00 else 0

/-- R431, R470: a staged copy that is given up: the active value, in which the views of Tack registers stay as they are. -/
def Cfg.unstaged (c : Cfg) (item index : Nat) : Word :=
  (c.act item index &&& ~~~(rwpBits item index)) ||| (c.stg item index &&& rwpBits item index)

/-- The active value of a configuration item. -/
def State.cfgAct (s : State) (item index : Nat) : Word := s.cfg.act item index

/-- R431: every item of the commit in progress has been written into the staged copies, and the Tack store has committed its
RWP fields. -/
def State.stagedAll (s : State) (c : Commit) : Bool :=
  c.todo.isEmpty && !((s.tack.queue ++ s.tack.heldW).any fun w => w.srcs.contains (.commitItem c.m))

/-- The active QCFG, QRING and QCRING of a queue (R363). -/
def State.qcfg (s : State) (q : Nat) : Word := s.cfgAct 0x20 q
def State.qring (s : State) (q : Nat) : Word := s.cfgAct 0x21 q
def State.qcring (s : State) (q : Nat) : Word := s.cfgAct 0x22 q

/-- The active WCFG of a window (R373). -/
def State.wcfg (s : State) (w : Nat) : Word := s.cfgAct 0x28 w

/-- The active GATE_CFG (R379). -/
def State.gateCfg (s : State) : Word := s.cfgAct 0x30 0

/-- The aperture's physical base: the BLK_BASE strap (R492). -/
def State.blkBase (s : State) : Nat := s.boot.straps.blkBase.toNat * 2 ^ 24

/-- R32: the ACLK and PCLK count that a CCLK count lies in. -/
def aclkOf (cclk : Nat) : Nat := cclk / 2

/-! ## Byte stores with poison marks (R49, R336, R358) -/

/-- One byte; an address that nothing has written reads as 0 (DESIGN CHOICE, log entry 8). -/
def Store.byte (m : Store) (a : Nat) : Byte := m.bytes.get 0 a

/-- The poison mark of a 16-byte chunk. -/
def Store.mark (m : Store) (chunk : Nat) : Bool := m.poison.get false chunk

/-- The canonical form of a store: keys rising, nothing listed at its default. -/
def Store.wf (m : Store) : Bool := Tbl.wf 0 m.bytes && Tbl.wf false m.poison

/-- The canonical form of memory. -/
def HostMem.wf (m : HostMem) : Bool := m.store.wf && Tbl.wf false m.noTarget

/-- `n` bytes from `a`. -/
def Store.read (m : Store) (a n : Nat) : List Byte := (List.range n).map fun i => m.byte (a + i)

/-- The chunks that the `n` bytes from `a` touch. -/
def chunksOf (a n : Nat) : List Nat :=
  if n = 0 then [] else (List.range ((a + n - 1) / 16 - a / 16 + 1)).map (a / 16 + ·)

/-- Whether any byte of an access lies in a marked chunk (R48). -/
def Store.poisoned (m : Store) (a n : Nat) : Bool := (chunksOf a n).any m.mark

/-- One byte written, in the canonical form. -/
def Store.putByte (m : Store) (a : Nat) (b : Byte) : Store := { m with bytes := m.bytes.put 0 a b }

/-- One mark written, in the canonical form. -/
def Store.putMark (m : Store) (chunk : Nat) (b : Bool) : Store := { m with poison := m.poison.put false chunk b }

/-- Bytes written at ascending addresses. -/
def Store.putBytes (m : Store) (a : Nat) : List Byte → Store
  | [] => m
  | b :: bs => (m.putByte a b).putBytes (a + 1) bs

/-- Marks set to `b` at each chunk of a list. -/
def Store.putMarks (m : Store) (b : Bool) : List Nat → Store
  | [] => m
  | c :: cs => (m.putMark c b).putMarks b cs

/-- R49: the write of a data operand. A poisoned one marks every chunk it writes into; a clean one clears the mark of a
chunk it writes whole. -/
def Store.write (m : Store) (a : Nat) (bs : List Byte) (poison : Bool) : Store :=
  let m1 := m.putBytes a bs
  if poison then m1.putMarks true (chunksOf a bs.length)
  else m1.putMarks false ((chunksOf a bs.length).filter fun c => a ≤ 16 * c && 16 * c + 16 ≤ a + bs.length)

/-- R336, R375: one 16-byte chunk written under byte enables with its poison bit. -/
def Store.writeChunk (m : Store) (chunk : Nat) (data : List (Byte × Bool)) (poison : Bool) : Store :=
  let m1 := (data.zipIdx).foldl (fun m p => if p.1.2 then m.putByte (16 * chunk + p.2) p.1.1 else m) m
  if poison then m1.putMark chunk true
  else if data.length = 16 && data.all (·.2) then m1.putMark chunk false
  else m1

/-- R372: a line of window space, whose writes the host chip routes to a window port. -/
def windowSpace (line : Nat) : Bool := line / 2 ^ 35 % 4 = 3

/-- R319, R372: a read of the line is answered NOTARGET. -/
def HostMem.lost (m : HostMem) (line : Nat) : Bool := m.noTarget.get false line || windowSpace line

/-- The little-endian number of a list of bytes. -/
def leNat : List Byte → Nat
  | [] => 0
  | b :: bs => b.toNat + 256 * leNat bs

/-- The `n` low bytes of a number, little-endian. -/
def leBytes : (n : Nat) → (v : Nat) → List Byte
  | 0, _ => []
  | n + 1, v => BitVec.ofNat 8 v :: leBytes n (v / 256)

/-- A little-endian number read from a byte table (a command area, a Groom memory). -/
def Tbl.leAt (t : Tbl Byte) (a n : Nat) : Nat := leNat ((List.range n).map fun i => Tbl.get 0 t (a + i))

/-- A little-endian number written into a byte table. -/
def Tbl.putLe (t : Tbl Byte) (a n v : Nat) : Tbl Byte :=
  ((leBytes n v).zipIdx).foldl (fun t p => Tbl.put 0 t (a + p.2) p.1) t

/-! ## Performance counters (R511) -/

/-- Counter `n` advances by `k` while PMC_CTL.EN is 1. -/
def State.pmcAdd (s : State) (n k : Nat) : State :=
  if s.pmc.en then { s with pmc := { s.pmc with cnt := s.pmc.cnt.set n (s.pmc.cnt.get 0 n + BitVec.ofNat 64 k) } } else s

/-! ## Groom interrupt pends (R401) -/

/-- Source `n` becomes pending. -/
def State.pendGroom (s : State) (n : Nat) : State :=
  { s with groom := { s.groom with ipend := s.groom.ipend.putBit n true } }

/-- R408: a machine check is raised. -/
def State.raiseMachineCheck (s : State) : State :=
  (s.pendGroom 33)

/-! ## Events and alerts (R258, R259, R262, R265) -/

/-- R265: a trigger of decide(). -/
def State.trigger (s : State) : State := { s with core := { s.core with decideDue := true } }

/-- R259, R265 on_event: kind `k` is raised for context `c`. -/
def State.raiseEvent (s : State) (c k : Nat) : State :=
  let e := s.ctx c
  if e.started then
    let e1 := { e with pend := e.pend ||| (1 <<< k : BitVec 8) }
    let en : BitVec 8 := BitVec.ofNat 8 (e.evmask.bits 6 0)
    let e2 := if e1.mode = .waiting ∧ (e1.pend &&& en) ≠ 0 then { e1 with mode := .ready } else e1
    (s.setCtx c e2).trigger
  else s

/-- R262: bit `b` of the alert register becomes 1; a 1 in bits [3:0] raises ALERT. -/
def State.raiseAlert (s : State) (c b : Nat) : State :=
  if (s.ctx c).started then (s.modCtx c fun e => { e with alert := e.alert.putBit b true }).raiseEvent c 6 else s

/-- The numbers of the started contexts. -/
def State.startedCtxs (s : State) : List Nat := (s.core.ctxs.filter fun p => p.2.started).map (·.1)

/-- alert.PWR is set for every started context (R502, R504). -/
def State.alertAll (s : State) (b : Nat) : State := s.startedCtxs.foldl (fun s c => s.raiseAlert c b) s

/-! ## Error records (R456 to R460) -/

/-- A record with the given code, source, outcome and context, every other field 0. -/
def ErrRec.mk0 (code src outcome : Nat) (ctx : Option Nat) : ErrRec :=
  { seq := 0, src := BitVec.ofNat 8 src, outcome := BitVec.ofNat 8 outcome, rflags := 0, code := BitVec.ofNat 16 code,
    ctx := BitVec.ofNat 16 (ctx.getD 0xFFFF), unit := 0, cause2 := 0, gstamp := 0, addr := 0, info := 0, imgcrc := 0,
    runix := 0, tau := 0, items := 0 }

/-- R458: ECC_CE or ECC_UE at a place of an array. -/
def ErrRec.ecc (e : Ecc) (code src outcome : Nat) (ctx : Option Nat) : ErrRec :=
  { ErrRec.mk0 code src outcome ctx with unit := e.unit, addr := e.addr, info := e.syndrome.zeroExtend 64 }

/-- R456, R459, R460: a record is detected. It takes the next number and the time; with 16 records held it is discarded,
counted, and raises a machine check. A record that names a context sets its alert.ERR. -/
def State.record (s : State) (r : ErrRec) : State :=
  let r1 := { r with seq := s.ras.nextSeq, gstamp := s.gcount }
  let s1 : State :=
    if s.ras.fifo.length < 16 then
      { s with ras := { s.ras with fifo := s.ras.fifo ++ [r1], nextSeq := s.ras.nextSeq + 1 } }
    else
      State.raiseMachineCheck
        { s with ras := { s.ras with nextSeq := s.ras.nextSeq + 1, ovf := true,
                                     lost := if s.ras.lost = 0xFFFFFFFF then s.ras.lost else s.ras.lost + 1 } }
  if r.ctx = 0xFFFF then s1 else s1.raiseAlert r.ctx.toNat 1

/-- R451: the registers `rs` of stall `k` are read: an error in one that no read has met writes its record. -/
def State.meetUpset (s : State) (k : Nat) (rs : List Nat) : State :=
  ((s.stall k).upset.filter fun p => rs.contains p.1).foldl (fun s p =>
    (s.modStall k fun t => { t with upset := t.upset.del p.1 }).record (.ecc p.2 0x102 4 1 (s.resident k))) s

/-- Whether the instruction group belongs to the tile unit's format T (R63). -/
def isTile (w : Half) : Bool := 0x60 ≤ (w >>> 25).toNat && (w >>> 25).toNat ≤ 0x7E

end Sys2Proof.Machine
end

