-- ==== Sys2Proof/Machine/Cache.lean ====
section
/-! DEFINITION. The core's caches as tags, dirty bits and ages (R311 to R316). A line's data is held once, in memory, since
cache contents never change a value (R313). -/

namespace Sys2Proof.Machine

/-- R311: ways and sets of a cache. -/
def cacheWays : CacheId → Nat
  | .l1i => 4 | .l1d => 8 | .l2 => 16

def cacheSets : CacheId → Nat
  | .l1i => 128 | .l1d => 64 | .l2 => 2048

/-- R325: the place of a cache's field in the way-disable map. -/
def cacheField : CacheId → Nat
  | .l1i => 0 | .l1d => 4 | .l2 => 12

/-- R324: how many ways of a cache can be disabled. -/
def cacheLimit : CacheId → Nat
  | .l1i => 2 | .l1d => 4 | .l2 => 8

/-- The tags of a cache. -/
def Caches.tags (c : Caches) : CacheId → Tbl CLine
  | .l1i => c.l1i | .l1d => c.l1d | .l2 => c.l2

/-- The caches with the tags of one of them replaced. -/
def Caches.setTags (c : Caches) (k : CacheId) (t : Tbl CLine) : Caches :=
  match k with
  | .l1i => { c with l1i := t } | .l1d => { c with l1d := t } | .l2 => { c with l2 := t }

/-- Whether a way is disabled (R325). -/
def Caches.wayOff (c : Caches) (k : CacheId) (w : Nat) : Bool := c.off.getLsbD (cacheField k + w)

/-- How many ways of a cache are disabled. -/
def Caches.waysOff (c : Caches) (k : CacheId) : Nat :=
  ((List.range (cacheWays k)).filter fun w => c.wayOff k w).length

/-- No line: the reading of an invalid way. -/
def CLine.invalid : CLine := { line := 2 ^ 60, dirty := false, age := 0 }

/-- The table keys of the ways of a line's set that are not disabled, lowest first. -/
def Caches.setKeys (c : Caches) (k : CacheId) (line : Nat) : List Nat :=
  ((List.range (cacheWays k)).filter fun w => !c.wayOff k w).map ((line % cacheSets k) * 16 + ·)

/-- The key of the way that holds a line. -/
def Caches.hit (c : Caches) (k : CacheId) (line : Nat) : Option Nat :=
  (c.setKeys k line).find? fun j => (Tbl.get CLine.invalid (c.tags k) j).line = line

/-- R315: one pass of the victim search ages every enabled way of the set. -/
def agePass (t : Tbl CLine) (keys : List Nat) : Tbl CLine :=
  keys.foldl (fun t j => let e := Tbl.get CLine.invalid t j; t.set j { e with age := e.age + 1 }) t

/-- R315: the victim way within at most three passes, with the tags as the search leaves them. -/
def findVictim (keys : List Nat) : (n : Nat) → Tbl CLine → Option Nat × Tbl CLine
  | 0, t => (keys.find? fun j => (Tbl.get CLine.invalid t j).age ≥ 3, t)
  | n + 1, t =>
    match keys.find? fun j => (Tbl.get CLine.invalid t j).age ≥ 3 with
    | some j => (some j, t)
    | none => findVictim keys n (agePass t keys)

/-- R315: the way that a fill uses: the lowest-numbered invalid one, else the victim. -/
def Caches.victim (c : Caches) (k : CacheId) (line : Nat) : Option Nat × Tbl CLine :=
  let keys := c.setKeys k line
  match keys.find? fun j => (Tbl.get CLine.invalid (c.tags k) j).line = CLine.invalid.line with
  | some j => (some j, c.tags k)
  | none => findVictim keys 3 (c.tags k)

/-- R312: the copies of a line in the first-level caches are invalidated. -/
def Caches.dropL1 (c : Caches) (line : Nat) : Caches :=
  { c with l1i := c.l1i.filter fun e => e.2.line ≠ line, l1d := c.l1d.filter fun e => e.2.line ≠ line }

/-- A line put into the way that R315 chooses. The line it displaces leaves the first-level caches when the L2 evicts it,
and marks its L2 copy dirty when a dirty one leaves the L1D (R312). -/
def Caches.fill (c : Caches) (k : CacheId) (line age : Nat) (dirty : Bool) : Caches :=
  match c.victim k line with
  | (none, _) => c
  | (some j, t) =>
    let old := Tbl.get CLine.invalid t j
    let c1 := c.setTags k (t.set j { line := line, dirty := dirty, age := age })
    match k with
    | .l2 => c1.dropL1 old.line
    | .l1d =>
      if old.dirty then
        match c1.hit .l2 old.line with
        | some j2 =>
          let e := Tbl.get CLine.invalid c1.l2 j2
          { c1 with l2 := c1.l2.set j2 { e with dirty := true } }
        | none => c1
      else c1
    | .l1i => c1

/-- A hit sets the age to 0 (R315); a write marks the line dirty. -/
def Caches.touch (c : Caches) (k : CacheId) (j : Nat) (write : Bool) : Caches :=
  let e := Tbl.get CLine.invalid (c.tags k) j
  c.setTags k ((c.tags k).set j { e with age := 0, dirty := e.dirty || write })

/-- An access to the L2: whether it hit, and the caches after it. A miss fills the line, at age 3 for a streaming fill (R316). -/
def Caches.l2Access (c : Caches) (line : Nat) (st : Bool) : Bool × Caches :=
  match c.hit .l2 line with
  | some j => (true, c.touch .l2 j false)
  | none => (false, c.fill .l2 line (if st then 3 else 1) false)

/-- An access through a first-level cache: whether a memory access port was needed. -/
def Caches.l1Access (c : Caches) (k : CacheId) (line : Nat) (write st : Bool) : Bool × Caches :=
  match c.hit k line with
  | some j => (false, c.touch k j write)
  | none =>
    let (h, c1) := c.l2Access line st
    (!h, c1.fill k line (if st then 3 else 1) write)

/-- R320: whether any cache of the block holds the line dirty. -/
def Caches.dirtyLine (c : Caches) (line : Nat) : Bool :=
  (c.l1d.any fun e => e.2.line = line && e.2.dirty) || (c.l2.any fun e => e.2.line = line && e.2.dirty)

/-- The 128-byte lines of a physical range. -/
def linesOf (pa n : Nat) : List Nat := (List.range ((pa + n - 1) / 128 - pa / 128 + 1)).map (pa / 128 + ·)

/-- R314: lines that follow one another, grouped by their aligned 256-byte block of two. -/
def byBlock : List Nat → List (List Nat)
  | [] => []
  | [l] => [[l]]
  | l :: k :: ls => if l / 2 = k / 2 then [l, k] :: byBlock ls else [l] :: byBlock (k :: ls)

/-- R319, R509: where the requests for `n` bytes at `a` are answered NOTARGET: the first such line of each block. One response
applies to every line of a request. -/
def lostRequests (lost : Nat → Bool) (a n : Nat) : List Nat :=
  if n = 0 then [] else (byBlock ((linesOf a n).filter lost)).map fun ls => max a (128 * ls.headD 0)

/-- R314, R509: a request for lines of one block on its memory access port: 0 read, 1 write, 2 write-back. Requests carry tag
0 (DESIGN CHOICE, log entry 99). -/
def State.maLines (s : State) (op : Nat) (lines : List Nat) (wdata : List (Nat × Byte)) (wpoison : List Nat) : State :=
  match lines with
  | [] => s
  | l :: _ =>
    let r : MemReq :=
      { op := op, block := l / 2, lmask := lines.foldl (fun m l => m ||| BitVec.ofNat 2 (2 ^ (l % 2))) 0, tag := 0,
        wdata := wdata, wpoison := wpoison }
    { s with ports := { s.ports with ma := s.ports.ma.set (l / 2 % 8) r } }

/-- A request of one line: a scalar refill or write-back (R314). -/
def State.maRequest (s : State) (op line : Nat) (wdata : List (Nat × Byte)) (wpoison : List Nat) : State :=
  s.maLines op [line] wdata wpoison

/-- R312, R314: the requests of a read of lines by a unit that does not allocate them: a block's lines that the L2 does not
hold. -/
def State.readRequests (s : State) (lines : List Nat) : State :=
  (byBlock lines).foldl (fun s ls => s.maLines 0 (ls.filter fun l => (s.caches.hit .l2 l).isNone) [] []) s

/-- The bytes of a line and the poison marks of its chunks. -/
def Store.line (m : Store) (line : Nat) : List Byte × List Bool :=
  (m.read (128 * line) 128, (List.range 8).map fun i => m.mark (8 * line + i))

/-- R509: the write-back of a line: its bytes, and the chunks that are poisoned. -/
def State.writeBack (s : State) (line : Nat) : State :=
  let o := line % 2
  s.maRequest 2 line (((s.mem.store.line line).1.zipIdx).map fun p => (128 * o + p.2, p.1))
    (((s.mem.store.line line).2.zipIdx.filter (·.1)).map fun p => 8 * o + p.2)

/-- The caches become `c`: what memory holds of a line that becomes dirty is kept, and a line that is dirty no more is
written back (R312, R491). -/
def State.putCaches (s : State) (c : Caches) (dirtied : Option Nat) : State :=
  let kept := match dirtied with
    | some line => if s.caches.dirtyLine line then s.caches.stale else s.caches.stale.set line (s.mem.store.line line)
    | none => s.caches.stale
  let out := (kept.filter fun e => !c.dirtyLine e.1).map (·.1)
  out.foldl State.writeBack { s with caches := { c with stale := kept.filter fun e => c.dirtyLine e.1 } }

/-- A scalar access or a fetch of one line, with the count of L2 misses (R511); answers whether a port was used. -/
def State.cacheAccess (s : State) (k : CacheId) (line : Nat) (write st : Bool) : Bool × State :=
  let (p, c) := s.caches.l1Access k line write st
  let s1 := s.putCaches c (if write then some line else none)
  (p, if p then (s1.maRequest 0 line [] []).pmcAdd 7 1 else s1)

/-- A tile VADDR read of one line in the L2: a hit, or a streaming fill, which is a miss (R312, R316, R511). A line that is
answered NOTARGET is not cached (R319). Answers whether a memory access port is needed. -/
def State.tileLineRead (s : State) (line : Nat) : Bool × State :=
  if s.mem.lost line then (true, s.pmcAdd 7 1)
  else
    let (h, c) := s.caches.l2Access line true
    let s1 := s.putCaches c none
    if h then (false, s1) else (true, s1.pmcAdd 7 1)

/-- R314: a tile VADDR read of the lines of one block: one request moves those that are needed from the port. -/
def State.tileBlockRead (s : State) (ls : List Nat) : State :=
  let r := ls.foldl (fun (r : List Nat × State) l =>
    let (need, s1) := r.2.tileLineRead l
    (if need then r.1 ++ [l] else r.1, s1)) ([], s)
  r.2.maLines 0 r.1 [] []

/-- R312: a write of one line by a unit other than the core updates the copy of a cache that holds the line dirty, and goes
to the port of the line otherwise, which answers it (R319). -/
def State.unitRequest (s : State) (line o : Nat) (bs : List Byte) (poison : Bool) : State :=
  if s.caches.dirtyLine line then s
  else s.maRequest 1 line ((bs.zipIdx).map fun p => (128 * (line % 2) + o + p.2, p.1))
    (if poison then (chunksOf (128 * (line % 2) + o) bs.length) else [])

/-- R320: the line leaves every cache. -/
def Caches.removeLine (c : Caches) (line : Nat) : Caches :=
  { c.dropL1 line with l2 := c.l2.filter fun e => e.2.line ≠ line, stale := c.stale.del line }

/-- R320: the line stays cached and clean. -/
def Caches.cleanLine (c : Caches) (line : Nat) : Caches :=
  let f : Nat → CLine → CLine := fun _ e => if e.line = line then { e with dirty := false } else e
  { c with l1d := c.l1d.mapVals f, l2 := c.l2.mapVals f, stale := c.stale.del line }

end Sys2Proof.Machine
end

