-- ==== Sys2Proof/Machine/Translate.lean ====
section
/-! DEFINITION. The instruction monad; address translation, rights and attributes (R284 to R310); and the physical accesses
of a scalar load, store or fetch to memory and buffer memory (R74 to R77, R319). -/

namespace Sys2Proof.Machine

/-- Why an instruction does not complete. -/
inductive Abort where
  /-- It takes the synchronous trap of a cause code, with the operand reported (0 none, 1 d, 2 a, 3 b, 4 shape, 5 left,
  6 right), its tag and tval (R58, R86). -/
  | trap (code opfield : Nat) (optag : Tag) (tval : Word)
  /-- It waits at issue; the last three name what a BUFWAIT of this wait would report (R342, R343). -/
  | wait (why : WaitWhy) (opfield : Nat) (optag : Tag) (tval : Word)
  /-- The fetch met a poisoned chunk or NOTARGET: the context stops (R319). `port`: a port delivered it. -/
  | fetchError (port : Bool)
  /-- TRET cannot read its frame (R91, R92). -/
  | frameFault
  deriving DecidableEq, Repr

/-- What an instruction does: a result or an abort, over State. -/
abbrev M := EStateM Abort State

/-- A trap that names no operand. -/
def trapM {α : Type} (code : Nat) (tval : Word) : M α := throw (.trap code 0 .none tval)

/-! ## The attribute map (R307, R308) -/

/-- The entry of the attribute map that types an address: its index. -/
def State.attrEntry (s : State) (pa : Nat) : Option Nat :=
  (List.range 16).find? fun i =>
    let w0 := s.cfgAct 0x10 i
    let w1 := s.cfgAct 0x11 i
    w0.bit 0 && decide (w0.bits 51 16 ≤ pa / 65536) && decide (pa / 65536 ≤ w1.bits 51 16)

/-- R308: the type of a physical address: 0 NONE, 1 MEMORY, 2 BUFFER, 3 DEVICE. -/
def State.attr (s : State) (pa : Nat) : Nat :=
  if pa / 2 ^ 24 = s.boot.straps.blkBase.toNat then 3
  else match s.attrEntry pa with
    | some i => (s.cfgAct 0x10 i).bits 2 1
    | none => 0

/-- R333: the buffer offset of a scalar access to a BUFFER address. -/
def State.bufOffset (s : State) (pa : Nat) : Nat :=
  match s.attrEntry pa with
  | some i => pa - (s.cfgAct 0x10 i).bits 51 16 * 65536
  | none => 0

/-! ## The walk (R287 to R292) -/

/-- What a walk answers: a leaf, or a fault's code with the level and the physical address of the entry. -/
inductive WalkRes where
  | leaf (e : TlbEntry)
  | fault (code level addr : Nat)
  deriving DecidableEq, Repr

/-- The two words of the table entry at `a`. -/
def State.pte (s : State) (a : Nat) : Word × Word :=
  (Word.ofNat (leNat (s.mem.store.read a 8)), Word.ofNat (leNat (s.mem.store.read (a + 8) 8)))

/-- R288 to R290: whether a leaf at level `L` keeps the rules of its fields. -/
def leafOk (w0 w1 : Word) (L : Nat) : Bool :=
  let sz := w0.bits 7 2
  decide (12 + 9 * L ≤ sz) && decide (sz ≤ (if L = 4 then 56 else 20 + 9 * L)) &&
  w0.bits 15 14 == 0 && w0.bits 63 22 == 0 && w1.bits 11 0 == 0 && w1.bits 63 52 == 0 &&
  (w1.bits 51 12 * 4096) % 2 ^ (min sz 52) == 0

/-- R288: whether a table pointer keeps the rules of its fields. -/
def pointerOk (w0 w1 : Word) : Bool :=
  w0 == 1 && w1.bits 11 0 == 0 && w1.bits 63 52 == 0 && w1.bits 12 12 == 0

/-- The TLB entry of a leaf that the walk of `va` returns (R297). -/
def TlbEntry.ofLeaf (w0 w1 : Word) (L va : Nat) (asid : BitVec 16) : TlbEntry :=
  { base := va / 2 ^ w0.bits 7 2 * 2 ^ w0.bits 7 2, size := w0.bits 7 2, asid := asid, global := w0.bit 12, level := L,
    oa := w1.bits 51 12 * 4096, rd := w0.bit 8, wr := w0.bit 9, ex := w0.bit 10, svc := w0.bit 11,
    key := w0.bits 21 16, st := w0.bit 13, ty := 0 }

/-- R291: the walk from the table at `t`; the argument counts the levels left below the present one. -/
def State.walkFrom (s : State) (va : Nat) (asid : BitVec 16) : (L : Nat) → (t : Nat) → WalkRes
  | L, t =>
    let a := t + 16 * (va / 2 ^ (12 + 9 * L) % 512)
    if s.attr a ≠ 1 then .fault 0x25 L a
    else if s.mem.store.mark (a / 16) || s.mem.lost (a / 128) then .fault 0x26 L a
    else
      let w0 := (s.pte a).1
      let w1 := (s.pte a).2
      if !w0.bit 0 then .fault 0x21 L a
      else if w0.bit 1 then
        if leafOk w0 w1 L then .leaf (TlbEntry.ofLeaf w0 w1 L va asid) else .fault 0x22 L a
      else
        match L with
        | 0 => .fault 0x22 0 a
        | L' + 1 => if pointerOk w0 w1 then s.walkFrom va asid L' (w1.bits 51 13 * 8192) else .fault 0x22 (L' + 1) a

/-- R284: the non-leaf entries that the walk of `va` reads, the root's first. -/
def State.walkPath (s : State) (va : Nat) (asid : BitVec 16) : (L : Nat) → (t : Nat) → List WalkEntry
  | 0, _ => []
  | L + 1, t =>
    let w := s.pte (t + 16 * (va / 2 ^ (12 + 9 * (L + 1)) % 512))
    if w.1.bit 1 then []
    else { asid := asid, level := L + 1, va := va / 2 ^ (12 + 9 * (L + 1)), table := w.2.bits 51 13 * 8192 } ::
      s.walkPath va asid L (w.2.bits 51 13 * 8192)

/-! ## TLBs (R296 to R298) -/

/-- A translation context: the in-use ASID and root, the key rights and the mode. -/
structure XCtx where
  asid : BitVec 16
  root : Nat
  keyrl : Word
  keyrh : Word
  sys : Bool
  deriving DecidableEq, Repr

/-- The translation context of a stall's contents. Between an SWR of asid or ptbase and the next SSYNC or dispatch, when each
access may use the old or the new value (R57, R301), it is the old one (DESIGN CHOICE, log entry 103). -/
def Stall.xctx (t : Stall) : XCtx :=
  { asid := t.useAsid, root := t.useRoot, keyrl := t.keyrl, keyrh := t.keyrh, sys := t.sysMode }

/-- R297: the entries that match an access, in order of entry number. -/
def Tlb.matches (t : Tlb) (va : Nat) (asid : BitVec 16) : List TlbEntry :=
  (t.entries.filter fun p => va / 2 ^ p.2.size * 2 ^ p.2.size = p.2.base && (p.2.global || p.2.asid = asid)).map (·.2)

/-- R298: the 16-bit Galois LFSR with feedback mask 0xB400. -/
def lfsrNext (x : BitVec 16) : BitVec 16 := if x.getLsbD 0 then (x >>> 1) ^^^ 0xB400 else x >>> 1

/-- R298: one fill of a TLB of `n` entries. -/
def Tlb.fill (t : Tlb) (n : Nat) (e : TlbEntry) : Tlb :=
  let i := (firstFrom (fun i => !(t.entries.any fun p => p.1 = i)) 0 n).getD (t.lfsr.toNat % n)
  { t with entries := t.entries.set i e, lfsr := lfsrNext t.lfsr }

/-- R284, R296: a walk leaves its non-leaf entries in the walk cache of its walker, which holds the 32 newest and which no
translation reads, so that it has no effect on results (DESIGN CHOICE, log entry 14). -/
def Tlb.keepWalk (t : Tlb) (ws : List WalkEntry) : Tlb :=
  { t with walk := (ws.reverse ++ t.walk.filter fun e => !(ws.any fun w => w.asid = e.asid && w.level = e.level && w.va = e.va)).take 32 }

/-- The access kinds of R295. -/
abbrev Kind := Nat

/-- R295: tval of a translation fault. -/
def xlateTval (va : Word) (level : Nat) (kind : Kind) (tile : Bool) : Word :=
  Word.ofNat (va.bits 56 0 + level * 2 ^ 57 + kind * 2 ^ 60 + tile.toNat * 2 ^ 62)

/-- R299: the two rights bits of a key. -/
def XCtx.rights (x : XCtx) (key : Nat) : Nat :=
  if key < 32 then x.keyrl.bits (2 * key + 1) (2 * key) else x.keyrh.bits (2 * (key - 32) + 1) (2 * (key - 32))

/-- R290: the physical address through an entry. -/
def TlbEntry.pa (e : TlbEntry) (va : Nat) : Nat := e.oa + va % 2 ^ (min e.size 52)

/-- The NOTARGET record of an access (R319). -/
def State.noTargetRecord (s : State) (pa : Nat) (c : Option Nat) : State :=
  s.record { ErrRec.mk0 0x106 9 1 c with unit := BitVec.ofNat 16 (pa / 256 % 8), addr := Word.ofNat pa }

/-- The WALK_ERROR record (R291, R458) and the NOTARGET record of the port (R319), in order of SRC (R459). -/
def State.walkErrorRecord (s : State) (a level : Nat) (tile : Bool) (c : Option Nat) : State :=
  let s1 := s.record { ErrRec.mk0 0x26 5 4 c with
    unit := BitVec.ofNat 16 tile.toNat, addr := Word.ofNat a, info := Word.ofNat level }
  if s.mem.lost (a / 128) then s1.noTargetRecord a c else s1

/-- The entry that translates `va`: a match in the TLB, else the leaf of a walk, which fills the TLB (R291, R297). When
several entries match, which one is used is a free choice. -/
def lookup (x : XCtx) (kind : Kind) (tile : Bool) (va : Word) (c : Option Nat) : M TlbEntry := do
  let s ← get
  let v := va.bits 56 0
  let t := if tile then s.core.ttlb else s.core.tlb
  match t.matches v x.asid with
  | [e] => pure e
  | e :: es =>
    set { s with free := s.free + 1 }
    pure ((e :: es).getD (Config.tlbChoice s.free % (es.length + 1)) e)
  | [] =>
    match s.walkFrom v x.asid 4 (x.root * 8192) with
    | .fault code level a => do
      if code = 0x26 then set (s.walkErrorRecord a level tile c)
      trapM code (xlateTval va level kind tile)
    | .leaf e => do
      let e1 := { e with ty := s.attr (e.pa v) }
      let ws := s.walkPath v x.asid 4 (x.root * 8192)
      set (if tile then { s with core := { s.core with ttlb := (s.core.ttlb.fill 128 e1).keepWalk ws } }
           else { s with core := { s.core with tlb := (s.core.tlb.fill 512 e1).keepWalk ws } })
      pure e1

/-- R293: an access is translated and checked, in the order given. Answers the entry and the physical address. -/
def translate (x : XCtx) (kind : Kind) (tile : Bool) (va : Word) (c : Option Nat) : M (TlbEntry × Nat) := do
  if va.bits 63 57 ≠ 0 then trapM 0x20 (xlateTval va 7 kind tile)
  let e ← lookup x kind tile va c
  if !x.sys && !e.svc then trapM 0x23 (xlateTval va e.level kind tile)
  if (kind = 0 && !e.ex) || (kind = 1 && !e.rd) || (kind = 2 && !e.wr) then trapM 0x23 (xlateTval va e.level kind tile)
  let r := x.rights e.key
  if kind ≠ 0 && (decide (r ≥ 2) || (decide (r = 1) && decide (kind = 2))) then trapM 0x24 (xlateTval va e.level kind tile)
  let pa := e.pa (va.bits 56 0)
  let ty := (← get).attr pa
  if ty = 0 || ((decide (kind = 0) || tile) && decide (ty ≠ 1)) then trapM 0x27 (xlateTval va e.level kind tile)
  pure (e, pa)

/-- The translation context of the executing stall. The accesses of the reserve stall obey R293 in system mode (R310). -/
def State.xctx (s : State) : XCtx :=
  { s.cur.xctx with sys := s.cur.sysMode || decide (s.core.disp = .reserve) }

/-- `translate` for the executing stall. -/
def translateCur (kind : Kind) (tile : Bool) (va : Word) : M (TlbEntry × Nat) := do
  let s ← get
  translate s.xctx kind tile va s.curCtx

/-! ## Physical accesses -/

/-- Data that an access delivers: its bytes, the poisoned chunks (by address) that a port delivered, the SRC and UNIT of
the port that delivers the first of them (R459), and whether any byte is poisoned. -/
structure Got where
  bytes : List Byte
  portChunks : List Nat
  port : Nat × Nat
  poison : Bool
  deriving DecidableEq, Repr

/-- A core access of a line that its port answers NOTARGET, which is not cached: the request and the record (R319, R511). -/
def State.lostAccess (s : State) (pa : Nat) (c : Option Nat) : State :=
  ((s.maRequest 0 (pa / 128) [] []).pmcAdd 7 1).noTargetRecord pa c

/-- A read of bytes within one line of MEMORY (R319). -/
def State.memRead (s : State) (k : CacheId) (pa n : Nat) (st : Bool) (c : Option Nat) : Got × State :=
  if s.mem.lost (pa / 128) then
    ({ bytes := List.replicate n 0, portChunks := [], port := (9, pa / 256 % 8), poison := true }, s.lostAccess pa c)
  else
    let (port, s1) := s.cacheAccess k (pa / 128) false st
    let bad := (chunksOf pa n).filter s.mem.store.mark
    ({ bytes := s.mem.store.read pa n, portChunks := if port then bad.map (16 * ·) else [], port := (9, pa / 256 % 8),
       poison := bad ≠ [] }, s1)

/-- A write of bytes within one line of MEMORY (R49, R319). -/
def State.memWrite (s : State) (pa : Nat) (bs : List Byte) (poison st : Bool) (c : Option Nat) : State :=
  if s.mem.lost (pa / 128) then s.lostAccess pa c
  else
    let (_, s1) := s.cacheAccess .l1d (pa / 128) true st
    { s1 with mem := { s1.mem with store := s1.mem.store.write pa bs poison } }

/-- A read of buffer memory through read port 0 (R333, R337): beyond the buffer size the beat fails (R338). -/
def State.bufRead (s : State) (off n : Nat) (c : Option Nat) : Got × State :=
  if s.buf.size < off + n then
    ({ bytes := List.replicate n 0, portChunks := [], port := (0xA, 0), poison := true },
     s.record { ErrRec.mk0 0x107 0xA 1 c with addr := Word.ofNat off })
  else
    let bad := (chunksOf off n).filter s.buf.store.mark
    ({ bytes := s.buf.store.read off n, portChunks := bad.map (16 * ·), port := (0xA, 0), poison := bad ≠ [] }, s)

/-- A write of buffer memory through a write port (R336); beyond the buffer size it is answered with AERR, and the chunks that
it enabled and that buffer memory has are marked poisoned (R338). -/
def State.bufWrite (s : State) (port off : Nat) (bs : List Byte) (poison : Bool) (c : Option Nat) : State :=
  if s.buf.size < off + bs.length then
    let bad := (chunksOf off bs.length).filter fun k => decide (16 * k < s.buf.size)
    State.record { s with buf := { s.buf with store := s.buf.store.putMarks true bad } }
      { ErrRec.mk0 0x108 0xA 1 c with unit := BitVec.ofNat 16 port, addr := Word.ofNat off }
  else { s with buf := { s.buf with store := s.buf.store.write off bs poison } }

/-- R459: the POISON_IN record of an operation that received poisoned chunks from a port. -/
def State.poisonIn (s : State) (src unit : Nat) (chunks : List Nat) (c : Option Nat) : State :=
  match chunks with
  | [] => s
  | a :: _ => s.record { ErrRec.mk0 0x105 src 1 c with
      unit := BitVec.ofNat 16 unit, addr := Word.ofNat a, info := Word.ofNat chunks.length }

/-- R76: the parts of an access: one, or a lower and an upper half where it crosses a 128-byte line: offset and length. -/
def splitParts (va : Word) (n : Nat) : List (Nat × Nat) :=
  let k := 128 - va.toNat % 128
  if k < n then [(0, k), (k, n - k)] else [(0, n)]

/-- The parts of an access, translated and checked, lower half first (R76). -/
def translateParts (kind : Kind) (va : Word) : List (Nat × Nat) → M (List (TlbEntry × Nat × Nat))
  | [] => pure []
  | (o, n) :: rest => do
    let (e, pa) ← translateCur kind false (va + Word.ofNat o)
    let r ← translateParts kind va rest
    pure ((e, pa, n) :: r)

/-- The bytes of the parts of a load of memory or buffer memory. -/
def readParts (c : Option Nat) : List (TlbEntry × Nat × Nat) → State → Got × State
  | [], s => ({ bytes := [], portChunks := [], port := (9, 0), poison := false }, s)
  | (e, pa, n) :: rest, s =>
    let (g, s1) := if s.attr pa = 2 then s.bufRead (s.bufOffset pa) n c else s.memRead .l1d pa n e.st c
    let (g2, s2) := readParts c rest s1
    ({ bytes := g.bytes ++ g2.bytes, portChunks := g.portChunks ++ g2.portChunks,
       port := if g.portChunks = [] then g2.port else g.port, poison := g.poison || g2.poison }, s2)

/-- The writes of the parts of a store to memory or buffer memory. -/
def writeParts (c : Option Nat) (poison : Bool) : List (TlbEntry × Nat × Nat) → List Byte → State → State
  | [], _, s => s
  | (e, pa, n) :: rest, bs, s =>
    let s1 := if s.attr pa = 2 then s.bufWrite 0 (s.bufOffset pa) (bs.take n) poison c
              else s.memWrite pa (bs.take n) poison e.st c
    writeParts c poison rest (bs.drop n) s1

/-- Whether any part of an access lies in a device region. -/
def State.anyDevice (s : State) (ps : List (TlbEntry × Nat × Nat)) : Bool := ps.any fun p => s.attr p.2.1 = 3

/-- The fetch of the word at the executing stall's pc: R293 for a fetch, then R319. -/
def fetchCheck : M Unit := do
  let s ← get
  let (e, pa) ← translateCur 0 false s.cur.pc
  let s ← get
  let _ := e
  let (g, s1) := s.memRead .l1i pa 4 false s.curCtx
  set (s1.poisonIn 9 (pa / 256 % 8) g.portChunks s.curCtx)
  if g.poison then throw (.fetchError (g.portChunks ≠ [] || s1.mem.lost (pa / 128)))

end Sys2Proof.Machine
end

