-- ==== Sys2Proof/Machine/Buffer.lean ====
section
/-! DEFINITION. The range scoreboard and the range-check port (R339, R340), the declared ranges of contexts and runs (R341
to R345), the BADDR check (R334), and the completion of stream descriptors (R351, R355, R356). -/

namespace Sys2Proof.Machine

/-! ## The scoreboard (R339) -/

/-- The part of a segment inside an interval. -/
def Seg.inside (lo hi : Nat) (g : Seg) : Option Seg :=
  if max g.lo lo < min g.hi hi then some { g with lo := max g.lo lo, hi := min g.hi hi } else none

/-- The listed segments of an interval, with the unlisted bytes between them as EMPTY ones. -/
def fillGaps (hi : Nat) : (at' : Nat) → List Seg → List Seg
  | a, [] => if a < hi then [⟨a, hi, .empty⟩] else []
  | a, g :: gs => if a < g.lo then ⟨a, g.lo, .empty⟩ :: g :: fillGaps hi g.hi gs else g :: fillGaps hi g.hi gs

/-- The states of the bytes of an interval, as segments. -/
def segsOf (sb : List Seg) (lo hi : Nat) : List Seg := fillGaps hi lo (sb.filterMap (Seg.inside lo hi))

/-- R339: an operation applied to every byte of an interval as one step. -/
def sbUpdate (sb : List Seg) (lo hi : Nat) (f : SbState → SbState) : List Seg :=
  (sb.filterMap (Seg.inside 0 lo)) ++
  ((segsOf sb lo hi).map fun g => { g with st := f g.st }).filter (fun g => g.st ≠ .empty) ++
  (sb.filterMap (Seg.inside hi (2 ^ 40)))

/-- R339: the condition of ACQ_R and of ACQ_W. -/
def sbGrantable (sb : List Seg) (lo hi : Nat) (write : Bool) : Bool :=
  (segsOf sb lo hi).all fun g =>
    if write then !g.st.filled && g.st.readers = 0 && !g.st.writer else g.st.filled && !g.st.writer

/-- R339: the effect of a granted acquire. -/
def SbState.acquired (write : Bool) (t : SbState) : SbState :=
  if write then { t with writer := true } else { t with readers := t.readers + 1 }

/-- R339: REL_R, or REL_RC with `consume`; a byte whose last reader goes with the mark set becomes EMPTY. -/
def SbState.relRead (consume : Bool) (t : SbState) : SbState :=
  let t1 := { t with readers := t.readers - 1, consume := t.consume || consume }
  if t1.readers = 0 && t1.consume then { t1 with filled := false, consume := false } else t1

/-- R339: REL_W and REL_WP. -/
def SbState.relWrite (t : SbState) : SbState := { t with writer := false, filled := true }

/-- A plain acquire of the scoreboard: whether it was granted, and the buffer after it. -/
def Buffer.tryAcquire (b : Buffer) (lo hi : Nat) (write : Bool) : Bool × Buffer :=
  if sbGrantable b.sb lo hi write then (true, { b with sb := sbUpdate b.sb lo hi (SbState.acquired write) })
  else (false, b)

/-- A tag that no pending acquire carries (R340): the lowest (DESIGN CHOICE, log entry 21). -/
def Buffer.freshTag (b : Buffer) : Nat := (firstFrom (fun t => !(b.pend.any fun a => a.tag = t)) 0 65536).getD 0

/-- R340: an acquire of the block: GRANT, or PEND with the tag of the request. -/
def Buffer.acquire (b : Buffer) (lo hi : Nat) (write : Bool) (owner : AcqOwner) : Bool × Nat × Buffer :=
  let tag := b.freshTag
  match b.tryAcquire lo hi write with
  | (true, b1) => (true, tag, b1)
  | (false, b1) => (false, tag, { b1 with pend := b1.pend ++ [{ tag := tag, lo := lo, hi := hi, write := write, owner := owner }] })

/-- R339: a release of a read hold. -/
def Buffer.relRead (b : Buffer) (lo hi : Nat) (consume : Bool) : Buffer :=
  { b with sb := sbUpdate b.sb lo hi (SbState.relRead consume) }

/-- R339: a release of a write hold; REL_WP also marks every chunk poisoned. -/
def Buffer.relWrite (b : Buffer) (lo hi : Nat) (spoil : Bool) : Buffer :=
  let b1 := { b with sb := sbUpdate b.sb lo hi SbState.relWrite }
  if spoil then { b1 with store := b1.store.putMarks true (chunksOf lo (hi - lo)) } else b1

/-- R340: CANCEL of a pending acquire. -/
def Buffer.cancel (b : Buffer) (tag : Nat) : Buffer := { b with pend := b.pend.filter fun a => a.tag ≠ tag }

/-- The release of a hold or the cancelling of a pending acquire. -/
def Buffer.drop (b : Buffer) (lo hi : Nat) (write granted consume spoil : Bool) (tag : Nat) : Buffer :=
  if !granted then b.cancel tag
  else if write then b.relWrite lo hi spoil
  else b.relRead lo hi consume

/-! ## BADDR check and relocation (R333, R334) -/

/-- R334: the BADDR check for `n` bytes at `b`. -/
def Stall.baddrOk (t : Stall) (b : Word) (n : Nat) : Bool :=
  b.bits 63 32 == 0 && decide (b.toNat + n ≤ t.bbound.bits 32 0) &&
  decide (t.bbase.bits 31 12 * 4096 + b.toNat + n ≤ 2 ^ 32)

/-- R333: relocation. -/
def Stall.relocate (t : Stall) (b : Word) : Nat := t.bbase.bits 31 12 * 4096 + b.toNat

/-! ## Declared ranges (R341 to R345) -/

/-- R345: one range entry of a stopped context is given up. -/
def RangeEntry.giveUp (e : RangeEntry) (b : Buffer) : Buffer :=
  b.drop e.off (e.off + e.len) e.write e.granted false true e.tag

/-- R345: every range entry of a stopped context. -/
def State.dropRanges (s : State) (c : Nat) : State :=
  let b := (s.ctx c).ranges.foldl (fun b p => p.2.giveUp b) s.buf
  ({ s with buf := b }).modCtx c fun e => { e with ranges := [] }

/-- R343: the ranges of an image are released when it ends, write ranges with REL_WP unless it ended well. -/
def HeldRange.giveUp (ok : Bool) (b : Buffer) (r : HeldRange) : Buffer :=
  b.drop r.off (r.off + r.len) r.write r.granted false (!ok) r.tag

/-! ## Physical writes by the block's own units -/

/-- A write to MEMORY by a unit other than the core, a line at a time (R312, R319). A write to window space goes to another
chip's window port and leaves memory as it was (R372). -/
def State.unitWrite (s : State) (pa : Nat) (bs : List Byte) (poison : Bool) (c : Option Nat) : State :=
  (splitParts (Word.ofNat pa) bs.length).foldl (fun s p =>
    let s1 := s.unitRequest ((pa + p.1) / 128) ((pa + p.1) % 128) ((bs.drop p.1).take p.2) poison
    if s1.mem.noTarget.get false ((pa + p.1) / 128) then s1.noTargetRecord (pa + p.1) c
    else if windowSpace ((pa + p.1) / 128) then s1
    else { s1 with mem := { s1.mem with store := s1.mem.store.write (pa + p.1) ((bs.drop p.1).take p.2) poison } }) s

/-- A read of at most 128 bytes of MEMORY by a unit other than the core: the bytes, whether any was poisoned, and the
state with the requests of lines that the L2 does not hold and the records of NOTARGET lines. -/
def State.unitRead (s : State) (pa n : Nat) (c : Option Nat) : List Byte × Bool × State :=
  (splitParts (Word.ofNat pa) n).foldl (fun r p =>
    let s1 := r.2.2.readRequests [(pa + p.1) / 128]
    if s1.mem.lost ((pa + p.1) / 128) then
      (r.1 ++ List.replicate p.2 0, true, s1.noTargetRecord (pa + p.1) c)
    else (r.1 ++ s1.mem.store.read (pa + p.1) p.2, r.2.1 || s1.mem.store.poisoned (pa + p.1) p.2, s1)) ([], false, s)

/-- `n` bytes from `o` cut where an aligned run of `size` bytes ends. `fuel` bounds the parts. -/
def cuts (size : Nat) : (fuel : Nat) → (o n : Nat) → List (Nat × Nat)
  | 0, _, _ => []
  | fuel + 1, o, n =>
    if n = 0 then []
    else
      let k := min n (size - o % size)
      (o, k) :: cuts size fuel (o + k) (n - k)

/-- `n` bytes at offset `o` of buffer memory as requests, each within 512 aligned bytes (R335 to R337; that a read is cut
where a write is, is a DESIGN CHOICE, log entry 106). `fuel` bounds them. -/
def bufRequests : (fuel : Nat) → (o n : Nat) → List (Nat × Nat) := cuts 512

/-! ## Streams (R348 to R356) -/

/-- A slot that has never been allocated. -/
def StreamSlot.empty : StreamSlot := { gen := 0, ctx := 0, act := none, shadow := none }

/-- A slot, by engine × 8 + slot (R348). -/
def State.stream (s : State) (k : Nat) : StreamSlot := s.streams.get StreamSlot.empty k

def State.setStream (s : State) (k : Nat) (t : StreamSlot) : State := { s with streams := s.streams.set k t }

/-- Whether the descriptor writes buffer memory: COPY_IN and GATHER (R349). -/
def StreamD.fills (d : StreamD) : Bool := d.kind = 0 || d.kind = 2

/-- Whether the descriptor's memory side is a table: GATHER and SCATTER (R349). -/
def StreamD.indexed (d : StreamD) : Bool := d.kind = 2 || d.kind = 3

/-- The buffer offset of row `r` (R349). -/
def StreamD.rowOff (d : StreamD) (r : Nat) : Nat := ((d.bufOff : Int) + r * d.bstride).toNat

/-- R350 step 4: the bounding interval of all buffer rows: its first byte and the byte after its last. -/
def StreamD.span (d : StreamD) : Nat × Nat :=
  (min (d.rowOff 0) (d.rowOff (d.rows - 1)), max (d.rowOff 0) (d.rowOff (d.rows - 1)) + d.rowLen)

/-- The buffer interval that the next row needs: the whole footprint of a reservation, or the row (R351, R352). -/
def StreamD.interval (d : StreamD) : Nat × Nat :=
  if d.flow then (d.rowOff d.rowsDone, d.rowOff d.rowsDone + d.rowLen) else d.span

/-- R351, R352: the release of what the engine holds; REL_WP with `spoil`. -/
def StreamD.release (d : StreamD) (spoil : Bool) (b : Buffer) : Buffer :=
  if d.granted then
    if d.fills then b.relWrite d.interval.1 d.interval.2 spoil else b.relRead d.interval.1 d.interval.2 d.consume
  else b

/-- R351, R352: the engine's acquire of what the next row needs, where it can be granted and the descriptor is not
cancelled. -/
def StreamD.acquire (d : StreamD) (b : Buffer) : StreamD × Buffer :=
  if d.granted || d.cancel || decide (d.rows ≤ d.rowsDone) then (d, b)
  else match b.tryAcquire d.interval.1 d.interval.2 d.fills with
    | (true, b1) => ({ d with granted := true }, b1)
    | (false, _) => (d, b)

/-- The engine of slot `k` tries its acquire. An engine does so when a descriptor becomes active, when its state is asked
for, and at each row (DESIGN CHOICE, log entry 100). -/
def State.engineAcquire (s : State) (k : Nat) : State :=
  let t := s.stream k
  match t.act with
  | none => s
  | some d =>
    let (d1, b) := d.acquire s.buf
    ({ s with buf := b }).setStream k { t with act := some d1 }

/-- R356: the 16 bytes of a completion record. -/
def streamRecord (status pchunks rowsDone : Nat) (user : Word) : List Byte :=
  leBytes 1 status ++ [0] ++ leBytes 2 pchunks ++ leBytes 4 rowsDone ++ leBytes 8 user.toNat

/-- R356: the holds of a descriptor are released, with REL_WP if any row was not written; its record is written at STATVA
and STREAM is raised if NOTIFY is set. -/
def State.completeDesc (s : State) (c : Nat) (d : StreamD) (status : Nat) : State :=
  let s1 := { s with buf := d.release (decide (d.rowsDone < d.rows)) s.buf }
  let s2 := match d.statPa with
    | some pa => s1.unitWrite pa (streamRecord status (min d.pchunks 65535) d.rowsDone d.user) false (some c)
    | none => s1
  if d.notify then s2.raiseEvent c 3 else s2

/-- R355: the descriptors of a slot are cancelled: the active one at its next row boundary, a shadow at once. -/
def State.cancelSlot (s : State) (k : Nat) : State :=
  let t := s.stream k
  let s1 := match t.shadow with
    | some d => s.completeDesc t.ctx d 4
    | none => s
  s1.setStream k { t with shadow := none, act := t.act.map fun d => { d with cancel := true } }

/-- R355: the descriptors of a stopped context. -/
def State.cancelStreams (s : State) (p : Nat → Bool) : State :=
  (s.streams.filter fun e => p e.2.ctx && (e.2.act.isSome || e.2.shadow.isSome)).foldl (fun s e => s.cancelSlot e.1) s

end Sys2Proof.Machine
end

