-- ==== Sys2Proof/Machine/Queue.lean ====
section
/-! DEFINITION. Queues: counters, takes, completion records and the records that the block writes (R361 to R371, R467, R468). -/

namespace Sys2Proof.Machine

/-- Queue `q` (R361). -/
def State.queue (s : State) (q : Nat) : Queue := s.queues.get Queue.empty q

def State.setQueue (s : State) (q : Nat) (v : Queue) : State := { s with queues := s.queues.set q v }

def State.modQueue (s : State) (q : Nat) (f : Queue → Queue) : State := s.setQueue q (f (s.queue q))

/-- The EN, PRIO, LOG2 and CTX fields of a queue's active QCFG (R363). -/
def State.qEn (s : State) (q : Nat) : Bool := (s.qcfg q).bit 0
def State.qPrio (s : State) (q : Nat) : Nat := (s.qcfg q).bits 3 1
def State.qLog2 (s : State) (q : Nat) : Nat := (s.qcfg q).bits 12 8
def State.qCtx (s : State) (q : Nat) : Nat := (s.qcfg q).bits 25 16

/-- R361: the slot of a sequence number. -/
def State.qSlot (s : State) (q : Nat) (seq : BitVec 32) : Nat := seq.toNat % 2 ^ s.qLog2 q

/-- The physical addresses of a sequence number's entry and completion record (R363). -/
def State.qEntryPa (s : State) (q : Nat) (seq : BitVec 32) : Nat := (s.qring q).bits 51 10 * 1024 + 64 * s.qSlot q seq
def State.qRecordPa (s : State) (q : Nat) (seq : BitVec 32) : Nat := (s.qcring q).bits 51 9 * 512 + 32 * s.qSlot q seq

/-- The holder of an entry between DONE and TAKEN whose record has been written out of turn (R370). -/
def recorded : Nat := 65536

/-- R369: the 32 bytes of a completion record. -/
def queueRecord (seq : BitVec 32) (status : Nat) (tagBad : Bool) (tag : Nat) (value : Nat) : List Byte :=
  leBytes 4 seq.toNat ++ leBytes 2 status ++ leBytes 1 tagBad.toNat ++ [0] ++ leBytes 8 tag ++ leBytes 4 value ++
  List.replicate 12 0

/-- R369, R371: the record of entry `seq` is written in its slot, and QC announces it. -/
def State.putRecord (s : State) (q : Nat) (seq : BitVec 32) (status value : Nat) (c : Option Nat) : State :=
  let (tag, bad, s1) := s.unitRead (s.qEntryPa q seq) 8 c
  let s2 := s1.unitWrite (s.qRecordPa q seq) (queueRecord seq status bad (leNat tag) value) false c
  { s2 with ports := { s2.ports with qc := s2.ports.qc ++ [(q, seq, BitVec.ofNat 16 status)] } }

/-- R368: the record of entry DONE is written and DONE advances. -/
def State.writeCompletion (s : State) (q status value : Nat) (c : Option Nat) : State :=
  (s.putRecord q (s.queue q).done status value c).modQueue q fun u =>
    { u with done := u.done + 1, holders := u.holders.drop 1 }

/-- R370: DONE advances past the entries whose records have been written. -/
def Queue.pumpFrom : List Nat → Queue → Queue
  | h :: t, u => if h = recorded then Queue.pumpFrom t { u with done := u.done + 1, holders := t } else u
  | [], u => u

def State.pump (s : State) (q : Nat) : State := s.modQueue q fun u => Queue.pumpFrom u.holders u

/-- R370, R467: block-written records of the entries in flight at the given places after DONE, in sequence order. -/
def State.failEntries (q status : Nat) : List Nat → State → State
  | [], s => s
  | i :: is, s => State.failEntries q status is (s.putRecord q ((s.queue q).done + BitVec.ofNat 32 i) status 0 none)

/-- R370, R467: the entries of a queue in flight whose holder `p` accepts receive a block status. Answers how many. -/
def State.failQueue (s : State) (q : Nat) (p : Nat → Bool) (status : Nat) : Nat × State :=
  let u := s.queue q
  let hit := fun h => h != recorded && p h
  let at' := (u.holders.zipIdx.filter fun e => hit e.1).map (·.2)
  let s1 := (State.failEntries q status at' s).modQueue q fun u =>
    { u with holders := u.holders.map fun h => if hit h then recorded else h }
  (at'.length, s1.pump q)

/-- R370: a queue is disabled: its waiting entries receive FAILED_DISABLED. -/
def State.disableQueue (s : State) (q : Nat) : State :=
  let u := s.queue q
  let n := (u.tail - u.taken).toNat
  let s1 := State.failEntries q 0x8003 ((List.range n).map (u.holders.length + ·)) s
  (s1.modQueue q fun u => { u with taken := u.tail, holders := u.holders ++ List.replicate n recorded }).pump q

/-- R370, R465, R504: every queue, in ascending order. -/
def State.failInFlight (s : State) (p : Nat → Bool) (status : Nat) : Nat × State :=
  s.queues.foldl (fun r e => let (n, s1) := r.2.failQueue e.1 p status; (r.1 + n, s1)) (0, s)

/-- The contexts that hold an entry in flight. -/
def State.holdingCtxs (s : State) : List Nat :=
  (s.queues.flatMap fun e => e.2.holders.filter (· ≠ recorded)).eraseDups

/-- R365: a doorbell with tail `t` reaches queue `q`: it is applied when `t` lies ahead of TAIL (DEDUCED, log entry 20) and within
the ring. From PF_DONE on it is ignored (R504). -/
def State.doorbell (s : State) (q : Nat) (t : BitVec 32) : State :=
  let u := s.queue q
  if s.power.pfDone then s
  else if !s.qEn q then s.setQueue q { u with denied := true }
  else if t = u.tail then s
  else if (u.tail - u.done).toNat < (t - u.done).toNat ∧ (t - u.done).toNat ≤ 2 ^ s.qLog2 q then
    (s.setQueue q { u with tail := t }).raiseEvent (s.qCtx q) 0
  else s.setQueue q { u with badTail := true }

/-- R366: the take word. -/
def takeWord (seq : Nat) (valid : Bool) (reason q : Nat) : Word :=
  Word.ofNat (seq + valid.toNat * 2 ^ 32 + reason * 2 ^ 33 + q * 2 ^ 36)

/-- R366: a read of QTAKE by context `c`, or by a requester that is no context. -/
def State.qtake (s : State) (q : Nat) (c : Option Nat) : Word × State :=
  let u := s.queue q
  if c ≠ some (s.qCtx q) then (takeWord 0 false 2 0, s)
  else if !s.qEn q then (takeWord 0 false 3 0, s)
  else if u.tail = u.taken then (takeWord 0 false 1 0, s)
  else (takeWord u.taken.toNat true 0 0,
        s.setQueue q { u with taken := u.taken + 1, holders := u.holders ++ [s.qCtx q] })

/-- R367: whether QTAKEANY may take from a queue for context `c`. -/
def State.takeable (s : State) (c q : Nat) : Bool :=
  s.qEn q && s.qCtx q = c && (s.queue q).tail != (s.queue q).taken

/-- R367: the first queue number after `last`, in ascending order with wrap-around. -/
def nextAfter (last : Nat) (qs : List Nat) : Option Nat :=
  match (qs.filter fun q => last < q).min? with
  | some q => some q
  | none => qs.min?

/-- R367: a read of QTAKEANY by context `c`. -/
def State.qtakeAny (s : State) (c : Nat) : Word × State :=
  let qs := (s.queues.map (·.1)).filter (s.takeable c)
  let best := qs.foldl (fun p q => min p (s.qPrio q)) 8
  match nextAfter (s.ctx c).lastTake (qs.filter fun q => s.qPrio q = best) with
  | none => (takeWord 0 false 1 0, s)
  | some q =>
    let u := s.queue q
    (takeWord u.taken.toNat true 0 q,
     (s.setQueue q { u with taken := u.taken + 1, holders := u.holders ++ [c] }).modCtx c fun e => { e with lastTake := q })

/-- R101, R468: the sticky SPOISON flag of a context, wherever its tile status record is held: in its saddle, in the
frame or in the save area header (R132). -/
def State.spoison (s : State) (c : Nat) : Bool :=
  if s.tile.sad0.owner = some c then s.tile.sad0.status.tstat.bit 2
  else if s.tile.sad1.owner = some c then s.tile.sad1.status.tstat.bit 2
  else
    let e := s.ctx c
    if e.recf then (s.mem.store.byte (e.framePa + 0x30)).getLsbD 2
    else match e.pin with
      | some pa => (s.mem.store.byte (pa + 0x1668000)).getLsbD 2
      | none => false

/-- R368, R468: a QDONE by context `c` (or by no context) with a data operand that is poisoned or not. -/
def State.qdone (s : State) (q : Nat) (c : Option Nat) (w : Word) (poison : Bool) : State :=
  let u := s.queue q
  let status := w.bits 31 16
  let value := w.bits 63 32
  match u.holders.head?, c with
  | some h, some n =>
    if h = n ∧ w.bits 15 0 = u.done.toNat % 65536 ∧ status ≤ 0x7FFF then
      let s1 := if poison then s.writeCompletion q 0x8001 0 c
        else if s.spoison n then s.writeCompletion q 0x8001 status c
        else s.writeCompletion q status value c
      s1.pump q
    else if s.qCtx q ≠ n ∧ !(u.holders.contains n) then s.setQueue q { u with denied := true }
    else s.setQueue q { u with seqErr := true }
  | _, some n => if s.qCtx q ≠ n then s.setQueue q { u with denied := true } else s.setQueue q { u with seqErr := true }
  | _, none => s.setQueue q { u with denied := true }

/-- QSTAT (R363). -/
def State.qstat (s : State) (q : Nat) : Word :=
  let u := s.queue q
  Word.ofNat (u.done.toNat + (u.taken - u.done).toNat % 2 ^ 17 * 2 ^ 32 + u.badTail.toNat * 2 ^ 49 +
    u.seqErr.toNat * 2 ^ 50 + u.denied.toNat * 2 ^ 51)

end Sys2Proof.Machine
end

