-- ==== Sys2Proof/Machine/Stop.lean ====
section
/-! DEFINITION. The end of an admitted image (R243, R244), the closing of windows (R376, R377) and the stop of a context
with the report of its work (R282, R345, R355, R370). -/

namespace Sys2Proof.Machine

/-! ## Saddles and runs by number -/

/-- Saddle `i` (R99). -/
def State.sad (s : State) (i : Nat) : Saddle := if i = 0 then s.tile.sad0 else s.tile.sad1

def State.setSad (s : State) (i : Nat) (d : Saddle) : State :=
  if i = 0 then { s with tile := { s.tile with sad0 := d } } else { s with tile := { s.tile with sad1 := d } }

def State.modSad (s : State) (i : Nat) (f : Saddle → Saddle) : State := s.setSad i (f (s.sad i))

/-- The admitted image on saddle `i` (R217). -/
def State.run (s : State) (i : Nat) : Option Run := if i = 0 then s.runs.run0 else s.runs.run1

def State.setRun (s : State) (i : Nat) (r : Option Run) : State :=
  if i = 0 then { s with runs := { s.runs with run0 := r } } else { s with runs := { s.runs with run1 := r } }

/-- The saddle that a context owns (R101). -/
def State.sadOf (s : State) (c : Nat) : Option Nat :=
  if s.tile.sad0.owner = some c then some 0 else if s.tile.sad1.owner = some c then some 1 else none

/-- The saddle on which a context's image is admitted, unless it is parked (R217, R238). -/
def State.runOf (s : State) (c : Nat) : Option Nat :=
  if (s.runs.run0.map (·.ctx)) = some c then some 0 else if (s.runs.run1.map (·.ctx)) = some c then some 1 else none

/-- A context's parked image (R238). -/
def State.parkedOf (s : State) (c : Nat) : Option Run := (s.runs.parked.find? fun p => p.1 = c).map (·.2)

/-- A context's admitted image, on a saddle or parked. -/
def State.admitted (s : State) (c : Nat) : Option Run :=
  match s.runOf c with
  | some i => s.run i
  | none => s.parkedOf c

/-! ## The end of an image (R243, R343, R455) -/

/-- R243: whether a RESULT is OK or OK_REPLAYED. -/
def resultOk (r : BitVec 8) : Bool := r = 1 || r = 2

/-- R459: the POISON_IN record of an image, written when it ends. -/
def State.imagePoison (s : State) (r : Run) (ix : Nat) : State :=
  match r.poisonIn with
  | none => s
  | some (src, unit, addr, n) =>
    s.record { ErrRec.mk0 0x105 src 1 (some r.ctx) with
      unit := BitVec.ofNat 16 unit, addr := Word.ofNat addr, info := Word.ofNat (min n 0xFFFFFFFF), rflags := 4,
      imgcrc := r.image.crc, runix := BitVec.ofNat 8 ix,
      tau := BitVec.ofNat 32 (r.lastEnd - Tbl.get r.lastEnd r.runStart ix) }

/-- R243: the first run of which an instruction is still to start, or the run of the cursor where none is. -/
def Run.firstOpen (r : Run) : Nat :=
  match r.todo with
  | [] => r.cursor.part
  | p :: ps => ps.foldl (fun n q => min n q.run) p.run

/-- R223, R243, R244: the effects of the end of an image with a RESULT set by the run of index `ix`: its ranges are
released, STATE and RESULT written, and RUN raised. An image whose run buffer words failed leaves the buffer (R455). -/
def State.finishRun (s : State) (r : Run) (result : BitVec 8) (ix : Nat) : State :=
  let s0 := s.imagePoison r ix
  let s1 := { s0 with buf := r.ranges.foldl (HeldRange.giveUp (resultOk result)) s0.buf }
  let s2 := if r.dropImage then { s1 with runs := { s1.runs with images := s1.runs.images.del r.ctx } } else s1
  let s3 := s2.modCtx r.ctx fun e =>
    { e with runSt := if resultOk result then .done else .failed, runResult := result, runix := BitVec.ofNat 4 ix }
  let s4 := (s3.pmcAdd 5 1).raiseEvent r.ctx 2
  if result = 0x0B then s4.pendGroom 50 else s4

/-- The image on saddle `i` ends. -/
def State.endRun (s : State) (i : Nat) (result : BitVec 8) (ix : Nat) : State :=
  match s.run i with
  | none => s
  | some r => (s.setRun i none).finishRun r result ix

/-- The parked image of context `c` ends. -/
def State.endParked (s : State) (c : Nat) (result : BitVec 8) : State :=
  match s.parkedOf c with
  | none => s
  | some r => ({ s with runs := { s.runs with parked := s.runs.parked.del c } }).finishRun r result r.firstOpen

/-- R244: an abandonment or cancellation of the image on saddle `i`. One that has started no instruction, or whose started
instructions have all completed, ends at once; otherwise it waits for the next boundary. A power failure takes the place
of a thermal emergency of the same ACLK (R505). -/
def State.abandonRun (s : State) (i : Nat) (result : BitVec 8) : State :=
  match s.run i with
  | none => s
  | some r =>
    match r.phase with
    | .armed | .paused | .parked => s.endRun i result r.firstOpen
    | .running | .preempted =>
      if r.abandon.isNone || (r.abandon = some 8 && result = 9 && s.power.emAt = some (aclkOf s.now)) then
        s.setRun i (some { r with abandon := some result })
      else s

/-- R244: an abandonment of a context's admitted image, wherever it is. -/
def State.abandonOf (s : State) (c : Nat) (result : BitVec 8) : State :=
  match s.runOf c with
  | some i => s.abandonRun i result
  | none => s.endParked c result

/-! ## Windows (R376, R377) -/

/-- Window `w` (R373). -/
def State.window (s : State) (w : Nat) : Window := s.windows.get Window.empty w

def State.setWindow (s : State) (w : Nat) (v : Window) : State := { s with windows := s.windows.set w v }

def State.modWindow (s : State) (w : Nat) (f : Window → Window) : State := s.setWindow w (f (s.window w))

/-- R376 phase one: a window in OPENING or OPEN becomes CLOSING; `spoil` releases with REL_WP (R377). -/
def State.closeWindow (s : State) (w : Nat) (spoil : Bool) : State :=
  let v := s.window w
  if v.st = .opening ∨ v.st = .opened then s.setWindow w { v with st := .closing, spoil := spoil } else s

/-- R377: the windows that a context owns. -/
def State.closeOwned (s : State) (c : Nat) : State :=
  (s.windows.filter fun p => (s.wcfg p.1).bits 25 16 = c).foldl (fun s p => s.closeWindow p.1 true) s

/-! ## Stopping a context (R282) -/

/-- A wait at issue of context `n` is abandoned by a trap, an alert, a switch or a stop: what a waiting TRUN.GO has asked
for is given up (R340, R342, R500). -/
def State.abandonWait (s : State) (n : Nat) : State :=
  let b := (s.ctx n).askedRanges.foldl (HeldRange.giveUp true) s.buf
  ({ s with buf := b }).modCtx n fun e => { e with waitAt := none, askedRanges := [] }

/-- The stall of a stopped context is cleared and becomes free; a held one stays held and empty (R275). -/
def State.freeStallOf (s : State) (c : Nat) : State :=
  match (s.ctx c).stall with
  | none => s
  | some k =>
    let hs := s.core.reserve.holds.mapVals fun j h => if j = k then { h with emptied := true } else h
    ({ s with core := { s.core with stalls := s.core.stalls.del k, reserve := { s.core.reserve with holds := hs } } }).modCtx c
      fun e => { e with stall := none }

/-- How many records with a failure status a stop of `c` causes besides queue entries: its admitted image and its
descriptors that have a record (R456 ITEMS). -/
def State.stopItems (s : State) (c : Nat) : Nat :=
  (if (s.admitted c).isSome then 1 else 0) +
  ((s.streams.filter fun p => p.2.ctx = c).map fun p =>
    ((p.2.act.bind (·.statPa)).toList.length + (p.2.shadow.bind (·.statPa)).toList.length)).sum

/-- R282: context `c` is stopped with STOPCAUSE `cause` (R440). Answers how many items were reported. -/
def State.stopContext (s : State) (c : Nat) (cause : Nat) : Nat × State :=
  let n0 := s.stopItems c
  let s1 := if s.core.disp = .ctx c then { s with core := { s.core with disp := .idle } } else s
  let s2 := (s1.abandonWait c).freeStallOf c
  let s3 := s2.modCtx c fun e =>
    { e with mode := .stopped, pend := 0, stopCause := BitVec.ofNat 16 cause, inWait := false }
  let core := { s3.core with
    switchTo := if s3.core.switchTo = some c then none else s3.core.switchTo,
    fills := s3.core.fills.filter fun f => f.1 ≠ c,
    reserve := { s3.core.reserve with requests := s3.core.reserve.requests.filter (· ≠ c) } }
  let s4 := { s3 with core := core }
  let s5 := s4.abandonOf c 0x0B
  let (n, s6) := s5.failInFlight (fun h => h = c) 0x8002
  let s7 := ((s6.dropRanges c).cancelStreams fun d => d = c).closeOwned c
  (n0 + n, s7.trigger)

/-- A stop by an error: the record (R92, R275, R319) with its ITEMS, after the stop. -/
def State.stopByError (s : State) (c : Nat) (cause : Nat) (r : ErrRec) : State :=
  let (n, s1) := s.stopContext c cause
  s1.record { r with items := BitVec.ofNat 32 n }

end Sys2Proof.Machine
end

