-- ==== Sys2Proof/Machine/Trap.lean ====
section
/-! DEFINITION. Trap entry and trap return (R88 to R92), the escalation of reserve-stall faults (R278), and the step that
every core instruction takes around its own meaning: fetch checks, ILLEGAL, retirement, trap or wait. -/

namespace Sys2Proof.Machine

/-- R55: the status register as it reads: MODE, PMODE, AE, PAE, and SADDLE, SNUM and RUN from the tile unit. -/
def State.statusWord (s : State) (t : Stall) (c : Option Nat) : Word :=
  let base := t.status.bits 3 0
  match c with
  | none => Word.ofNat base
  | some n =>
    let sd := s.sadOf n
    Word.ofNat (base + sd.isSome.toNat * 16 + (sd.getD 0) * 32 + (s.admitted n).isSome.toNat * 64)

/-- The physical address of the tile status record in a save area (R129). -/
def headerPa (pin : Nat) : Nat := pin + 0x1668000

/-- A copy of `n` 16-byte chunks of memory with their poison marks. -/
def Store.copyChunks (m : Store) (src dst : Nat) : Nat → Store
  | 0 => m
  | n + 1 =>
    let m1 := (m.putBytes (dst + 16 * n) (m.read (src + 16 * n) 16)).putMark (dst / 16 + n) (m.mark (src / 16 + n))
    m1.copyChunks src dst n

/-- R88, R91: the record moves from the frame at frame_pa to the save area header, and recf becomes 0. -/
def State.recordToHeader (s : State) (n : Nat) : State :=
  let e := s.ctx n
  match e.pin with
  | some p => ({ s with mem := { s.mem with store := s.mem.store.copyChunks (e.framePa + 0x30) (headerPa p) 13 } }).modCtx n
      fun e => { e with recf := false }
  | none => s.modCtx n fun e => { e with recf := false }

/-- R90: FLAGS of the frame at frame_pa is written. -/
def State.writeFlags (s : State) (n : Nat) (v : Nat) : State := s.unitWrite ((s.ctx n).framePa + 0x28) (leBytes 8 v) false (some n)

/-- R92: a frame failure stops the context, with the original cause code. -/
def State.frameFault (s : State) (n k : Nat) (cause : Nat) : State :=
  s.stopByError n 0x0008 { ErrRec.mk0 0x0008 0x10 5 (some n) with
    unit := BitVec.ofNat 16 k, addr := (s.stall k).tsp, cause2 := BitVec.ofNat 16 cause }

/-- R89: the minimal part of a frame, offsets 0x00 to 0x2F. -/
def frameBytes (t : Stall) (status : Word) : List Byte :=
  leBytes 8 t.tsp.toNat ++ leBytes 8 t.epc.toNat ++ leBytes 8 t.cause.toNat ++ leBytes 8 t.tval.toNat ++
  leBytes 8 status.toNat ++ leBytes 8 0

/-- R58: the cause register of an entry. -/
def causeWord (code opfield : Nat) (optag : Tag) (alert : Bool) : Word :=
  Word.ofNat (code + opfield * 2 ^ 16 + tagCode optag * 2 ^ 20 + alert.toNat * 2 ^ 63)

/-- R53, R88: the registers of the stall after an entry. -/
def Stall.enterTrap (t : Stall) (cause tval epc : Word) : Stall :=
  { t with
    tsp := t.tsp - 256, epc := epc, cause := cause, tval := tval,
    status := Word.ofNat (1 + t.status.bits 0 0 * 2 + t.status.bits 2 2 * 8),
    pc := t.tvec }

/-- R88: trap entry of context `n` in stall `k`, as one step. `pc` is the value that epc takes. A frame line that its port
answers NOTARGET is no failure of the frame: its record is written and the trap is taken, though R92 speaks of a frame that
entry cannot write (DESIGN CHOICE, log entry 101). -/
def State.trapEntry (s : State) (n k : Nat) (code opfield : Nat) (optag : Tag) (alert : Bool) (tval pc : Word) : State :=
  let t := s.stall k
  let f := t.tsp - 256
  if f.bits 7 0 ≠ 0 then s.frameFault n k code
  else
    match (translate { t.xctx with sys := true } 2 false f (some n)) s with
    | .error _ s1 => s1.frameFault n k code
    | .ok (e, pa) s1 =>
      if s1.attr pa ≠ 1 then s1.frameFault n k code
      else
        let s2 := if (s1.ctx n).recf then (s1.recordToHeader n).writeFlags n 0 else s1
        let s3 := s2.memWrite pa (frameBytes t (s.statusWord t (some n))) false e.st (some n)
        let s4 := (s3.abandonWait n).modCtx n fun x => { x with framePa := pa, fpv := true }
        s4.modStall k fun t => t.enterTrap (causeWord code opfield optag alert) tval pc

/-! ## The reserve stall's faults (R278) -/

/-- R278: what becomes of a held stall: a context partly loaded into it is stopped, a stall emptied or partly loaded
becomes free, and any other keeps its context. -/
def State.settleHold (s : State) (p : Nat × Hold) : State :=
  match p.2.loadedL with
  | some c =>
    let s1 := if (s.ctx c).started && (s.ctx c).stall.isNone then (s.stopContext c 0x84).2 else s
    { s1 with core := { s1.core with stalls := s1.core.stalls.del p.1 } }
  | none => if p.2.emptied then { s with core := { s.core with stalls := s.core.stalls.del p.1 } } else s

/-- R278: a fault in the reserve stall escalates to the Groom with its underlying cause. The value of a that R86 lists with
CTX_ALIGN has no field in the record that R458 gives, and is not kept (DESIGN CHOICE, log entry 104). -/
def State.reserveFault (s : State) (cause : Nat) : State :=
  let s1 := s.record { ErrRec.mk0 0x84 0x10 6 none with
    unit := 31, addr := (s.stall 31).pc, cause2 := BitVec.ofNat 16 cause }
  let s2 := s1.core.reserve.holds.foldl State.settleHold s1
  let core := { s2.core with disp := .idle,
                             reserve := { s2.core.reserve with stopped := true, current := none, holds := [] } }
  (({ s2 with core := core }).pendGroom 51).trigger

/-! ## The step of a core instruction -/

/-- The instruction word of a command of the core (R60). -/
def insnWord (i : Instr) : Word := Word.ofNat ((coreWord i).getD 0).toNat

/-- Retirement: the pc of the stall that issued moves, if it still holds the context, and the instruction is counted. -/
def State.retire (s : State) (k : Nat) (n : Option Nat) (pc : Word) : State :=
  let s0 := s.pmcAdd 1 1
  match n with
  | none => s0.modStall k fun t => { t with pc := pc }
  | some n =>
    if (s0.ctx n).stall = some k then
      (s0.modStall k fun t => { t with pc := pc }).modCtx n fun e => { e with waitAt := none }
    else s0

/-- A wait at issue is recorded; an instruction that goes on waiting for the same reason keeps its start. -/
def State.setWait (s : State) (n : Option Nat) (i : Instr) (why : WaitWhy) (opfield : Nat) (optag : Tag) (tval : Word) : State :=
  match n with
  | none => s
  | some n => s.modCtx n fun e =>
    let since := match e.waitAt with
      | some w => if w.why = why ∧ w.insn = i then w.since else s.now
      | none => s.now
    { e with waitAt := some { why := why, since := since, tile := isTile ((coreWord i).getD 0), insn := i, tval := tval,
                              opfield := opfield, optag := optag } }

/-- What an aborted instruction leaves (R85 to R92, R278, R319). -/
def State.abort (s : State) (i : Instr) (k : Nat) (n : Option Nat) (pc : Word) (a : Abort) : State :=
  match n, a with
  | some n, .trap code f t v => s.trapEntry n k code f t false v (if code = 4 then pc + 4 else pc)
  | none, .trap code _ _ _ => s.reserveFault code
  | n, .wait why f t v => s.setWait n i why f t v
  | some n, .fetchError port => s.stopByError n 0x0008 { ErrRec.mk0 0x10E (if port then 9 else 1) 5 (some n) with
      unit := BitVec.ofNat 16 k, addr := pc }
  | none, .fetchError _ => s.reserveFault 0x10E
  | some n, .frameFault => s.frameFault n k 0
  | none, .frameFault => s.reserveFault 0x0008

/-- Whether an instruction reads the register in bits [24:20] of its word: stores, branches on a condition, the fused forms,
and the tile instructions with a shape operand. -/
def readsFirst : Instr → Bool
  | .stI8 .. | .stI16 .. | .stI32 .. | .stI .. | .bz .. | .bnz .. => true
  | .fmaddD .. | .fmsubD .. | .fnmaddD .. | .fmaddS .. | .fmsubS .. | .fnmaddS .. => true
  | .opaT .. | .opaM .. | .opkT .. | .opkM .. | .tldScale .. | .tzf .. | .tdr .. | .tdw .. | .taw .. | .tchk .. => true
  | _ => false

/-- R60: the registers that an instruction reads, by the fields of its word: bits [14:10] hold none in formats I and B, and
format B has its register in bits [24:20]. -/
def regsRead (i : Instr) : List Nat :=
  match coreWord i with
  | none => []
  | some w =>
    let f := fun (n : Nat) => w.toNat / 2 ^ n % 32
    let op := w.toNat / 2 ^ 25
    let b := decide (0x30 ≤ op) && decide (op ≤ 0x32)
    let imm := (decide (0x02 ≤ op) && decide (op ≤ 0x0B)) || (decide (0x18 ≤ op) && decide (op ≤ 0x2B)) || op = 0x33 ||
      op = 0x39 || op = 0x3A || op = 0x3C
    (if readsFirst i then [f 20] else []) ++ (if b then [] else [f 15]) ++ (if b || imm then [] else [f 10])

/-- R61, R87: the checks before an instruction's operands are known: the fetch, then ILLEGAL. The registers that a legal
one reads are then read (R451). -/
def issueChecks (i : Instr) : M Unit := do
  fetchCheck
  if !i.legal then trapM 1 (insnWord i)
  modify fun s => s.meetUpset (s.curStall.getD 31) (regsRead i)

/-- The state in which a legal instruction, fetched without a fault, begins: none where nothing is dispatched, the fetch
faults or the word is ILLEGAL. -/
def State.issued (s : State) (i : Instr) : Option State :=
  match issueChecks i s with
  | .ok _ s1 => some s1
  | .error _ _ => none

/-- One instruction of the core: `body` is its meaning after the checks of issue, and answers the next pc if that is not
the next word. Nothing happens while nothing is dispatched. -/
def State.runInsn (s : State) (i : Instr) (body : M (Option Word)) : State :=
  match s.curStall with
  | none => s
  | some k =>
    match issueChecks i s with
    | .error a s1 => s1.abort i k s.curCtx s.cur.pc a
    | .ok _ s1 =>
      match body s1 with
      | .ok npc s2 => s2.retire k s.curCtx (npc.getD (s.cur.pc + 4))
      | .error a s2 => s2.abort i k s.curCtx s.cur.pc a

/-- The outcome of a command. -/
abbrev Out := Host.Outcome State Fault Refusal

/-- The outcome of a core instruction. -/
def coreStep (i : Instr) (body : M (Option Word)) (s : State) : Out := .next (s.runInsn i body)

/-- R63: an instruction marked System takes PRIV_INSN in service mode. -/
def requireSystem (i : Instr) : M Unit := do
  if !(← get).cur.sysMode then trapM 2 (insnWord i)

/-! ## Trap return (R91) -/

/-- R58: the bits of cause that exist. -/
def causeMask : Word := 0x8000000000F7FFFF

/-- R91: the registers of the stall after a return through a frame whose doublewords are `w`. Bits [1:0] of epc and the
reserved bits of cause stay 0 (R58, R62). -/
def Stall.leaveTrap (t : Stall) (w : Nat → Word) : Stall :=
  { t with
    pc := t.epc, epc := w 1 &&& ~~~3, cause := w 2 &&& causeMask, tval := w 3, tsp := w 0,
    status := Word.ofNat (t.status.bits 1 1 + (w 4).bits 1 1 * 2 + t.status.bits 3 3 * 4 + (w 4).bits 3 3 * 8) }

/-- R91: TRET of the executing stall. -/
def trapReturn : M (Option Word) := do
  let s ← get
  let t := s.cur
  if t.tsp.bits 7 0 ≠ 0 then throw .frameFault
  match (translate { t.xctx with sys := true } 1 false t.tsp s.curCtx) s with
  | .error _ s1 => do
    set s1
    throw .frameFault
  | .ok (e, pa) s1 =>
    set s1
    if s1.attr pa ≠ 1 then throw .frameFault
    let (g, s2) := s1.memRead .l1d pa 48 e.st s.curCtx
    set s2
    if g.poison then throw .frameFault
    let w := fun i => Word.ofNat (leNat ((g.bytes.drop (8 * i)).take 8))
    match s.curCtx with
    | some n =>
      let x := s2.ctx n
      let s3 := if x.fpv && x.recf then s2.recordToHeader n else s2
      set (s3.modCtx n fun x => { x with fpv := false, recf := false })
    | none => pure ()
    modify fun s => s.modCur fun t => t.leaveTrap w
    pure (some (t.epc))

end Sys2Proof.Machine
end

