-- ==== Sys2Proof/Machine/Window.lean ====
section
/-! DEFINITION. Remote windows and their commands (R372 to R378). -/

namespace Sys2Proof.Machine


/-- The block acts: PORESET_N is released, and PF_DONE is not asserted (R491, R506). -/
def State.live (s : State) : Bool := !s.boot.por && !s.power.pfDone

/-- An event of the block: its effect, or nothing while the block does not act or `ok`, the event's enabling condition,
does not hold (DESIGN CHOICE, log entry 1). -/
def eventStep (ok : Bool) (f : State → State) (s : State) : Out := .next (if s.live && ok then f s else s)

/-- WCFG fields (R373). -/
def State.wEn (s : State) (w : Nat) : Bool := (s.wcfg w).bit 0
def State.wOwner (s : State) (w : Nat) : Nat := (s.wcfg w).bits 25 16

/-- WLEN fields (R373). -/
def Window.bytes (v : Window) : Nat := v.wlen.bits 20 0 * 16
def Window.expect (v : Window) : Nat := v.wlen.bits 52 32

/-- The target address of WTGT (R373). -/
def Window.addr (v : Window) : Word := Word.ofNat (v.wtgt.bits 56 4 * 16)

/-- WINDOW is raised for the owner (R373). -/
def State.windowEvent (s : State) (w : Nat) : State := s.raiseEvent (s.wOwner w) 4

/-- LAST is set (R373). -/
def State.windowLast (s : State) (w : Nat) (code : Nat) : State := s.modWindow w fun v => { v with last := BitVec.ofNat 4 code }

/-- The granules of a physical range at which its type can change: the first, and each region's first and next-to-last
(R308). -/
def State.typeEdges (s : State) (lo hi : Nat) : List Nat :=
  let blk := s.boot.straps.blkBase.toNat * 256
  (lo :: blk :: (blk + 256) ::
    ((List.range 16).flatMap fun i => [(s.cfgAct 0x10 i).bits 51 16, (s.cfgAct 0x11 i).bits 51 16 + 1])).filter
    fun g => decide (lo ≤ g) && decide (g ≤ hi)

/-- Every 64 KiB granule that holds a byte of a physical range is MEMORY (R306, R308). -/
def State.allMemory (s : State) (pa n : Nat) : Bool :=
  (s.typeEdges (pa / 65536) ((pa + n - 1) / 65536)).all fun g => s.attr (g * 65536) = 1

/-- R374 step 2 for a VADDR target: the page translates for a write in the owner's mode and holds the whole window. -/
def State.windowXlate (s : State) (va : Word) (n : Nat) : Option Nat × State :=
  match (translateCur 2 false va) s with
  | .error _ s1 => (none, s1)
  | .ok (e, pa) s1 =>
    let v := va.bits 56 0
    (if v / 2 ^ e.size = (v + n - 1) / 2 ^ e.size && s1.allMemory pa n then some pa else none, s1)

/-- R374: OPEN by the owner, which is executing. -/
def State.openWindow (s : State) (w : Nat) : State :=
  let v0 := s.window w
  if !s.wEn w then s.windowLast w 5
  else if v0.st ≠ .closed then s.windowLast w 2
  else
    let v := { v0 with gen := v0.gen + 1, count := 0, spoil := false }
    let s1 := s.setWindow w v
    if v.wtgt.bit 0 then
      match s1.windowXlate v.addr v.bytes with
      | (none, s2) => s2.windowLast w 4
      | (some pa, s2) =>
        (s2.setWindow w { v with st := .opened, last := 0, target := some (.mem, pa), granted := true, evOpened := true }).windowEvent w
    else if !s1.cur.baddrOk v.addr v.bytes then s1.windowLast w 3
    else
      let off := s1.cur.relocate v.addr
      let (g, tag, b) := s1.buf.acquire off (off + v.bytes) true (.window w)
      ({ s1 with buf := b }).setWindow w
        { v with st := .opening, last := 0, target := some (.buf, off), tag := tag, granted := g }

/-- R376: CLOSE by the owner. -/
def State.closeByOwner (s : State) (w : Nat) : State :=
  let v := s.window w
  if v.st = .opening ∨ v.st = .opened then (s.closeWindow w false).windowLast w 0 else s.windowLast w 2

/-- R376 phase two, R458: the target is released, STATE becomes CLOSED and CLOSED is set. -/
def State.finishClose (s : State) (w : Nat) : State :=
  let v := s.window w
  let b := match v.target with
    | some (.buf, off) => s.buf.drop off (off + v.bytes) true v.granted false v.spoil v.tag
    | _ => s.buf
  let s1 := ({ s with buf := b }).setWindow w { v with st := .closed, evClosed := true, target := none, granted := false }
  let s2 := if v.expect ≠ 0 ∧ v.count < v.expect then
      s1.record { ErrRec.mk0 0x10A 0xC 8 (some (s1.wOwner w)) with
        unit := BitVec.ofNat 16 w, info := Word.ofNat (v.count % 2 ^ 32 + v.expect * 2 ^ 32) }
    else s1
  s2.windowEvent w

/-- A command aimed at WCS by a requester: only the owning context's is accepted; another context's sets LAST to
NOT_OWNER, and any other requester's changes nothing (R373). -/
def State.asOwner (s : State) (who : Requester) (w : Nat) (f : State → State) : State :=
  match who with
  | .core => if s.curCtx = some (s.wOwner w) then f s else s.windowLast w 1
  | _ => s

/-- R375: the code that answers a remote write: 0 for accepted, 1 WINDOW_CLOSED, 2 WINDOW_STALE, 3 WINDOW_BOUND. -/
def State.windowCheck (s : State) (w : Nat) (gen : BitVec 8) (off : Nat) (data : List (Byte × Bool)) : Nat :=
  let v := s.window w
  if 1024 ≤ w ∨ !s.wEn w ∨ v.st ≠ .opened ∨ s.power.pfDone then 1
  else if gen ≠ v.gen then 2
  else if (data.zipIdx).any fun p => p.1.2 && decide (v.bytes ≤ 16 * off + p.2) then 3
  else 0

/-- The bytes of a write, cut into 16-byte chunks. -/
def chunked (data : List (Byte × Bool)) : (n : Nat) → List (List (Byte × Bool))
  | 0 => []
  | n + 1 => data.take 16 :: chunked (data.drop 16) n

/-- The chunks of a remote write: the chunk number at the target, the bytes with their enables, and the poison bit. Those with
no byte enabled and no poison bit are left out. -/
def remoteChunks (a : Nat) (data : List (Byte × Bool)) (poison : List Bool) : List (Nat × List (Byte × Bool) × Bool) :=
  (((chunked data ((data.length + 15) / 16)).zipIdx).map fun p => (a / 16 + p.2, p.1, poison.getD p.2 false)).filter
    fun p => p.2.1.any (·.2) || p.2.2

/-- R336, R338: one request of a remote write at a buffer write port. Beyond the size of buffer memory it fails: the chunks
that it enabled and that buffer memory has are marked poisoned, and one record is written. -/
def State.targetBuf (s : State) (c : Option Nat) (cs : List (Nat × List (Byte × Bool) × Bool)) (q : Nat × Nat) : State :=
  let mine := cs.filter fun p => decide (q.1 ≤ 16 * p.1) && decide (16 * p.1 < q.1 + q.2)
  if mine.isEmpty then s
  else if s.buf.size < q.1 + q.2 then
    let bad := (mine.map (·.1)).filter fun k => decide (16 * k < s.buf.size)
    State.record { s with buf := { s.buf with store := s.buf.store.putMarks true bad } }
      { ErrRec.mk0 0x108 0xA 1 c with unit := BitVec.ofNat 16 (q.1 / 512 % 4), addr := Word.ofNat q.1 }
  else { s with buf := { s.buf with store := mine.foldl (fun m p => m.writeChunk p.1 p.2.1 p.2.2) s.buf.store } }

/-- R312, R314, R319: one block of a remote write at its memory access port: the request for the lines that no cache holds
dirty, one record where a line has no target, and the bytes of the other lines, unless they lie in window space. -/
def State.targetMem (s : State) (c : Option Nat) (cs : List (Nat × List (Byte × Bool) × Bool)) (q : Nat × Nat) : State :=
  let mine := cs.filter fun p => decide (q.1 ≤ 16 * p.1) && decide (16 * p.1 < q.1 + q.2)
  let out := mine.filter fun p => !s.caches.dirtyLine (p.1 / 8)
  let bytes := out.flatMap fun p =>
    (p.2.1.zipIdx.filter (·.1.2)).map fun b => (16 * (p.1 % 16) + b.2, b.1.1)
  let s1 := s.maLines 1 ((linesOf q.1 q.2).filter fun l => out.any fun p => p.1 / 8 = l) bytes
    ((out.filter (·.2.2)).map fun p => p.1 % 16)
  let s2 := match mine.find? fun p => s.mem.noTarget.get false (p.1 / 8) with
    | some p => s1.noTargetRecord (16 * p.1) c
    | none => s1
  { s2 with mem := { s2.mem with
      store := (mine.filter fun p => !s.mem.lost (p.1 / 8)).foldl (fun m p => m.writeChunk p.1 p.2.1 p.2.2) s2.mem.store } }

/-- R375, R336: an accepted write performed at a target, a request at a time: 512 aligned bytes of buffer memory, a block of
memory. -/
def State.targetWrite (s : State) (loc : Loc) (a : Nat) (data : List (Byte × Bool)) (poison : List Bool) (c : Option Nat) :
    State :=
  let cs := remoteChunks a data poison
  match loc with
  | .buf => (bufRequests (data.length / 512 + 2) a data.length).foldl (fun s q => s.targetBuf c cs q) s
  | .mem => (cuts 256 (data.length / 256 + 2) a data.length).foldl (fun s q => s.targetMem c cs q) s

/-- How many chunks of a write have any byte enabled (R375). -/
def enabledChunks (data : List (Byte × Bool)) : Nat :=
  ((chunked data ((data.length + 15) / 16)).filter fun c => c.any (·.2)).length

/-- R375: an accepted remote write. -/
def State.acceptWrite (s : State) (w off : Nat) (data : List (Byte × Bool)) (poison : List Bool) : State :=
  let v := s.window w
  let s1 := match v.target with
    | some (loc, a) => s.targetWrite loc (a + 16 * off) data poison (some (s.wOwner w))
    | none => s
  let n := v.count + enabledChunks data
  let full := v.expect ≠ 0 ∧ v.count < v.expect ∧ v.expect ≤ n
  let s2 := s1.modWindow w fun v => { v with count := n, evFull := v.evFull || full }
  if full then s2.windowEvent w else s2

/-- A remote write presented at the window port (R375, R378). -/
def State.windowWrite (s : State) (w : Nat) (gen : BitVec 8) (off : Nat) (data : List (Byte × Bool)) (poison : List Bool)
    (tag : BitVec 16) : State :=
  let code := s.windowCheck w gen off data
  let s1 := if code = 0 then s.acceptWrite w off data poison
    else if 1024 ≤ w then s
    else (s.modWindow w fun v => { v with evRejected := true }).windowEvent w
  { s1 with ports := { s1.ports with wi := some (tag, BitVec.ofNat 2 code) } }

/-- R374: the ACQ_W of an opening window has been granted: STATE becomes OPEN and OPENED is set. -/
def execWindowOpened (w : BitVec 10) (s : State) : Out :=
  eventStep ((s.window w.toNat).st = .opening && (s.window w.toNat).granted) (fun s =>
    (s.modWindow w.toNat fun v => { v with st := .opened, evOpened := true }).windowEvent w.toNat) s

/-- R376: phase two of a close. -/
def execWindowCloseComplete (w : BitVec 10) (s : State) : Out :=
  eventStep ((s.window w.toNat).st = .closing) (fun s => s.finishClose w.toNat) s

/-- R375, R378. While the block has asserted PF_DONE, a write is refused with WINDOW_CLOSED (R504). -/
def execWindowWrite (w : BitVec 11) (gen : BitVec 8) (off : BitVec 20) (data : List (Byte × Bool)) (poison : List Bool)
    (tag : BitVec 16) (s : State) : Out :=
  .next (if s.boot.por then s else s.windowWrite w.toNat gen off.toNat data poison tag)

end Sys2Proof.Machine
end

