-- ==== Sys2Proof/Machine/Gate.lean ====
section
/-! DEFINITION. The starting gate, the global counter's loads, and the tick of one CCLK (R379 to R385, R59, R384). -/

namespace Sys2Proof.Machine

/-- GATE_CFG fields (R379). -/
def State.gParts (s : State) : Nat := s.gateCfg.bits 7 0
def State.gCal (s : State) : Nat := s.gateCfg.bits 19 8
def State.gTmo (s : State) : Nat := s.gateCfg.bits 29 24

/-- R380: GATE_OUT is asserted when the epoch's arrivals are complete and GATE_IN has been low since the last release. -/
def State.driveGate (s : State) : State :=
  if s.gParts ≠ 0 ∧ s.gParts ≤ s.gate.arrived ∧ s.gate.lowSeen ∧ !s.gate.out ∧ !s.power.pfEnded then
    { s with gate := { s.gate with out := true, outAt := s.now, timedOut := false } }
  else s

/-- R381: GATE is raised for every context that arrived in the epoch. -/
def State.raiseGate (s : State) : State := s.gate.arrivedCtxs.foldl (fun s c => s.raiseEvent c 5) s

/-- A gated image whose epoch has been released (R219, R381). -/
def Run.release (now : Nat) (r : Run) : Run :=
  if r.gated && !r.released then { r with released := true, metAt := some now } else r

/-- R194: an image that waits for a counter value, when the counter goes from `old` to `new`. -/
def Run.count (old new : Word) (now : Nat) (r : Run) : Run :=
  match r.goAt with
  | some v =>
    if v ≤ new then { r with metAt := r.metAt <|> some now, late := r.late || (decide (old < v) && decide (v < new)) }
    else { r with metAt := none, late := false }
  | none => r

/-- R194: the counter takes a new value. -/
def State.setGcount (s : State) (w : Word) : State :=
  let f := fun (r : Run) => if r.phase = .armed ∨ r.phase = .parked then r.count s.gcount w s.now else r
  { s with gcount := w, runs := { s.runs with
    run0 := s.runs.run0.map f, run1 := s.runs.run1.map f, parked := s.runs.parked.mapVals fun _ r => f r } }

/-- R385: gcount takes the value GCOUNT_LD, and LOADARM clears. -/
def State.loadGcount (s : State) : State :=
  { s.setGcount s.gate.gcountLd with gate := { s.gate with loadArm := false, loadDue := false } }

/-- R381: the release. GATE_OUT drops in the following PCLK. With LOADARM set, gcount is loaded at the first TCLK edge at or
after the release ACLK, one that begins with a TCLK edge included (R385). -/
def State.releaseGate (s : State) : State :=
  let s1 := s.raiseGate
  let s2 := { s1 with
    gate := { s1.gate with
      epoch := s1.gate.epoch + 1, arrived := 0, arrivedCtxs := [], riseAt := none, timedOut := false,
      lowSeen := !s1.gate.gateIn, loadDue := s1.gate.loadDue || s1.gate.loadArm, dropAt := some (aclkOf s.now) },
    runs := { s1.runs with run0 := s1.runs.run0.map (Run.release s.now), run1 := s1.runs.run1.map (Run.release s.now),
                           parked := s1.runs.parked.mapVals fun _ r => r.release s.now } }
  if s.gate.loadArm && aclkOf s.now % 8 = 0 then s2.loadGcount else s2

/-- R381: whether the release is due: CAL + 4 PCLK after the PCLK in which the rise was sampled. -/
def State.releaseDue (s : State) : Bool :=
  s.gate.out && match s.gate.riseAt with
    | some t => decide (aclkOf t + s.gCal + 4 ≤ aclkOf s.now)
    | none => false

/-- R380: an arrival of context `c`. One in the ACLK of a release belongs to the next epoch: a release that is due comes
first. -/
def State.arrive (s : State) (c : Nat) : State :=
  let s1 := if s.releaseDue then s.releaseGate else s
  let g := s1.gate
  State.driveGate { s1 with gate := { g with
    arrived := g.arrived + 1, arrivedCtxs := if g.arrivedCtxs.contains c then g.arrivedCtxs else g.arrivedCtxs ++ [c] } }

/-- R381: GATE_OUT drops in the PCLK that follows the release; the next epoch's may rise after that. -/
def State.dropGate (s : State) : State :=
  match s.gate.dropAt with
  | some p =>
    if p < aclkOf s.now then State.driveGate { s with gate := { s.gate with out := false, dropAt := none } } else s
  | none => s

/-! ## Calibration (R382) -/

/-- R382: GATE_OUT rises for the next measurement, once GATE_IN has been sampled low. -/
def State.calRaise (s : State) : State :=
  match s.gate.cal with
  | some k =>
    if k.left ≠ 0 ∧ !k.high ∧ !s.gate.gateIn then
      { s with gate := { s.gate with out := true, outAt := s.now, cal := some { k with high := true } } }
    else s
  | none => s

/-- R382: CALMODE has become 1: 16 measurements begin. -/
def State.calBegin (s : State) : State :=
  State.calRaise { s with gate := { s.gate with cal := some { left := 16, best := 0, high := false } } }

/-- R382: the rise of GATE_IN that answers a rise of GATE_OUT ends one measurement; the largest count is stored in RTT. -/
def State.calRise (s : State) (k : GateCal) : State :=
  let best := max k.best (aclkOf s.now - aclkOf s.gate.outAt)
  let k1 : GateCal := { left := k.left - 1, best := best, high := false }
  { s with gate := { s.gate with
    out := false, cal := some k1, rtt := if k1.left = 0 then BitVec.ofNat 12 best else s.gate.rtt } }

/-- R383: whether the time-out is due. -/
def State.gateTimeoutDue (s : State) : Bool :=
  s.gate.out && s.gate.cal.isNone && s.gate.dropAt.isNone && s.gate.riseAt.isNone &&
    !s.gate.timedOut && decide (aclkOf s.gate.outAt + 2 ^ s.gTmo ≤ aclkOf s.now)

/-- R381: a rise of GATE_IN is sampled: the release follows, or a measurement of R382 ends. -/
def State.gateRise (s : State) : State :=
  let s1 := { s with gate := { s.gate with gateIn := true } }
  match s.gate.cal with
  | some k => if k.high then s1.calRise k else s1
  | none => { s1 with gate := { s1.gate with riseAt := if s.gate.out && s.gate.dropAt.isNone then some s.now else none } }

/-- R381. -/
def execGateInRise (s : State) : Out := eventStep (!s.gate.gateIn) State.gateRise s

/-- R380: a fall of GATE_IN is sampled. -/
def execGateInFall (s : State) : Out :=
  eventStep s.gate.gateIn (fun s =>
    (State.driveGate { s with gate := { s.gate with gateIn := false, lowSeen := true } }).calRaise) s

/-- R381, R385. -/
def execGateRelease (s : State) : Out := eventStep s.releaseDue State.releaseGate s

/-- R383. -/
def execGateTimeout (s : State) : Out :=
  eventStep s.gateTimeoutDue (fun s =>
    let s1 := s.record { ErrRec.mk0 0x10B 0xD 8 none with info := Word.ofNat s.gate.epoch.toNat }
    let s2 := (s1.pendGroom 39).raiseGate
    { s2 with gate := { s2.gate with timeout := true, timedOut := true } }) s

/-- R384, R385: a TCLK edge of the counter. -/
def State.tclk (s : State) : State :=
  if s.gate.loadDue then s.loadGcount else s.setGcount (s.gcount + 1)

/-- One CCLK: what the block does when no command waits (DESIGN CHOICE, log entry 2). Nothing runs while PORESET_N is asserted,
and nothing more once PF_DONE is (R506). -/
def State.tick (s : State) : State :=
  if s.boot.por || s.power.pfDone then s
  else
    let s1 := State.dropGate { s with now := s.now + 1 }
    let s2 := if s1.curCtx.isSome then s1.pmcAdd 0 1 else s1
    if s2.now % 16 = 0 then s2.tclk else s2

end Sys2Proof.Machine
end

