-- ==== Sys2Proof/Machine/Mailbox.lean ====
section
/-! DEFINITION. Bridle's mailboxes: owners, areas, GO and ABORT, the order of commands and their completion (R417 to R427,
R516). -/

namespace Sys2Proof.Machine

/-- Mailbox `m` (R417). -/
def State.mbox (s : State) (m : Nat) : Mailbox := s.mboxes.get Mailbox.empty m

def State.setMbox (s : State) (m : Nat) (b : Mailbox) : State := { s with mboxes := s.mboxes.set m b }

def State.modMbox (s : State) (m : Nat) (f : Mailbox → Mailbox) : State := s.setMbox m (f (s.mbox m))

/-- R417: the owner class of a mailbox: 0 HOST, 1 BMC, 2 NET, 3 CORE. -/
def mbClass (m : Nat) : Nat := if m < 8 then 0 else if m < 12 then 1 else if m < 16 then 2 else 3

/-- R418: the active MBOX_BIND of a CORE mailbox. -/
def State.mboxBind (s : State) (m : Nat) : Word := s.cfgAct 0x50 m

/-- The context bound to a CORE mailbox, if its binding is in force. -/
def State.boundCtx (s : State) (m : Nat) : Option Nat :=
  if mbClass m = 3 && (s.mboxBind m).bit 16 then some ((s.mboxBind m).bits 9 0) else none

/-- R417, R419: whether a mailbox accepts an access of a requester. The Groom is the side that serves it (DEDUCED, log entry 32). -/
def State.mbMay (s : State) (who : Requester) (m : Nat) : Bool :=
  match who with
  | .groom _ => true
  | .regp c => mbClass m ≠ 3 && c.toNat = mbClass m
  | .core => s.curCtx.isSome && s.boundCtx m = s.curCtx
  | .ijtag => false

/-- The answer to a register read or write command (R508). -/
def State.respond (s : State) (data : Word) (err : Bool) : State :=
  { s with ports := { s.ports with rdata := data, rerr := err } }

/-- R513: what the instruments capture from an access. -/
def State.ijRespond (s : State) (data : Word) (err : Bool) : State :=
  { s with ports := { s.ports with ijdata := data, ijerr := err } }

/-- The state after an access, with the answer on the port of a requester that has one (R508, R513). A refused REGP access
pends Groom source 53 (R401). -/
def State.answer (s : State) (who : Requester) (data : Word) (ok : Bool) : State :=
  match who with
  | .regp _ => if ok then s.respond data false else (s.pendGroom 53).respond 0 true
  | .ijtag => if ok then s.ijRespond data false else s.ijRespond 0 true
  | _ => s

/-- R419: an access is refused: REFUSED counts it, and one of REGP signals an error and pends Groom source 53. -/
def State.mbRefuse (s : State) (who : Requester) : State :=
  let r := s.bridle.refused
  if who = .ijtag then s.ijRespond 0 true
  else
  let s1 := { s with bridle := { s.bridle with refused := if r = 0xFFFFFFFF then r else r + 1 } }
  s1.answer who 0 false

/-! ## Fields of the command area (R420) -/

/-- The low `n` bytes of the command area from offset `o`. -/
def Mailbox.cmdAt (b : Mailbox) (o n : Nat) : Nat := b.cmd.leAt o n

def Mailbox.opcode (b : Mailbox) : Nat := b.cmdAt 0 2
def Mailbox.len (b : Mailbox) : Nat := b.cmdAt 8 2

/-- A payload field (R420). -/
def Mailbox.pay (b : Mailbox) (o n : Nat) : Nat := b.cmdAt (0x10 + o) n

/-- R426: the status codes. -/
def mbOK : Nat := 0
def mbDEFERRED : Nat := 1
def mbBAD_OPCODE : Nat := 2
def mbBAD_LENGTH : Nat := 3
def mbBAD_FIELD : Nat := 4
def mbNOT_PERMITTED : Nat := 5
def mbBAD_STATE : Nat := 6
def mbNO_RESOURCE : Nat := 7
def mbXLATE : Nat := 8
def mbCONFLICT : Nat := 9
def mbABORTED : Nat := 10
def mbRESTARTED : Nat := 11
def mbTACK_REFUSED : Nat := 12
def mbPOWER_FAIL : Nat := 13
def mbDESC_INVALID : Nat := 14
def mbEXT_TIMEOUT : Nat := 15

/-! ## Completion (R421, R422) -/

/-- R262, R441: CODE is replaced and POST set. -/
def State.postAlert (s : State) (c code : Nat) : State :=
  if (s.ctx c).started then (s.modCtx c fun e => { e with alert := e.alert.putBits 31 16 code }).raiseAlert c 0 else s

/-- R421: the response area. -/
def responseArea (status opcode seq detail : Nat) (payload : List Byte) : Tbl Byte :=
  let bs := leBytes 2 status ++ leBytes 2 opcode ++ leBytes 4 seq ++ leBytes 2 payload.length ++ leBytes 2 detail ++
    leBytes 4 0 ++ payload
  (bs.zipIdx).foldl (fun t p => Tbl.put 0 t p.2 p.1) []

/-- R422 step 4: the command of mailbox `m` completes. -/
def State.mbDone (s : State) (m status detail : Nat) (payload : List Byte) : State :=
  let b := s.mbox m
  let b1 := { b with
    resp := responseArea status b.opcode (b.cmdAt 4 4) detail payload, st := .done,
    lastStat := BitVec.ofNat 16 status, doneCnt := b.doneCnt + 1, abortReq := false, irq := b.irq || decide (m < 8),
    held := false, waitFor := .fresh, since := 0 }
  let s1 := s.setMbox m b1
  let s2 := { s1 with bridle := { s1.bridle with goOrder := s1.bridle.goOrder.filter (· ≠ m) } }
  match s2.boundCtx m with
  | some c => if b.cmdAt 2 2 % 2 = 1 then s2.postAlert c (0xFF00 + m) else s2
  | none => s2

/-- A command that fails with a status and DETAIL, without a payload. -/
def State.mbFail (s : State) (m status detail : Nat) : State := s.mbDone m status detail []

/-! ## Checks 1 to 4 (R516, R427) -/

/-- R427: the request length of a command (none: it depends on the payload) and the classes that may issue it, as bits
HOST 1, BMC 2, NET 4, CORE 8. -/
def mbCommand (op : Nat) : Option (Option Nat × Nat) :=
  match op with
  | 0x01 => some (some 0, 15)
  | 0x10 => some (none, 15)
  | 0x11 => some (some 8, 15)
  | 0x12 => some (some 0, 15)
  | 0x13 => some (some 4, 15)
  | 0x20 => some (some 2, 13)
  | 0x21 => some (some 8, 13)
  | 0x22 => some (some 2, 13)
  | 0x23 => some (some 2, 15)
  | 0x24 => some (some 4, 13)
  | 0x25 => some (some 24, 1)
  | 0x30 => some (some 2, 13)
  | 0x31 => some (some 2, 13)
  | 0x32 => some (some 2, 13)
  | 0x33 => some (some 2, 13)
  | 0x40 => some (some 0, 15)
  | 0x41 => some (some 8, 1)
  | 0x50 => some (some 2, 15)
  | 0x51 => some (some 10, 5)
  | 0x60 => some (some 0, 5)
  | _ => none

/-- R427: the licensee opcodes. -/
def licenseeOp (op : Nat) : Bool := decide (0xE0 ≤ op) && decide (op ≤ 0xFF)

/-- R414, R416, R447: an extension is running on thread 3: thread 3 runs with TSTAT.EXT = 1. -/
def State.extRunning (s : State) : Bool :=
  let h := s.groom.threads.get GThread.reset 3
  s.groom.extOk && s.groom.extEn && !s.groom.extHalted && h.run && h.ext

/-- R516 step 2: DETAIL of the first nonzero reserved byte of the header. -/
def Mailbox.headerFault (b : Mailbox) (m : Nat) : Option Nat :=
  if b.cmdAt 2 1 / 2 ≠ 0 ∨ (m < 16 ∧ b.cmdAt 2 1 ≠ 0) then some 0x8002
  else if b.cmdAt 3 1 ≠ 0 then some 0x8003
  else (firstFrom (fun i => b.cmdAt i 1 ≠ 0) 0x0A 6).map (0x8000 + ·)

/-- R516 steps 1 to 4: the first failure, as status and DETAIL. -/
def State.mbReject (s : State) (m : Nat) : Option (Nat × Nat) :=
  let b := s.mbox m
  if licenseeOp b.opcode then
    if !s.extRunning then some (mbBAD_OPCODE, 0) else (b.headerFault m).map fun d => (mbBAD_FIELD, d)
  else match mbCommand b.opcode with
    | none => some (mbBAD_OPCODE, 0)
    | some (len, classes) =>
      match b.headerFault m with
      | some d => some (mbBAD_FIELD, d)
      | none =>
        if b.len ≠ len.getD (16 + 16 * b.pay 0 1) then some (mbBAD_LENGTH, 0)
        else if !classes.testBit (mbClass m) then some (mbNOT_PERMITTED, 0)
        else none

/-! ## GO and ABORT (R422 to R425) -/

/-- Commands are served: Bridle is ready and no PWRFAIL_N sequence runs (R422, R425). -/
def State.serves (s : State) : Bool := s.bridle.ready && !s.groom.halted && !s.power.pfail

/-- R422 step 3: the firmware takes the command of mailbox `m`; a failure of the first four checks completes it. -/
def State.mbServe (s : State) (m : Nat) : State :=
  let s1 := s.modMbox m fun b => { b with held := false }
  match s1.mbReject m with
  | some (st, d) => s1.mbFail m st d
  | none => s1

/-- R422: GO in mailbox `m`. -/
def State.mbSubmit (s : State) (m : Nat) : State :=
  let b := s.mbox m
  if b.st = .busy then s.setMbox m { b with overrun := true }
  else
    let s1 := (s.setMbox m { b with st := .busy, abortReq := false, held := true, waitFor := .fresh, since := s.now }).pendGroom m
    let s2 := { s1 with bridle := { s1.bridle with goOrder := s1.bridle.goOrder ++ [m] } }
    if s2.serves then s2.mbServe m else s2

/-- The mailbox that an offset of the mailbox area lies in (R418). -/
def mailboxOf (off : Nat) : Option Nat :=
  if 0x10000 ≤ off ∧ off < 0x18000 ∧ off % 1024 < 0x210 then some (off % 0x10000 / 1024) else none

/-- R419: an access to a mailbox that its requester may not make. An access that the mailbox accepts changes nothing here. -/
def execMailboxAccessRefused (who : Requester) (off : BitVec 24) (s : State) : Out :=
  eventStep true (fun s => match mailboxOf off.toNat with
    | some m => if s.mbMay who m then s else s.mbRefuse who
    | none => s) s

/-! ## Serving a command -/

/-- R424, R438: the opcodes that name a context. -/
def namesCtx (op : Nat) : Bool := (decide (0x20 ≤ op) && decide (op ≤ 0x24)) || (decide (0x30 ≤ op) && decide (op ≤ 0x33))

/-- R424: no earlier command that names the same context is in progress. -/
def State.mbTurn (s : State) (m : Nat) : Bool :=
  let b := s.mbox m
  !namesCtx b.opcode || !((s.bridle.goOrder.takeWhile (· ≠ m)).any fun j =>
    namesCtx (s.mbox j).opcode && (s.mbox j).pay 0 2 = b.pay 0 2)

/-- The firmware can go on with a command of mailbox `m` that has one of the opcodes `op`: Bridle is ready, the Groom is
not halted, the command was taken, and its turn has come. -/
def State.mbActive (s : State) (m : Nat) (op : Nat → Bool) : Bool :=
  let b := s.mbox m
  s.bridle.ready && !s.groom.halted && b.st = .busy && !b.held && op b.opcode && s.mbTurn m

/-- A row of the firmware's service of mailbox `m`. -/
def mbRow (m op : Nat) (f : State → State) (s : State) : Out := eventStep (s.mbActive m fun o => o = op) f s

/-- The command waits, from now on, for `w`. -/
def State.mbWait (s : State) (m : Nat) (w : MbWait) : State := s.modMbox m fun b => { b with waitFor := w, since := s.now }

/-- R24, R437: microseconds as CCLK: 2,800 each. -/
def usec (n : Nat) : Nat := 2800 * n

end Sys2Proof.Machine
end

