-- ==== Sys2Proof/Machine/Crc.lean ====
section
/-! DEFINITION. CRC-32C (R483), which the Tack journal and run images use. -/

namespace Sys2Proof.Machine

/-- One bit of the reflected Castagnoli polynomial 0x1EDC_6F41. -/
def crcBit (c : Half) : Half := if c.getLsbD 0 then (c >>> 1) ^^^ 0x82F63B78 else c >>> 1

/-- `n` bits. -/
def crcBits : (n : Nat) → Half → Half
  | 0, c => c
  | n + 1, c => crcBits n (crcBit c)

/-- One byte. -/
def crcByte (c : Half) (b : Byte) : Half := crcBits 8 (c ^^^ b.zeroExtend 32)

/-- R483: CRC-32C of a string of bytes. -/
def crc32c (bs : List Byte) : Half := (bs.foldl crcByte 0xFFFFFFFF) ^^^ 0xFFFFFFFF

end Sys2Proof.Machine
end

