-- ==== Sys2Proof/Machine/Tack.lean ====
section
/-! DEFINITION. The Tack store controller: register map, budgets, journal, commits and replay (R470 to R485). -/

namespace Sys2Proof.Machine

/-! ## Registers and budgets (R470, R478) -/

/-- R470, R472: the endurance class of a register: 0 none, 1 standard, 2 counter. -/
def tkClass (n : Nat) : Nat :=
  if (1 ≤ n ∧ n ≤ 6) ∨ (384 ≤ n ∧ n ≤ 447) then 1
  else if n = 8 ∨ n = 9 ∨ (16 ≤ n ∧ n ≤ 33) ∨ (448 ≤ n ∧ n ≤ 511) then 2
  else 0

/-- R470: the default of a register. -/
def tkDefault (n : Nat) : Word := if n = 0 then 1 else if n = 3 then 430000 else 0

/-- R478: the depth of a class, in units of 1/256 token. -/
def tkDepth (cls : Nat) : Nat := if cls = 1 then 4096 * 256 else if cls = 2 then 1048576 * 256 else 0

/-- R478: the units that a class refills in `t` TCLK of 175 MHz. -/
def tkRefill (cls t : Nat) : Nat := (if cls = 1 then 8 else if cls = 2 then 768 else 0) * t / 175000000

/-- R472, R484: the committed value of a register; fields that the store backs hold 0 before replay (R15), and a reserved
number reads 0. -/
def Tack.read (k : Tack) (n : Nat) : Word :=
  if k.ready && (n = 0 || tkClass n ≠ 0) then k.value.get (tkDefault n) n else 0

/-- R478: the level of a register at TCLK `t`. -/
def Tack.levelAt (k : Tack) (t n : Nat) : Nat :=
  min (tkDepth (tkClass n))
    (k.level.get (tkDepth (tkClass n)) n + (tkRefill (tkClass n) t - tkRefill (tkClass n) (k.stamp.get 0 n)))

/-- A register's level is set at TCLK `t`. -/
def Tack.setLevel (k : Tack) (t n v : Nat) : Tack := { k with level := k.level.set n v, stamp := k.stamp.set n t }

/-! ## The journal (R483) -/

/-- R483: the device address of slot `slot` of register `n` in copy 0 (A) or 1 (B). -/
def slotAddr (copy n slot : Nat) : Nat := copy * 0x100000 + (n * 64 + slot) * 32

/-- R483: the first 28 bytes of a record. -/
def recordBody (copy n seq : Nat) (value : Word) (level : Nat) : List Byte :=
  leBytes 2 0x4B54 ++ leBytes 2 (n + copy * 32768) ++ leBytes 4 level ++ leBytes 8 seq ++ leBytes 8 value.toNat ++ leBytes 4 0

/-- R483: a record with its CRC. -/
def recordBytes (copy n seq : Nat) (value : Word) (level : Nat) : List Byte :=
  recordBody copy n seq value level ++ leBytes 4 (crc32c (recordBody copy n seq value level)).toNat

/-- `n` bytes of the device; the model takes what nothing has written as 0 (DESIGN CHOICE, log entry 8). -/
def Tack.devRead (k : Tack) (a n : Nat) : List Byte := (List.range n).map fun i => Tbl.get 0 k.device (a + i)

/-- Bytes programmed into the device. -/
def Tack.devWrite (k : Tack) (a : Nat) (bs : List Byte) : Tack :=
  { k with device := (bs.zipIdx).foldl (fun t p => Tbl.put 0 t (a + p.2) p.1) k.device }

/-- A valid record as replay reads it. -/
structure TkRecord where
  copy : Nat
  slot : Nat
  seq : Nat
  value : Word
  level : Nat
  deriving DecidableEq, Repr

/-- R483: the record in a slot, if it is valid. -/
def Tack.record (k : Tack) (copy n slot : Nat) : Option TkRecord :=
  let bs := k.devRead (slotAddr copy n slot) 32
  let at' := fun o m => leNat ((bs.drop o).take m)
  if at' 0 2 = 0x4B54 ∧ at' 2 2 = n + copy * 32768 ∧ at' 14 2 = 0 ∧ at' 24 4 = 0 ∧
      at' 28 4 = (crc32c (bs.take 28)).toNat then
    some { copy := copy, slot := slot, seq := at' 8 6, value := Word.ofNat (at' 16 8), level := at' 4 4 }
  else none

/-- R484: the newest valid record of a register; copy A prevails between equal numbers. -/
def Tack.newest (k : Tack) (n : Nat) : Option TkRecord :=
  ((List.range 2).flatMap fun copy => (List.range 64).filterMap fun slot => k.record copy n slot).foldl
    (fun best r => match best with
      | none => some r
      | some b => if b.seq < r.seq then some r else best) none

/-- R484: the replay of one register at TCLK `t`, with the repair of the other copy. -/
def Tack.replayReg (t : Nat) (k : Tack) (n : Nat) : Tack :=
  match k.newest n with
  | none =>
    ({ k with value := k.value.set n (tkDefault n), lastSeq := k.lastSeq.set n 0, nextSlot := k.nextSlot.set n 1 }).setLevel t n
      (tkDepth (tkClass n))
  | some b =>
    let k1 := ({ k with value := k.value.set n b.value, lastSeq := k.lastSeq.set n b.seq,
                        nextSlot := k.nextSlot.set n ((b.slot + 1) % 64) }).setLevel t n b.level
    match k.record (1 - b.copy) n b.slot with
    | some o => if o.seq = b.seq ∧ o.value = b.value ∧ o.level = b.level then k1 else
        { k1.devWrite (slotAddr (1 - b.copy) n b.slot) (recordBytes (1 - b.copy) n b.seq b.value b.level) with
          repairs := k1.repairs + 1 }
    | none =>
        { k1.devWrite (slotAddr (1 - b.copy) n b.slot) (recordBytes (1 - b.copy) n b.seq b.value b.level) with
          repairs := k1.repairs + 1 }

/-- The registers that replay visits: those in use (R484). -/
def tkRegs : List Nat := (List.range 512).filter fun n => tkClass n ≠ 0

/-- R483: the 32 bytes of the format header. -/
def formatHeader : List Byte :=
  let b := leBytes 4 0x4B434154 ++ leBytes 4 1 ++ List.replicate 20 0
  b ++ leBytes 4 (crc32c b).toNat

/-- R483: whether either header copy is valid. -/
def Tack.headerOk (k : Tack) : Bool := k.devRead 0x200000 32 = formatHeader || k.devRead 0x201000 32 = formatHeader

/-- R483: whether any record of the journal is valid. -/
def Tack.anyRecord (k : Tack) : Bool := (List.range 512).any fun n => (k.newest n).isSome

/-- R481: the device fails at start-up when its format header does not match and it is not blank. -/
def Tack.formatFails (k : Tack) : Bool := !k.headerOk && k.anyRecord

/-- R483, R484: start-up's replay. A blank device receives both header copies. -/
def Tack.replay (k : Tack) (t : Nat) : Tack :=
  let k0 := if k.headerOk then k else (k.devWrite 0x200000 formatHeader).devWrite 0x201000 formatHeader
  { tkRegs.foldl (Tack.replayReg t) k0 with ready := true }

/-! ## Writes (R473 to R476) -/

/-- R474: the value that ROLLBACK will hold after the writes queued. -/
def Tack.rollbackNext (k : Tack) : Word :=
  match (k.queue.filter fun w => w.reg = 2).getLast? with
  | some w => w.value
  | none => k.read 2

/-- R474: the refusal of a write before its budget is considered. -/
def Tack.refusal (k : Tack) (n : Nat) (v : Word) : Option Nat :=
  if !k.ready then some 2
  else if k.sealedNow then some 6
  else if k.devFail then some 5
  else if tkClass n = 0 then some 3
  else if n = 2 ∧ v < k.rollbackNext then some 4
  else none

/-- R475: whether a queued write that has not started can be replaced. The first in the queue is the commit in progress. -/
def Tack.mergeable (k : Tack) (n : Nat) : Bool := tkClass n = 2 && (k.queue.drop 1).any fun w => w.reg = n

/-- The last queued write of a register takes a new value and another writer. -/
def mergeWrite (n : Nat) (v : Word) (srcs : List TkSrc) (q : List TkWrite) : List TkWrite :=
  q.map fun w => if w.reg = n then { w with value := v, srcs := w.srcs ++ srcs } else w

/-- A refused or completed write: its code, its register and its writers. -/
structure TkEnd where
  code : Nat
  reg : Nat
  srcs : List TkSrc
  deriving DecidableEq, Repr

/-- R475, R478: a write that reaches the queue at TCLK `t`: accepted, merged or refused. -/
def Tack.accept (k : Tack) (t : Nat) (w : TkWrite) : Option TkEnd × Tack :=
  match k.refusal w.reg w.value with
  | some c => (some ⟨c, w.reg, w.srcs⟩, k)
  | none =>
    if k.mergeable w.reg then
      (none, { k with queue := k.queue.take 1 ++ mergeWrite w.reg w.value w.srcs (k.queue.drop 1) })
    else if k.levelAt t w.reg < 256 then (some ⟨1, w.reg, w.srcs⟩, k)
    else (none, { k.setLevel t w.reg (k.levelAt t w.reg - 256) with queue := k.queue ++ [w] })

/-- R325, R470, R489, R16: the bits of a register that a write changes: those of WAYMAP, ROLLBACK and CLOCK_CAL above their
fields stay 0. -/
def tkMask (n : Nat) : Word :=
  if n = 1 then 0xFFFFFFF else if n = 2 then 0xFFFFFFFF else if n = 6 then 0x1FFF else BitVec.allOnes 64

/-- R475: a write arrives; one that finds the queue full is held. -/
def Tack.write (k : Tack) (t : Nat) (w0 : TkWrite) : Option TkEnd × Tack :=
  let w := { w0 with value := w0.value &&& tkMask w0.reg }
  if 8 ≤ k.queue.length then (none, { k with heldW := k.heldW ++ [w] }) else k.accept t w

/-- R475: held writes are taken while an entry is free. -/
def Tack.drainHeld (t : Nat) : (n : Nat) → Tack → List TkEnd × Tack
  | 0, k => ([], k)
  | n + 1, k =>
    match k.heldW with
    | [] => ([], k)
    | w :: ws =>
      if 8 ≤ k.queue.length then ([], k)
      else
        let (e, k1) := ({ k with heldW := ws }).accept t w
        let (es, k2) := Tack.drainHeld t n k1
        (e.toList ++ es, k2)

/-- The next slot of a register, from `slot` on, that is not marked bad in a copy (R476). -/
def Tack.goodSlot (k : Tack) (copy n slot : Nat) : Nat :=
  (firstFrom (fun i => !(k.bad.get false (copy * 32768 + n * 64 + i % 64))) slot 64).getD slot % 64

/-- R476: the tries of one copy, of which the first `fails` do not read back. A slot that failed is left without a valid
record (DESIGN CHOICE, log entry 31). Answers whether the record was programmed, and the slot last tried. -/
def Tack.program (copy n seq : Nat) (v : Word) (level : Nat) : (fails : Nat) → (left : Nat) → Nat → Tack → Bool × Nat × Tack
  | _, 0, slot, k => (false, slot, k)
  | 0, _ + 1, slot, k => (true, slot, k.devWrite (slotAddr copy n slot) (recordBytes copy n seq v level))
  | f + 1, left + 1, slot, k =>
    let k1 := k.devWrite (slotAddr copy n slot) (List.replicate 32 0)
    let k2 := { k1 with bad := k1.bad.set (copy * 32768 + n * 64 + slot) true, badSlots := k1.badSlots + 1 }
    if left = 0 then (false, slot, k2) else Tack.program copy n seq v level f left (k2.goodSlot copy n slot) k2

/-- R478: the level that a record states: that of its register now, with the tokens of the writes queued behind given back. -/
def Tack.recordLevel (k : Tack) (t n : Nat) : Nat :=
  min (tkDepth (tkClass n)) (k.levelAt t n + 256 * ((k.queue.drop 1).filter fun w => w.reg = n).length)

/-- R476: the outcome of the commit at the front of the queue: its code, the slot last tried in copy A, and the store. -/
def Tack.commitHead (k : Tack) (t : Nat) (w : TkWrite) (failA failB : Nat) : Nat × Nat × Tack :=
  let seq := k.lastSeq.get 0 w.reg + 1
  let level := k.recordLevel t w.reg
  let slot := k.goodSlot 0 w.reg (k.nextSlot.get 1 w.reg)
  match Tack.program 0 w.reg seq w.value level failA 3 slot k with
  | (false, sl, k1) => (5, sl, { k1 with devFail := true })
  | (true, sl, k1) =>
    let (okB, slB, k2) := Tack.program 1 w.reg seq w.value level failB 3 (k1.goodSlot 1 w.reg sl) k1
    (0, sl, { k2 with
      single := k2.single || !okB, value := k2.value.set w.reg w.value, lastSeq := k2.lastSeq.set w.reg seq,
      nextSlot := k2.nextSlot.set w.reg (((if okB then slB else sl) + 1) % 64) })

/-- R475, R476: one queued commit completes. Answers the writes that end with it and, on a device failure, the device
address concerned. -/
def Tack.commit (k : Tack) (t failA failB : Nat) : List TkEnd × Option Nat × Tack :=
  match k.queue with
  | [] => ([], none, k)
  | w :: ws =>
    let (code, slot, k1) := k.commitHead t w failA failB
    let (es, k2) := Tack.drainHeld t 512 { k1 with queue := ws }
    (⟨code, w.reg, w.srcs⟩ :: es, if code = 5 then some (slotAddr 0 w.reg slot) else none, k2)

/-- R485: what a reset during the commit in progress leaves in the device. -/
def Tack.cut (k : Tack) (t : Nat) (c : CommitCut) : Tbl Byte :=
  match k.queue with
  | [] => k.device
  | w :: _ =>
    let seq := k.lastSeq.get 0 w.reg + 1
    let level := k.recordLevel t w.reg
    let slot := k.goodSlot 0 w.reg (k.nextSlot.get 1 w.reg)
    let a := k.devWrite (slotAddr 0 w.reg slot) (recordBytes 0 w.reg seq w.value level)
    match c with
    | .notStarted => k.device
    | .programmingA => (k.devWrite (slotAddr 0 w.reg slot) (List.replicate 32 0)).device
    | .verifiedA => a.device
    | .verifiedBoth => (a.devWrite (slotAddr 1 w.reg slot) (recordBytes 1 w.reg seq w.value level)).device

end Sys2Proof.Machine
end

