-- ==== Sys2Proof/Machine/Commit.lean ====
section
/-! DEFINITION. Writes of the Tack store by the block (R473 to R476, R486) and configuration sets: staging, commit and the
gate point (R428 to R437). -/

namespace Sys2Proof.Machine

/-! ## Configuration items (R429) -/

/-- R429: the defined bits of an item's VALUE, the classes that may stage it (HOST 1, BMC 2, NET 4, CORE 8) and whether its
scope is SADDLES; none where the item or its index does not exist. `true` in the error: the index is at fault. -/
def itemInfo (item index : Nat) : Except Bool (Word × Nat × Bool) :=
  let at' := fun (ok : Bool) (mask : Word) (cls : Nat) (sad : Bool) => if ok then Except.ok (mask, cls, sad) else .error true
  match item with
  | 0x01 => at' (index = 0) 0xFFFFFFFFFF000 1 false
  | 0x02 => at' (index = 0) 0xFFFFFFFF 5 false
  | 0x03 => at' (index = 0) 0xFFFFFFFF 5 false
  | 0x10 => at' (decide (index < 16)) 0xFFFFFFFFF0007 1 true
  | 0x11 => at' (decide (index < 16)) 0xFFFFFFFFF0000 1 true
  | 0x20 => at' (decide (index < 4096)) 0x3FF1F0F 13 false
  | 0x21 => at' (decide (index < 4096)) 0xFFFFFFFFFFC00 13 false
  | 0x22 => at' (decide (index < 4096)) 0xFFFFFFFFFFE00 13 false
  | 0x28 => at' (decide (index < 1024)) 0x3FF0001 13 false
  | 0x30 => at' (index = 0) 0xFFFFFF3F1FFFFF 5 true
  | 0x40 => at' (index = 0) 0x7FFFF 7 false
  | 0x50 => at' (decide (16 ≤ index) && decide (index < 32)) 0x103FF 1 false
  | 0x70 =>
    match index with
    | 0x3 => .ok (0x10001, 1, false)
    | 0xC000 => .ok (0x7FFFF, 1, false)
    | 0xC003 => .ok (0xFFFFFF, 1, false)
    | _ => .error true
  | _ => .error false

/-- R432: whether a value keeps its own register's rules (R267, R352, R363, R379, R429, R498). -/
def itemValueOk (it : CfgItem) : Bool :=
  let v := it.value
  match it.item with
  | 0x02 => v = 0 || decide (256 ≤ v.toNat)
  | 0x03 => decide (1024 ≤ v.toNat)
  | 0x20 => decide (4 ≤ v.bits 12 8) && decide (v.bits 12 8 ≤ 16)
  | 0x30 => decide (10 ≤ v.bits 29 24) && decide (v.bits 29 24 ≤ 40)
  | 0x40 => decide (1 ≤ v.toNat) && decide (v.toNat ≤ 430000)
  | 0x70 =>
    if it.index = 0xC000 then decide (1 ≤ v.toNat) && decide (v.toNat ≤ 430000)
    else if it.index = 0xC003 then
      decide (v.bits 7 0 < v.bits 15 8) && decide (1 ≤ v.bits 23 16) && decide (v.bits 23 16 ≤ 20)
    else true
  | _ => true

/-- Whether two items have one ITEM and one INDEX (R430). -/
def CfgItem.same (a b : CfgItem) : Bool := a.item = b.item && a.index = b.index

/-- R430: an item enters a set; one already there is replaced in its place. -/
def addItem (set : List CfgItem) (it : CfgItem) : List CfgItem :=
  if set.any it.same then set.map fun x => if it.same x then it else x else set ++ [it]

/-- Item `n` of a CFG_STAGE payload (R437). -/
def Mailbox.item (b : Mailbox) (n : Nat) : CfgItem :=
  { item := b.pay (16 + 16 * n) 2, index := b.pay (18 + 16 * n) 2, value := Word.ofNat (b.pay (24 + 16 * n) 8) }

/-- R430: the first failure of item `n`, as status and DETAIL. A nonzero reserved word lies between class and VALUE. -/
def Mailbox.itemFault (b : Mailbox) (m n : Nat) : Option (Nat × Nat) :=
  let it := b.item n
  match itemInfo it.item it.index with
  | .error false => some (mbBAD_FIELD, 16 + 16 * n)
  | .error true => some (mbBAD_FIELD, 18 + 16 * n)
  | .ok (mask, classes, _) =>
    if !classes.testBit (mbClass m) then some (mbNOT_PERMITTED, 16 + 16 * n)
    else if b.pay (20 + 16 * n) 4 ≠ 0 then some (mbBAD_FIELD, 20 + 16 * n)
    else if it.value &&& ~~~mask ≠ 0 then some (mbBAD_FIELD, 24 + 16 * n)
    else none

/-- R428: the items that the sets of every mailbox hold. -/
def State.poolUsed (s : State) : Nat := (s.mboxes.map fun p => p.2.set.length).sum

/-- R430, R437. -/
def execCfgStage (m : BitVec 5) (s : State) : Out :=
  mbRow m.toNat 0x10 (fun s =>
    let b := s.mbox m.toNat
    let n := b.pay 0 1
    if n = 0 ∨ 14 < n then s.mbFail m.toNat mbBAD_FIELD 0
    else match firstFrom (fun i => b.pay i 1 ≠ 0) 1 15 with
      | some i => s.mbFail m.toNat mbBAD_FIELD i
      | none =>
        match (List.range n).findSome? fun i => b.itemFault m.toNat i with
        | some (st, d) => s.mbFail m.toNat st d
        | none =>
          let set := ((List.range n).map b.item).foldl addItem b.set
          if 4096 < s.poolUsed - b.set.length + set.length then s.mbFail m.toNat mbNO_RESOURCE 0
          else (s.setMbox m.toNat { b with set := set }).mbDone m.toNat mbOK 0 (leBytes 4 set.length)) s

/-- R437. -/
def execCfgDiscard (m : BitVec 5) (s : State) : Out :=
  mbRow m.toNat 0x12 (fun s => (s.modMbox m.toNat fun b => { b with set := [] }).mbDone m.toNat mbOK 0 []) s

/-- R437. -/
def execCfgRead (m : BitVec 5) (s : State) : Out :=
  mbRow m.toNat 0x13 (fun s =>
    let b := s.mbox m.toNat
    let item := b.pay 0 2
    let index := b.pay 2 2
    match itemInfo item index with
    | .error false => s.mbFail m.toNat mbBAD_FIELD 0
    | .error true => s.mbFail m.toNat mbBAD_FIELD 2
    | .ok _ =>
      let act := s.cfgAct item index
      let inSet := b.set.find? fun x => x.item = item && x.index = index
      s.mbDone m.toNat mbOK 0 (leBytes 8 act.toNat ++ leBytes 8 ((inSet.map (·.value)).getD act).toNat ++
        leBytes 1 inSet.isSome.toNat)) s

/-! ## Writes of the Tack store -/

/-- R384: the copy of the global counter that loads do not change, in TCLK. -/
def State.tclkNow (s : State) : Nat := s.now / 16

/-- R474: the status of writes that end: TK_WSTAT and Groom source 37. -/
def State.tkEnds (s : State) (es : List TkEnd) : State :=
  es.foldl (fun s e =>
    ({ s with tack := { s.tack with wcode := BitVec.ofNat 8 e.code, wreg := e.reg } }).pendGroom 37) s

/-- The controller's state, with TK_CS_N, which is low while a commit is in progress (DESIGN CHOICE, log entry 111). -/
def State.setTack (s : State) (k : Tack) : State :=
  { s with tack := k, ports := { s.ports with tkCsN := k.queue.isEmpty } }

/-- A write reaches the controller; a refusal is answered at once. -/
def State.tackRaw (s : State) (n : Nat) (v : Word) (src : TkSrc) : Option TkEnd × State :=
  let (e, k) := s.tack.write s.tclkNow ⟨n, v, [src]⟩
  (e, (s.setTack k).tkEnds e.toList)

/-- R14, R22, R470: the fields of Tack registers that an item's VALUE holds. -/
def rwpFields (it : CfgItem) : List StageOp :=
  let v := it.value
  if it.item = 0x40 ∨ (it.item = 0x70 ∧ it.index = 0xC000) then [.reg 3 18 0 (v.bits 18 0)]
  else if it.item = 0x30 then [.reg 4 11 0 (v.bits 19 8), .reg 5 23 0 (v.bits 55 32)]
  else []

/-- R470: the bits of an item's VALUE that are views of Tack registers. -/
def rwpMask (it : CfgItem) : Word := rwpBits it.item it.index

/-- R431, R476: the staged copies of a set's items equal their active values again; a view of a Tack register shows the
committed value until a write of it completes. -/
def State.unstage (s : State) (set : List CfgItem) : State :=
  set.foldl (fun s it =>
    { s with cfg := { s.cfg with staged := s.cfg.staged.set (cfgKey it.item it.index) (s.cfg.unstaged it.item it.index) } }) s

/-- R470: register `n` with a field of it written; its other bits are those of the committed value. -/
def State.fieldWord (s : State) (n hi lo v : Nat) : Word := (s.tack.read n).putBits hi lo v

/-- R431: an RWP field that the Tack store has committed is written again with the item's active value. -/
def State.rewriteField (s : State) : StageOp → State
  | .item _ => s
  | .reg n hi lo v => if (s.tack.read n).bits hi lo = v then s else (s.tackRaw n (s.fieldWord n hi lo v) .firmware).2

/-- R431: each RWP item that was committed is written again with its active value. -/
def State.rewriteRwp (s : State) (set : List CfgItem) : State :=
  (set.flatMap fun it => rwpFields { it with value := s.cfgAct it.item it.index }).foldl State.rewriteField s

/-- R437: BLOCKER as the saddles stand. No unit of R434 is ever busy between commands. -/
def State.blocker (s : State) : Nat := s.runs.run0.isSome.toNat + s.runs.run1.isSome.toNat * 2

/-- R437: the response payload of CFG_COMMIT. -/
def commitPayload (applied blocker : Nat) (gstamp : Word) : List Byte :=
  leBytes 4 applied ++ leBytes 4 blocker ++ leBytes 8 gstamp.toNat

/-- R431: a commit whose staged copies were written ends without applying; the set stays staged in the mailbox. -/
def State.commitUndo (s : State) (m status detail blocker : Nat) : State :=
  let set := (s.mbox m).set
  let s1 := (s.unstage set).rewriteRwp set
  ({ s1 with bridle := { s1.bridle with commit := none } }).mbDone m status detail (commitPayload 0 blocker 0)

/-- R14, R470, R476: the staged copies of the fields that register `n` backs take the committed value. -/
def State.viewReg (s : State) (n : Nat) : State :=
  let put := fun (item : Nat) (v : Word) => { s with cfg := { s.cfg with staged := s.cfg.staged.set (cfgKey item 0) v } }
  let g := s.cfg.stg 0x30 0
  if n = 3 then put 0x40 (Word.ofNat ((s.tack.read 3).bits 18 0))
  else if n = 4 then put 0x30 (g.putBits 19 8 ((s.tack.read 4).bits 11 0))
  else if n = 5 then put 0x30 (g.putBits 55 32 ((s.tack.read 5).bits 23 0))
  else s

/-! ## Staging by a commit (R431) -/

/-- The writes that the commit in progress has still to begin. -/
def State.setTodo (s : State) (c : Commit) (todo : List StageOp) : State :=
  { s with bridle := { s.bridle with commit := some { c with todo := todo } } }

/-- R14, R431, R470, R476: an item is written into its staged copy; the fields that Tack registers back follow, each shown
there once it is committed. -/
def State.stageItem (s : State) (it : CfgItem) : State :=
  let v := (it.value &&& ~~~(rwpMask it)) ||| (s.cfg.stg it.item it.index &&& rwpMask it)
  { s with cfg := { s.cfg with staged := s.cfg.staged.set (cfgKey it.item it.index) v } }

/-- Whether a write of a field changes its register (R470): the committed value, or one on its way, differs. -/
def State.fieldChanges (s : State) (n hi lo v : Nat) : Bool :=
  (s.tack.read n).bits hi lo ≠ v || (s.tack.queue ++ s.tack.heldW).any fun w => w.reg = n

/-- R431: the commit in progress writes its items in set order. The write of a Tack register is awaited; one that is refused
ends the commit, and no further item is written. `fuel` bounds the writes. -/
def stageNext : (fuel : Nat) → State → State
  | 0, s => s
  | fuel + 1, s =>
    match s.bridle.commit with
    | none => s
    | some c =>
      match c.todo with
      | [] => s
      | .item it :: rest => stageNext fuel ((s.stageItem it).setTodo c (rwpFields it ++ rest))
      | .reg n hi lo v :: rest =>
        let s1 := s.setTodo c rest
        if s.fieldChanges n hi lo v then
          match s1.tackRaw n (s1.fieldWord n hi lo v) (.commitItem c.m) with
          | (some e, s2) => s2.commitUndo c.m mbTACK_REFUSED e.code 0
          | (none, s2) => s2
        else stageNext fuel (s1.viewReg n)

def State.stageOn (s : State) : State :=
  match s.bridle.commit with
  | none => s
  | some c => stageNext (3 * c.todo.length + 1) s

/-- What the end of a Tack write means for its writer (R431, R444, R445). -/
def State.tackNotifyOne (s : State) (code : Nat) (src : TkSrc) : State :=
  match src with
  | .groom _ | .field _ | .firmware | .history => s
  | .mailbox m =>
    if (s.mbox m).st = .busy ∧ (s.mbox m).waitFor = .tack then
      if code = 0 then s.mbDone m mbOK 0 [] else s.mbFail m mbTACK_REFUSED code
    else s
  | .commitItem m =>
    if s.bridle.commit.map (·.m) = some m then if code = 0 then s.stageOn else s.commitUndo m mbTACK_REFUSED code 0 else s

/-- One ended write: the fields that its register backs show the new value, and its writers go on. -/
def State.tackNotifyEnd (s : State) (e : TkEnd) : State :=
  e.srcs.foldl (fun s src => s.tackNotifyOne e.code src) (if e.code = 0 then s.viewReg e.reg else s)

/-- The units and mailboxes concerned by ended writes. -/
def State.tackNotify (s : State) (es : List TkEnd) : State := es.foldl State.tackNotifyEnd s

/-- A write of a Tack register by a unit of the block. -/
def State.tackWrite (s : State) (n : Nat) (v : Word) (src : TkSrc) : State :=
  let (e, s1) := s.tackRaw n v src
  s1.tackNotify e.toList

/-- R473: a write to the low half is held in the thread's staging word. -/
def State.tkLow (s : State) (t n : Nat) (v : Half) : State :=
  { s with tack := { s.tack with staging := s.tack.staging.set t (n, v) } }

/-- R473: a staged half of another register is discarded. -/
def State.tkDiscard (s : State) (t : Nat) : State := { s with tack := { s.tack with staging := s.tack.staging.del t } }

/-- Whether a write of thread `t` is held for a full queue. -/
def State.tkHolds (s : State) (t : Nat) : Bool :=
  s.tack.heldW.any fun w => w.srcs.contains (.groom t) || w.srcs.contains (.field t)

/-- R475: a thread whose write is held is held with it. -/
def State.tkHoldThread (s : State) (t : Nat) : State :=
  if s.tkHolds t then
    { s with groom := { s.groom with
      threads := s.groom.threads.set t { s.groom.threads.get GThread.reset t with held := some ⟨none⟩ } } }
  else s

/-- R473: a write to the high half is one write of both halves. A write that is held for a full queue holds the thread
(R475). -/
def State.tkHigh (s : State) (t n : Nat) (v : Half) : State :=
  let (r, lo) := s.tack.staging.get (512, 0) t
  let low := if r = n then lo.toNat else (s.tack.read n).bits 31 0
  ((s.tkDiscard t).tackWrite n (Word.ofNat (low + v.toNat * 2 ^ 32)) (.groom t)).tkHoldThread t

/-- R462: the firmware's addition to a history register has been committed: what it added is no longer kept. -/
def State.historyAdded (s : State) (w : TkWrite) (old : Word) : State :=
  let p := w.reg - 16
  let left := if w.value = BitVec.allOnes 64 then 0 else s.ras.counts.get 0 p - (w.value.toNat - old.toNat)
  if w.srcs.getLast? = some .history then { s with ras := { s.ras with counts := s.ras.counts.set p left } } else s

/-- R476: one queued commit completes; `failA` and `failB` count the tries of each copy that do not read back. -/
def State.tackCommit (s : State) (failA failB : Nat) : State :=
  let (es, bad, k) := s.tack.commit s.tclkNow failA failB
  let s1 := match s.tack.queue.head? with
    | some w => if bad.isNone then (s.setTack k).historyAdded w (s.tack.read w.reg) else s.setTack k
    | none => s.setTack k
  let s2 := match bad with
    | some a => s1.record { ErrRec.mk0 0x102 0xF 8 none with addr := Word.ofNat a }
    | none => s1
  (s2.tkEnds es).tackNotify es

def execTackCommit (failA failB : BitVec 2) (s : State) : Out :=
  eventStep (!s.tack.queue.isEmpty) (fun s => s.tackCommit failA.toNat failB.toNat) s

/-- R486: from sealing, every new write is refused. -/
def State.tkSealNow (s : State) : State := { s with tack := { s.tack with sealedNow := true } }

/-- R486: sealing on its own 800 µs after the assertion. -/
def execTackAutoSeal (s : State) : Out :=
  eventStep (s.power.pfail && decide (s.power.pfAt + usec 800 ≤ s.now)) State.tkSealNow s

/-! ## Checks of a commit (R432) -/

/-- The active state that a set would produce. -/
def State.produce (s : State) (set : List CfgItem) : State :=
  { s with cfg := { s.cfg with active := set.foldl (fun t it => t.set (cfgKey it.item it.index) it.value) s.cfg.active } }

/-- What a rule between items can be broken by. -/
inductive CfgObj where
  | queue (q : Nat) | window (w : Nat) | table | mailbox (m : Nat) | ctx (c : Nat)
  deriving DecidableEq, Repr

/-- R432: whether an item names an object. -/
def CfgItem.names (it : CfgItem) : CfgObj → Bool
  | .queue q => decide (0x20 ≤ it.item) && decide (it.item ≤ 0x22) && it.index = q
  | .window w => it.item = 0x28 && it.index = w
  | .table => it.item = 0x01
  | .mailbox m => it.item = 0x50 && it.index = m
  | .ctx c =>
    ((it.item = 0x20 || it.item = 0x28) && it.value.bits 25 16 = c) || (it.item = 0x50 && it.value.bits 9 0 = c)

/-- The queues and windows that a state's configuration enables, or that its tables list. -/
def State.cfgIndexes (s : State) (item : Nat) : List Nat :=
  (s.cfg.active.filter fun p => p.1 / 65536 = item).map (·.1 % 65536)

/-- R432, first rule: queues whose rings change while they stay enabled (R363). -/
def State.ringChanged (old new : State) : List CfgObj :=
  ((new.cfgIndexes 0x20).filter fun q =>
    old.qEn q && new.qEn q &&
    (old.qLog2 q != new.qLog2 q || old.qring q != new.qring q || old.qcring q != new.qcring q)).map .queue

/-- R432, second rule: enabled queues and the context table that break R252 or R363 under the resulting map. -/
def State.badPlaces (new : State) : List CfgObj :=
  (((new.cfgIndexes 0x20).filter fun q =>
    new.qEn q &&
    ((new.qring q).toNat % (64 * 2 ^ new.qLog2 q) != 0 || (new.qcring q).toNat % (32 * 2 ^ new.qLog2 q) != 0 ||
     !new.allMemory (new.qring q).toNat (64 * 2 ^ new.qLog2 q) ||
     !new.allMemory (new.qcring q).toNat (32 * 2 ^ new.qLog2 q))).map .queue) ++
  (if new.cfgAct 1 0 ≠ 0 ∧ !new.allMemory (new.cfgAct 1 0).toNat 0x40000 then [.table] else [])

/-- R432, third rule: enabled queues and windows that name a FREE context, and the context. -/
def State.freeOwners (new : State) : List CfgObj :=
  ((new.cfgIndexes 0x20).filter fun q => new.qEn q && (new.ctx (new.qCtx q)).mode = .free).flatMap
    (fun q => [.queue q, .ctx (new.qCtx q)]) ++
  ((new.cfgIndexes 0x28).filter fun w => new.wEn w && (new.ctx (new.wOwner w)).mode = .free).flatMap
    fun w => [.window w, .ctx (new.wOwner w)]

/-- R432, fourth rule: CORE mailboxes that share a bound context with another, and the context. -/
def State.sharedBinds (new : State) : List CfgObj :=
  ((List.range 16).filter fun i =>
    (new.boundCtx (16 + i)).isSome &&
    (List.range 16).any fun j => i ≠ j && new.boundCtx (16 + i) = new.boundCtx (16 + j)).flatMap fun i =>
      .mailbox (16 + i) :: ((new.boundCtx (16 + i)).map CfgObj.ctx).toList

/-- Whether an item changes the attribute map. -/
def CfgItem.isMap (it : CfgItem) : Bool := it.item = 0x10 || it.item = 0x11

/-- R432: whether an attribute map item's change breaks the second rule: without it some object would keep the rule, or alone
among the map's changes it breaks it. -/
def State.mapBreaks (s : State) (set : List CfgItem) (it : CfgItem) : Bool :=
  let bad := (s.produce set).badPlaces
  let without := (s.produce (set.filter fun x => !it.same x)).badPlaces
  let alone := (s.produce (set.filter fun x => !x.isMap || it.same x)).badPlaces
  let kept := (s.produce (set.filter fun x => !x.isMap)).badPlaces
  it.isMap && bad.any fun o => !without.contains o || (alone.contains o && !kept.contains o)

/-- R432: the position of the first item that a broken rule involves. Where no item alone breaks it, the changes of the map
break it together, and each is involved. -/
def conflictAt (set : List CfgItem) (objs : List CfgObj) (map : CfgItem → Bool) : Option Nat :=
  if objs.isEmpty then none
  else some (((set.findIdx? fun it => objs.any it.names || map it).orElse fun _ => set.findIdx? CfgItem.isMap).getD 0)

/-- R432: the first failure of a commit, as status and DETAIL. -/
def State.commitFault (s : State) (set : List CfgItem) : Option (Nat × Nat) :=
  match set.findIdx? fun it => !itemValueOk it with
  | some i => some (mbBAD_FIELD, i)
  | none =>
    let new := s.produce set
    let no := fun _ => false
    ((conflictAt set (s.ringChanged new) no).orElse fun _ =>
      (conflictAt set new.badPlaces (s.mapBreaks set)).orElse fun _ =>
      (conflictAt set new.freeOwners no).orElse fun _ => conflictAt set new.sharedBinds no).map fun i => (mbCONFLICT, i)

/-! ## Commit and gate point (R431, R433) -/

/-- R431: the commit's turn has come. -/
def State.commitTurn (s : State) (m : Nat) : State :=
  let b := s.mbox m
  let earlier := (s.bridle.goOrder.takeWhile (· ≠ m)).any fun j => (s.mbox j).opcode = 0x11
  if s.bridle.commit.isSome ∨ earlier then s
  else if b.abortReq then s.mbDone m mbABORTED 0 (commitPayload 0 s.blocker 0)
  else if b.since + usec (b.pay 0 4) < s.now then s.mbDone m mbDEFERRED 0 (commitPayload 0 s.blocker 0)
  else
    let c : Commit :=
      { m := m, t0 := b.since, deadline := b.since + usec (b.pay 0 4), hold := b.pay 4 4 % 2 = 1, todo := b.set.map .item }
    ({ s with bridle := { s.bridle with commit := some c } }.modMbox m fun b => { b with waitFor := .committing }).stageOn

/-- R431, R437: a CFG_COMMIT begins. -/
def State.commitBegin (s : State) (m : Nat) : State :=
  let b := s.mbox m
  if 1000000 < b.pay 0 4 then s.mbFail m mbBAD_FIELD 0
  else if b.pay 4 4 / 2 ≠ 0 then s.mbFail m mbBAD_FIELD 4
  else if b.set.isEmpty then s.mbDone m mbOK 0 (commitPayload 0 0 s.gcount)
  else match s.commitFault b.set with
    | some (st, d) => s.mbDone m st d (commitPayload 0 0 0)
    | none => (s.mbWait m .turn).commitTurn m

/-- R431. Presented again while it waits for its turn, the command goes on when the turn has come. -/
def execCfgCommit (m : BitVec 5) (s : State) : Out :=
  mbRow m.toNat 0x11 (fun s =>
    match (s.mbox m.toNat).waitFor with
    | .fresh => s.commitBegin m.toNat
    | .turn => s.commitTurn m.toNat
    | _ => s) s

/-- R431: the deadline passes, or ABORT acts as the deadline, in either wait. -/
def execCfgCommitDeadline (m : BitVec 5) (s : State) : Out :=
  mbRow m.toNat 0x11 (fun s =>
    let b := s.mbox m.toNat
    match b.waitFor, s.bridle.commit with
    | .turn, _ => if b.abortReq then s.mbDone m.toNat mbABORTED 0 (commitPayload 0 s.blocker 0) else s
    | .committing, some c =>
      if c.m = m.toNat ∧ s.stagedAll c then
        if b.abortReq then s.commitUndo c.m mbABORTED 0 s.blocker
        else if c.deadline ≤ s.now then s.commitUndo c.m mbDEFERRED 0 s.blocker
        else s
      else s
    | _, _ => s) s

/-- R429: a set with an item of SADDLES scope needs both saddles without an admitted run. -/
def saddlesScope (set : List CfgItem) : Bool :=
  set.any fun it => match itemInfo it.item it.index with
    | .ok (_, _, sad) => sad
    | .error _ => false

/-- R377: a window is closed at a gate point, both phases: one that is closing already is finished first. -/
def State.closeAtGate (s : State) (w : Nat) : State := (s.closeWindow w true).finishClose w

/-- R370, R377: what happens before the values of an item change. -/
def State.beforeApply (s : State) (it : CfgItem) : State :=
  if it.item = 0x20 then
    if s.qEn it.index && !it.value.bit 0 then s.disableQueue it.index else s
  else if it.item = 0x28 then
    if (s.window it.index).st ≠ .closed ∧ (!it.value.bit 0 ∨ it.value.bits 25 16 ≠ s.wOwner it.index) then
      s.closeAtGate it.index
    else s
  else s

/-- R382: what follows a change of GATE_CFG: CALMODE begins or ends the calibration, and PARTS may complete an epoch. -/
def State.afterGate (s : State) (old : Word) : State :=
  if !old.bit 20 && s.gateCfg.bit 20 then s.calBegin
  else if old.bit 20 && !s.gateCfg.bit 20 then
    State.driveGate { s with gate := { s.gate with out := s.gate.out && s.gate.cal.isNone, cal := none } }
  else s.driveGate

/-- R364, R370: what follows a change of QCFG, from the value before it. -/
def State.afterQueue (s : State) (q : Nat) (old : Word) : State :=
  let s1 := if !old.bit 0 && s.qEn q then
      s.modQueue q fun u => { u with tail := 0, taken := 0, done := 0, holders := [] }
    else s
  if s1.qEn q && old.bit 0 && old.bits 25 16 ≠ s1.qCtx q && (s1.queue q).tail ≠ (s1.queue q).taken then
    s1.raiseEvent (s1.qCtx q) 0
  else s1

/-- R433: one item becomes active with its value. -/
def State.applyItem (s : State) (it : CfgItem) : State :=
  let k := cfgKey it.item it.index
  let s0 := s.beforeApply it
  let old := s0.cfgAct it.item it.index
  let s1 := { s0 with cfg := { active := s0.cfg.active.set k it.value, staged := s0.cfg.staged.set k it.value } }
  if it.item = 0x20 then s1.afterQueue it.index old
  else if it.item = 0x10 ∨ it.item = 0x11 then
    -- R309: both TLBs and their walk caches are emptied
    { s1 with core := { s1.core with
      tlb := { s1.core.tlb with entries := [], walk := [] }, ttlb := { s1.core.ttlb with entries := [], walk := [] } } }
  else if it.item = 0x30 then s1.afterGate old
  else s1

/-- R433: the rings of a queue are in place before the queue itself changes: every QCFG item follows the others. -/
def applyOrder (set : List CfgItem) : List CfgItem :=
  (set.filter fun it => it.item = 0x20 && !it.value.bit 0) ++ (set.filter fun it => it.item ≠ 0x20) ++
  (set.filter fun it => it.item = 0x20 && it.value.bit 0)

/-- R433, R431, R20: the staged value of every item of the commit, as it is at the gate point, becomes active there. -/
def State.applyCommit (s : State) (m : Nat) : State :=
  let set := (s.mbox m).set.map fun it => { it with value := s.cfg.stg it.item it.index }
  let s1 := (applyOrder set).foldl State.applyItem s
  let s2 := s1.pendGroom 48
  let s3 := if set.any fun it => decide (0x20 ≤ it.item) && decide (it.item ≤ 0x28) then s2.pendGroom 52 else s2
  let s4 := { s3 with bridle := { s3.bridle with commit := none } }
  (s4.modMbox m fun b => { b with set := [] }).mbDone m mbOK 0 (commitPayload set.length 0 s.gcount)

/-- Whether the commit in progress can be applied now. -/
def State.gateReady (s : State) : Bool :=
  match s.bridle.commit with
  | none => false
  | some c =>
    let b := s.mbox c.m
    !b.abortReq && decide (s.now ≤ c.deadline) && s.stagedAll c &&
    (!saddlesScope b.set || (s.runs.run0.isNone && s.runs.run1.isNone))

/-- R433. -/
def execGatePoint (s : State) : Out :=
  eventStep s.gateReady (fun s => match s.bridle.commit with
    | some c => s.applyCommit c.m
    | none => s) s

end Sys2Proof.Machine
end

