-- ==== Sys2Proof/Machine/Hash.lean ====
section
/-! DEFINITION. The two standards that R409 to R411 name for the Groom's images: SHA-384 of the hash engine, and ECDSA P-384
verification as FIPS 186-5 specifies it. The spec names them and does not repeat them: they are taken from the standards
(PRESUMED, log entry 10). -/

namespace Sys2Proof.Machine

/-! ## SHA-384 -/

/-- The largest `r` below `2 ^ n` above the part found whose `k`-th power is at most `x`, one bit at a time. -/
def rootFrom (k x : Nat) : (n : Nat) → (r : Nat) → Nat
  | 0, r => r
  | n + 1, r => rootFrom k x n (if (r + 2 ^ n) ^ k ≤ x then r + 2 ^ n else r)

/-- The first 64 bits of the fraction of the `k`-th root of `p`: how the standard makes its constants. -/
def rootFraction (k p : Nat) : Word := Word.ofNat (rootFrom k (p * 2 ^ (64 * k)) 72 0 % 2 ^ 64)

/-- The first 80 primes. -/
def shaPrimes : List Nat :=
  (List.range 410).filter fun p => 2 ≤ p && (List.range p).all fun q => q < 2 || p % q ≠ 0

/-- The constants of the 80 rounds, from the cube roots of the primes. -/
def roundKeys : List Word := shaPrimes.map (rootFraction 3)

/-- The hash before the first block: the square roots of the ninth to the sixteenth prime. -/
def firstHash : List Word := ((shaPrimes.drop 8).take 8).map (rootFraction 2)

/-- A number of `n` bytes, most significant byte first. -/
def beNat (bs : List Byte) : Nat := bs.foldl (fun a b => 256 * a + b.toNat) 0

/-- The `n` low bytes of a number, most significant byte first. -/
def beBytes (n v : Nat) : List Byte := (leBytes n v).reverse

/-- A message with its padding: a one bit, zeros, and the length in bits in 16 bytes. -/
def shaPad (m : List Byte) : List Byte :=
  m ++ [0x80] ++ List.replicate ((239 - m.length % 128) % 128) 0 ++ beBytes 16 (8 * m.length)

/-- The exclusive or of a word turned right by each amount of a list. -/
def turns (x : Word) (rs : List Nat) : Word := rs.foldl (fun y r => y ^^^ x.rotateRight r) 0

/-- The schedule of a block, newest word first, grown by `n` words. -/
def growSchedule : (n : Nat) → List Word → List Word
  | 0, ws => ws
  | n + 1, ws =>
    let mixed := fun (i : Nat) (rs : List Nat) (k : Nat) => turns (ws.getD i 0) rs ^^^ (ws.getD i 0 >>> k)
    growSchedule n ((mixed 1 [19, 61] 6 + ws.getD 6 0 + mixed 14 [1, 8] 7 + ws.getD 15 0) :: ws)

/-- The hash as two queues of four words, newest first: a round puts one word into each and drops the oldest. -/
structure HashQueues where
  top : List Word
  bot : List Word
  deriving DecidableEq, Repr

/-- One round with its constant and schedule word added together. -/
def HashQueues.round (q : HashQueues) (kw : Word) : HashQueues :=
  let x := fun i => q.top.getD i 0
  let y := fun i => q.bot.getD i 0
  let chosen := y 2 ^^^ (y 0 &&& (y 1 ^^^ y 2))
  let most := (x 0 &&& x 1) ||| (x 2 &&& (x 0 ||| x 1))
  let fresh := kw + chosen + turns (y 0) [14, 18, 41] + y 3
  ⟨(fresh + most + turns (x 0) [28, 34, 39]) :: q.top.take 3, (fresh + x 3) :: q.bot.take 3⟩

/-- The words of a block of 128 bytes, newest (last) first. -/
def blockWords (b : List Byte) : List Word := (List.range 16).map fun i => Word.ofNat (beNat ((b.drop (120 - 8 * i)).take 8))

/-- One block of 128 bytes. -/
def shaBlock (h : List Word) (b : List Byte) : List Word :=
  let kws := roundKeys.zipWith (· + ·) (growSchedule 64 (blockWords b)).reverse
  let q := kws.foldl HashQueues.round ⟨h.take 4, h.drop 4⟩
  h.zipWith (· + ·) (q.top ++ q.bot)

/-- The blocks of a padded message in order; `n` bounds their number. -/
def shaBlocks : (n : Nat) → (h : List Word) → (m : List Byte) → List Word
  | 0, h, _ => h
  | n + 1, h, m => shaBlocks n (shaBlock h (m.take 128)) (m.drop 128)

/-- SHA-384 of a string of bytes: 48 bytes. -/
def sha384 (m : List Byte) : List Byte :=
  let p := shaPad m
  ((shaBlocks (p.length / 128) firstHash p).take 6).flatMap fun w => beBytes 8 w.toNat

/-! ## ECDSA P-384 -/

/-- The field prime of P-384. -/
def p384P : Nat := 2 ^ 384 - 2 ^ 128 - 2 ^ 96 + 2 ^ 32 - 1

/-- The order of the base point. -/
def p384N : Nat :=
  0xffffffffffffffffffffffffffffffffffffffffffffffffc7634d81f4372ddf581a0db248b0a77aecec196accc52973

/-- The curve's coefficient b; a is -3. -/
def p384B : Nat :=
  0xb3312fa7e23ee7e4988e056be3f82d19181d9c6efe8141120314088f5013875ac656398d8a2ed19d2a85c8edd3ec2aef

/-- The base point. -/
def p384G : Nat × Nat :=
  (0xaa87ca22be8b05378eb1c71ef320ad746e1d3b628ba79b9859f741e082542a385502f25dbf55296c3a545e3872760ab7,
   0x3617de4a96262c6f5d9e98bf9292dc29f8f41dbd289a147ce9da3113b5f0b8c00a60b1ce1d7e819d7a431d7c90ea0e5f)

/-- A power modulo `m`, by the exponent's low `n` bits. -/
def powMod (m : Nat) : (n : Nat) → (b e : Nat) → Nat
  | 0, _, _ => 1 % m
  | n + 1, b, e =>
    let r := powMod m n (b * b % m) (e / 2)
    if e % 2 = 1 then b * r % m else r

/-- The inverse modulo a prime of 384 bits. -/
def invMod (m a : Nat) : Nat := powMod m 384 (a % m) (m - 2)

/-- The sum of two points of the curve; none is the point at infinity. -/
def p384Add (x y : Option (Nat × Nat)) : Option (Nat × Nat) :=
  match x, y with
  | none, q => q
  | p, none => p
  | some (x1, y1), some (x2, y2) =>
    let p := p384P
    if x1 = x2 ∧ (y1 + y2) % p = 0 then none
    else
      let l := if x1 = x2 then (3 * x1 * x1 + (p - 3)) * invMod p (2 * y1) % p
        else (y2 + p - y1) * invMod p (x2 + p - x1) % p
      let x3 := (l * l + 2 * p - x1 - x2) % p
      some (x3, (l * (x1 + p - x3) + p - y1) % p)

/-- A multiple of a point, by the multiplier's low `n` bits. -/
def p384Mul : (n : Nat) → (k : Nat) → (q : Option (Nat × Nat)) → Option (Nat × Nat)
  | 0, _, _ => none
  | n + 1, k, q =>
    let r := p384Mul n (k / 2) (p384Add q q)
    if k % 2 = 1 then p384Add q r else r

/-- R411: whether `r ‖ s` verifies for the public key `x ‖ y` and a digest. The four numbers are little-endian, as R410's
layout is (PRESUMED, log entry 10); the digest's first byte is its most significant one. -/
def ecdsaOk (pub digest sig : List Byte) : Bool :=
  let q := (leNat (pub.take 48), leNat (pub.drop 48))
  let r := leNat (sig.take 48)
  let s := leNat (sig.drop 48)
  let p := p384P
  let onCurve := decide (q.1 < p) && decide (q.2 < p) && q.2 * q.2 % p = (q.1 * q.1 * q.1 + (p - 3) * q.1 + p384B) % p
  let w := invMod p384N s
  let u := p384Add (p384Mul 384 (beNat digest * w % p384N) (some p384G)) (p384Mul 384 (r * w % p384N) (some q))
  onCurve && decide (0 < r) && decide (r < p384N) && decide (0 < s) && decide (s < p384N) &&
  (match u with
   | none => false
   | some (x, _) => x % p384N = r)

end Sys2Proof.Machine
end

