-- ==== Sys2Proof/Machine/Groom.lean ====
section
/-! DEFINITION. The Groom's threads, interrupts, faults and control registers, and the restart with the stand state (R387 to
R409, R463 to R465). -/

namespace Sys2Proof.Machine

/-! ## Threads -/

/-- Thread `t` (R395). -/
def State.gthread (s : State) (t : Nat) : GThread := s.groom.threads.get GThread.reset t

def State.setGthread (s : State) (t : Nat) (h : GThread) : State :=
  { s with groom := { s.groom with threads := s.groom.threads.set t h } }

def State.modGthread (s : State) (t : Nat) (f : GThread → GThread) : State := s.setGthread t (f (s.gthread t))

/-- R32: the GCLK count. -/
def State.gclk (s : State) : Nat := s.now / 4

/-- Register `w_n`. -/
def GThread.reg (h : GThread) (n : Nat) : Half := h.w.get 0 n

def GThread.setReg (h : GThread) (n : Nat) (v : Half) : GThread := { h with w := h.w.set n v }

/-- R396, R404: an instruction of the thread issues: results whose time has come are written, in the order in which they take
effect, and a source that was being entered has its handler running. -/
def GThread.settle (h : GThread) (clk : Nat) : GThread :=
  let due := h.late.takeWhile fun e => e.2.2 ≤ clk
  { due.foldl (fun h e => h.setReg e.1 e.2.1) h with late := h.late.dropWhile (fun e => e.2.2 ≤ clk), entered := none }

/-- Every result on its way is written: what a boundary that takes several GCLK leaves. -/
def GThread.settleAll (h : GThread) : GThread :=
  { h.late.foldl (fun h e => h.setReg e.1 e.2.1) h with late := [] }

/-- R396: a result is put behind those that take effect no later. -/
def insertLate (e : Nat × Half × Nat) : List (Nat × Half × Nat) → List (Nat × Half × Nat)
  | [] => [e]
  | x :: xs => if x.2.2 ≤ e.2.2 then x :: insertLate e xs else e :: x :: xs

/-- R394 to R396: a result with `k` GCLK to its first read. In threaded mode it is ready for the next instruction. -/
def State.gWrite (s : State) (t d : Nat) (v : Half) (k : Nat) : State :=
  if s.groom.threaded then s.modGthread t fun h => h.setReg d v
  else s.modGthread t fun h => { h with late := insertLate (d, v, s.groom.lclk + k) h.late }

/-- R395, R396: the thread runs in the present mode. -/
def State.gRuns (s : State) (t : Nat) : Bool :=
  !s.groom.halted && !s.boot.sfail && decide (2 ≤ s.boot.sstep) && (s.gthread t).run && (s.groom.threaded || t = 0)

/-- R395: the thread can issue: it is not in WFI, held by an access or held by the divider. -/
def State.gCanIssue (s : State) (t : Nat) : Bool :=
  s.gRuns t && !(s.gthread t).wfi && (s.gthread t).held.isNone && (s.gthread t).divOp.isNone

/-! ## Memories (R387, R415) -/

/-- R387: the regions of the Groom's address space. -/
inductive GRegion where
  | rom | iram | dram | control | aperture | window | nowhere
  deriving DecidableEq, Repr

/-- R387. -/
def gRegion (a : Nat) : GRegion :=
  if a < 0x10000 then .rom
  else if 0x10000000 ≤ a ∧ a < 0x10040000 then .iram
  else if 0x20000000 ≤ a ∧ a < 0x20040000 then .dram
  else if 0x40000000 ≤ a ∧ a < 0x40001000 then .control
  else if 0x50000000 ≤ a ∧ a < 0x51000000 then .aperture
  else if 0x80000000 ≤ a ∧ a < 0x90000000 then .window
  else .nowhere

/-- One byte of ROM, IRAM or DRAM. -/
def State.gByte (s : State) (a : Nat) : Byte :=
  match gRegion a with
  | .rom => Config.romByte a
  | .iram => s.groom.iram.get 0 (a - 0x10000000)
  | .dram => s.groom.dram.get 0 (a - 0x20000000)
  | _ => 0

/-- `n` bytes of ROM, IRAM or DRAM as a number. -/
def State.gRead (s : State) (a n : Nat) : Nat := leNat ((List.range n).map fun i => s.gByte (a + i))

/-- R390: the error of the word of IRAM or DRAM at `a`, if it holds an uncorrectable one. -/
def State.gBad (s : State) (a : Nat) : Option Ecc := (s.groom.bad.find? fun p => p.1 = a / 4).map (·.2)

/-- `n` bytes written to IRAM or DRAM. A word that is written whole holds no error. -/
def State.gStore (s : State) (a n v : Nat) : State :=
  let s1 := if n = 4 then { s with groom := { s.groom with bad := s.groom.bad.del (a / 4) } } else s
  match gRegion a with
  | .iram => { s1 with groom := { s1.groom with iram := s.groom.iram.putLe (a - 0x10000000) n v } }
  | .dram => { s1 with groom := { s1.groom with dram := s.groom.dram.putLe (a - 0x20000000) n v } }
  | _ => s

/-- A 32-bit word of DRAM: a frame word or a vector. -/
def State.gWord (s : State) (a : Nat) : Half := BitVec.ofNat 32 (s.gRead a 4)

/-! ## Interrupt sources (R401, R402) -/

/-- R401: the level sources. -/
def gLevelSource (n : Nat) : Bool := n = 32 || n = 35 || n = 36 || decide (56 ≤ n)

/-- R401: whether a level source asserts. -/
def State.gAsserts (s : State) (n : Nat) : Bool :=
  if n = 32 then !s.ras.fifo.isEmpty
  else if n = 35 then s.power.pfail
  else if n = 36 then s.power.therm = .emergency
  else if 56 ≤ n then s.groom.lic.getLsbD (n - 56)
  else false

/-- Whether a source is pending. -/
def State.gPending (s : State) (n : Nat) : Bool := if gLevelSource n then s.gAsserts n else s.groom.ipend.bit n

/-- R399: PRIO and TGT of a source, with what is fixed. -/
def State.gPrio (s : State) (n : Nat) : Nat := if n = 33 ∨ n = 34 then 0 else (s.groom.irqcfg.get (15, 0) n).1

def State.gTgt (s : State) (n : Nat) : Nat :=
  if n = 33 then 0 else if 56 ≤ n ∧ s.groom.extEn then 3 else (s.groom.irqcfg.get (15, 0) n).2

/-- R402: eligibility for a thread at a LEVEL and IE. Machine checks and Groom faults have their own entries. -/
def State.gEligible (s : State) (t level : Nat) (ie : Bool) (n : Nat) : Bool :=
  n ≠ 33 && n ≠ 34 && s.gPending n && s.groom.ien.bit n && s.gTgt n = t && ie && decide (s.gPrio n < level)

/-- R402: the eligible source of lowest PRIO, and the lowest number among those. -/
def State.gBest (s : State) (t level : Nat) (ie : Bool) : Option Nat :=
  (List.range 64).foldl (fun b n =>
    if s.gEligible t level ie n then
      match b with
      | some m => if s.gPrio n < s.gPrio m then some n else b
      | none => some n
    else b) none

/-- R401, R403: the pending bit of an edge source is cleared at entry. -/
def State.gClear (s : State) (n : Nat) : State := { s with groom := { s.groom with ipend := s.groom.ipend.putBit n false } }

/-! ## Control registers (R399, R400) -/

/-- TSTAT_n. -/
def GThread.tstat (h : GThread) : Half := BitVec.ofNat 32 (h.level + h.ie.toNat * 32 + h.ext.toNat * 64)

/-- GCAUSE_n. -/
def GThread.gcause (h : GThread) : Half := BitVec.ofNat 32 (h.causeCode.toNat + h.causeSrc * 256)

/-- GSTAT: the state of a thread. -/
def State.gState (s : State) (t : Nat) : Nat :=
  let h := s.gthread t
  if !s.gRuns t then 0 else if h.wfi then 2 else if h.held.isSome || h.divOp.isSome then 3 else 1

/-- The count left of TMR_n. -/
def State.gTimer (s : State) (n : Nat) : Nat :=
  let (c, at') := s.groom.tmr.get (0, 0) n
  c - (s.gclk - at' / 4)

/-- IPEND as it reads: edge sources that pend, level sources that assert. -/
def State.gIpend (s : State) : Nat := (List.range 64).foldl (fun v n => v + (s.gPending n).toNat * 2 ^ n) 0

/-- R399: a read of the control register at `off`; none where the offset takes ACCESS. -/
def State.gctlRead (s : State) (off : Nat) : Option Half :=
  let g := s.groom
  let h := fun (base : Nat) => s.gthread ((off - base) / 4)
  if off % 4 ≠ 0 then none
  else if off = 0x000 then some (BitVec.ofNat 32 (g.threaded.toNat + g.extOk.toNat * 2))
  else if off = 0x004 then some (BitVec.ofNat 32 ((List.range 4).foldl (fun v t => v + (s.gthread t).run.toNat * 2 ^ t) 0))
  else if off = 0x008 then some (BitVec.ofNat 32 ((List.range 4).foldl (fun v t => v + s.gState t * 4 ^ t) 0))
  else if 0x010 ≤ off ∧ off < 0x020 then some (h 0x010).tstart
  else if 0x020 ≤ off ∧ off < 0x030 then some (h 0x020).vbase
  else if 0x030 ≤ off ∧ off < 0x040 then some (h 0x030).tstat
  else if 0x040 ≤ off ∧ off < 0x050 then some (h 0x040).gcause
  else if 0x050 ≤ off ∧ off < 0x060 then some (h 0x050).gfaddr
  else if off = 0x060 then some (BitVec.ofNat 32 (g.ien.bits 31 0))
  else if off = 0x064 then some (BitVec.ofNat 32 (g.ien.bits 63 32))
  else if off = 0x068 then some (BitVec.ofNat 32 s.gIpend)
  else if off = 0x06C then some (BitVec.ofNat 32 (s.gIpend / 2 ^ 32))
  else if off = 0x070 then some 0
  else if 0x080 ≤ off ∧ off < 0x090 then some (BitVec.ofNat 32 (s.gTimer ((off - 0x080) / 4)))
  else if 0x100 ≤ off ∧ off < 0x200 then
    let n := (off - 0x100) / 4
    some (BitVec.ofNat 32 (s.gPrio n + s.gTgt n * 16 + (!gLevelSource n).toNat * 64))
  else if off = 0x200 then some g.xwin
  else if off = 0x210 then some (BitVec.ofNat 32 g.extEn.toNat)
  else if off = 0x220 then some (g.lock.zeroExtend 32)
  else if 0x240 ≤ off ∧ off < 0x270 then some (g.gdigest.get 0 ((off - 0x240) / 4))
  else none

/-- R415: the data accesses that an extension may make. A write of ISET names bits 0 to 2 only. -/
def extMay (write : Bool) (a : Nat) (v : Half) : Bool :=
  (!write && decide (0x10030000 ≤ a) && decide (a < 0x10040000)) ||
  (decide (0x20030000 ≤ a) && decide (a < 0x20040000)) || (decide (0x2002F000 ≤ a) && decide (a < 0x20030000)) ||
  a = 0x4000003C || a = 0x4000008C || (decide (0x400001E0 ≤ a) && decide (a < 0x40000200)) ||
  (write && a = 0x40000070 && v &&& 0xFFFFFFF8 = 0)

/-- R415: what an extension writes to IRQCFG changes PRIO only. -/
def State.extValue (s : State) (h : GThread) (off : Nat) (v : Half) : Half :=
  if h.ext ∧ 0x100 ≤ off ∧ off < 0x200 then
    BitVec.ofNat 32 (v.toNat % 16 + (s.groom.irqcfg.get (15, 0) ((off - 0x100) / 4)).2 * 16)
  else v

/-- R399, R400: whether a control register completes its writes at SYNC. -/
def gSyncReg (off : Nat) : Bool :=
  off = 0x000 || off = 0x004 || (decide (0x010 ≤ off) && decide (off < 0x030)) || off = 0x060 || off = 0x064 ||
  (decide (0x100 ≤ off) && decide (off < 0x200)) || off = 0x200 || off = 0x210

/-- R400: a write enters the pending set; a later one to the same register replaces it. -/
def addPending (p : List (Nat × Half)) (off : Nat) (v : Half) : List (Nat × Half) :=
  (p.filter fun e => e.1 ≠ off) ++ [(off, v)]

/-- R399: ISET pends sources 40 to 47. -/
def State.gIset (s : State) (v : Half) : State :=
  (List.range 8).foldl (fun s i => if v.getLsbD i then s.pendGroom (40 + i) else s) s

/-- R399: a write of a control register by thread `t`; none where the offset takes ACCESS. -/
def State.gctlWrite (s : State) (t off : Nat) (v : Half) : Option State :=
  let g := s.groom
  if (s.gctlRead off).isNone then none
  else if gSyncReg off then some (s.modGthread t fun h => { h with pending := addPending h.pending off v })
  else if 0x030 ≤ off ∧ off < 0x040 then
    some (s.modGthread ((off - 0x030) / 4) fun h => { h with level := v.toNat % 32, ie := v.getLsbD 5 })
  else if off = 0x068 then some { s with groom := { g with ipend := g.ipend &&& ~~~(Word.ofNat v.toNat) } }
  else if off = 0x06C then some { s with groom := { g with ipend := g.ipend &&& ~~~(Word.ofNat (v.toNat * 2 ^ 32)) } }
  else if off = 0x070 then some (s.gIset v)
  else if 0x080 ≤ off ∧ off < 0x090 then some { s with groom := { g with tmr := g.tmr.set ((off - 0x080) / 4) (v.toNat, s.now) } }
  else if off = 0x220 then some { s with groom := { g with lock := g.lock ||| BitVec.ofNat 2 v.toNat } }
  else if 0x240 ≤ off ∧ off < 0x270 then
    some (if g.lock.getLsbD 0 then s else { s with groom := { g with gdigest := g.gdigest.set ((off - 0x240) / 4) v } })
  else some s

/-- R400: a thread starts at its TSTART with TSTAT at reset. -/
def GThread.start (h : GThread) (pc : Half) (ext : Bool) : GThread :=
  { h with
    run := true, pc := pc, level := 16, ie := false, ext := ext, wfi := false,
    held := none, divOp := none, entered := none, queue := [] }

/-- R400: TCTL.RUN is written. -/
def State.gRunBits (s : State) (v : Half) : State :=
  (List.range 4).foldl (fun s t =>
    let h := s.gthread t
    if v.getLsbD t && !h.run then s.setGthread t (h.start h.tstart false)
    else if !v.getLsbD t && h.run then s.setGthread t { h with run := false }
    else s) s

/-- R400: the change to threaded mode: threads whose RUN bit is 1 start, and thread 0 goes on. -/
def State.gThreaded (s : State) : State :=
  let s1 := (List.range 3).foldl (fun s i =>
    let h := s.gthread (i + 1)
    if h.run then s.setGthread (i + 1) (h.start h.tstart false) else s) (s.modGthread 0 GThread.settleAll)
  { s1 with groom := { s1.groom with threaded := true } }

/-- R414, R416: EXTCFG.EN = 1 with thread 3 halted starts the extension. LOCK bit 1 keeps the register as it is: a write
of the value that it holds then starts the extension again (DEDUCED, log entry 95). -/
def State.gExtCfg (s : State) (v : Half) : State :=
  let s1 := if s.groom.lock.getLsbD 1 then s else { s with groom := { s.groom with extEn := v.getLsbD 0 } }
  if v.getLsbD 0 && s1.groom.extEn && s.groom.extOk && !s.groom.extHalted && !(s.gthread 3).run then
    s1.modGthread 3 fun h => h.start s.groom.extEntry true
  else s1

/-- R400: one pending write completes. -/
def State.gComplete (s : State) (off : Nat) (v : Half) : State :=
  let g := s.groom
  if 0x010 ≤ off ∧ off < 0x020 then s.modGthread ((off - 0x010) / 4) fun h => { h with tstart := v }
  else if 0x020 ≤ off ∧ off < 0x030 then s.modGthread ((off - 0x020) / 4) fun h => { h with vbase := v }
  else if off = 0x060 then { s with groom := { g with ien := g.ien.putBits 31 0 v.toNat } }
  else if off = 0x064 then { s with groom := { g with ien := g.ien.putBits 63 32 v.toNat } }
  else if 0x100 ≤ off ∧ off < 0x200 then
    -- R399: TGT of sources 56 to 63 is read-only while EXTCFG.EN is 1
    let n := (off - 0x100) / 4
    let tgt := if 56 ≤ n ∧ g.extEn then (g.irqcfg.get (15, 0) n).2 else v.toNat / 16 % 4
    { s with groom := { g with irqcfg := g.irqcfg.set n (v.toNat % 16, tgt) } }
  else if off = 0x200 then { s with groom := { g with xwin := v &&& 0xFFFFFF } }
  else if off = 0x004 then s.gRunBits v
  else if off = 0x210 then s.gExtCfg v
  else if off = 0x000 then if v.getLsbD 0 && !g.threaded then s.gThreaded else s
  else s

/-- R400: the place of a register among the writes of one SYNC, which complete together: what starts threads comes last. -/
def gSyncOrder (off : Nat) : Nat := if off = 0x000 then 3 else if off = 0x210 then 2 else if off = 0x004 then 1 else 0

/-- R400, R397: the pending set of thread `t` completes, and its prefetch queue is flushed. -/
def State.gSync (s : State) (t : Nat) : State :=
  let p := (s.gthread t).pending
  let s1 := s.modGthread t fun h => { h with pending := [], queue := [] }
  (List.range 4).foldl (fun s k => (p.filter fun e => gSyncOrder e.1 = k).foldl (fun s e => s.gComplete e.1 e.2) s) s1

/-! ## The stand state and the restart (R409, R463, R465) -/

/-- A memory range as a table of bytes from 0. -/
def Store.sub (m : Store) (a n : Nat) : Tbl Byte :=
  (m.bytes.filter fun p => decide (a ≤ p.1) && decide (p.1 < a + n)).map fun p => (p.1 - a, p.2)

/-- R409, R492: the verified copy in the recovery region: the IRAM image, then the DRAM image (DESIGN CHOICE, log entry 33). -/
def State.recBase (s : State) : Nat := s.boot.straps.recBase.toNat * 2 ^ 20

/-- Bytes of a physical range as the external window delivers them: a NOTARGET line reads 0 (R392). -/
def State.extSub (s : State) (a n : Nat) : Tbl Byte :=
  (s.mem.store.sub a n).filter fun p => !s.mem.lost ((a + p.1) / 128)

/-- `n` bytes of a physical range as the external window delivers them. -/
def State.extBytes (s : State) (a n : Nat) : List Byte :=
  let t := s.extSub a n
  (List.range n).map fun i => Tbl.get 0 t i

/-- R319, R392: what a read of `n` bytes by ROM or firmware does at the memory access ports: its requests, and a record for each
that is answered NOTARGET (DESIGN CHOICE, log entry 121). -/
def State.extRead (s : State) (a n : Nat) : State :=
  if n = 0 then s
  else (lostRequests s.mem.lost a n).foldl (fun s x => s.noTargetRecord x none) (s.readRequests (linesOf a n))

/-- Whether a chunk of a physical range is delivered poisoned: the load of it faults (R392). -/
def State.extPoison (s : State) (a n : Nat) : Bool :=
  s.mem.store.poison.any fun p => p.2 && !s.mem.lost (p.1 / 8) && decide (a < 16 * p.1 + 16) && decide (16 * p.1 < a + n)

/-- R409, R411: the digest of the verified copy: the IRAM image, then the DRAM image. -/
def State.copyDigest (s : State) (ilen dlen : Nat) : List Byte :=
  sha384 (s.extBytes s.recBase ilen ++ s.extBytes (s.recBase + 0x40000) dlen)

/-- GDIGEST's words: the digest's bytes in address order, each word little-endian. -/
def digestWords (d : List Byte) : Tbl Half :=
  (List.range 12).map fun i => (i, BitVec.ofNat 32 (leNat ((d.drop (4 * i)).take 4)))

/-- R465: BUSY commands that the firmware had taken complete with RESTARTED, and sets under construction are dropped (R425). The
views of Tack registers stay as they are (R470, R476). -/
def State.bridleRestart (s : State) : State :=
  let s0 := { s with bridle := { s.bridle with ready := false, stand := true, commit := none } }
  let s1 := s0.mboxes.foldl (fun s p => if p.2.st = .busy ∧ !p.2.held then s.mbFail p.1 mbRESTARTED 0 else s) s0
  let s2 := { s1 with mboxes := s1.mboxes.mapVals fun _ b => { b with set := [] } }
  let keep := fun (t : Tbl Word) (item : Nat) => t.set (cfgKey item 0) (s2.cfg.unstaged item 0)
  { s2 with cfg := { s2.cfg with staged := [0x30, 0x40].foldl keep s2.cfg.active } }

/-- R465: what the entry to the stand state does to the core and to admitted images. -/
def State.standWork (s : State) : State :=
  let s1 := if s.core.disp = .reserve then s else
    (match s.curCtx with
      | some n => (s.abandonWait n).modCtx n fun e =>
        { e with mode := if e.mode = CtxMode.running then CtxMode.ready else e.mode }
      | none => s)
  let s2 := { s1 with core := { s1.core with disp := if s1.core.disp = Disp.reserve then Disp.reserve else Disp.idle, switchTo := none } }
  let s3 := (s2.abandonRun 0 0x0A).abandonRun 1 0x0A
  s3.runs.parked.foldl (fun (s : State) (p : Nat × Run) => s.endParked p.1 0x0A) s3

/-- How many images are admitted. -/
def State.admittedCount (s : State) : Nat :=
  s.runs.run0.isSome.toNat + s.runs.run1.isSome.toNat + s.runs.parked.length

/-- R465, R467: the stand state is entered; answers how many items were reported. -/
def State.enterStand (s : State) : Nat × State :=
  let holders := s.holdingCtxs
  let n0 := s.admittedCount
  let (n, s1) := s.standWork.failInFlight (fun _ => true) 0x8004
  (n0 + n, holders.foldl (fun s c => s.raiseAlert c 1) s1.bridleRestart)

/-- R409: a thread as a restart leaves it. -/
def GThread.restart (h : GThread) : GThread := { GThread.reset with tstart := h.tstart, vbase := h.vbase }

/-- R409: the threads stop, ROM is entered in lunge mode, and the verified copy is loaded and compared with GDIGEST. A copy with
a poisoned chunk cannot be loaded (DEDUCED, log entry 63). -/
def State.groomReload (s : State) : State :=
  let g := s.groom
  let a := s.recBase
  let ok := (digestWords (s.copyDigest g.copyLen.1 g.copyLen.2)).all (fun p => g.gdigest.get 0 p.1 = p.2) &&
    !s.extPoison a g.copyLen.1 && !s.extPoison (a + 0x40000) g.copyLen.2
  let ths := g.threads.mapVals fun _ h => h.restart
  let g1 := { g with
    threads := ths, threaded := true, extOk := false, extHalted := false, divBusy := none, lclk := 0, bad := [],
    restartFlag := true, inMc := false, mcPending := false,
    iram := s.extSub a g.copyLen.1, dram := s.extSub (a + 0x40000) g.copyLen.2 }
  let s := (s.extRead a g.copyLen.1).extRead (a + 0x40000) g.copyLen.2
  if ok then
    { s with groom := { g1 with threads := g1.threads.set 0 { g1.threads.get GThread.reset 0 with run := true, pc := g.entry } } }
  else
    State.record { s with groom := { g1 with halted := true, threaded := false } }
      { ErrRec.mk0 0x110 0xE 7 none with info := Word.ofNat (3 + s.ras.restarts * 256) }

/-- R462: a queued addition of which the firmware no longer knows. -/
def TkWrite.forget (w : TkWrite) : TkWrite := { w with srcs := w.srcs.map fun x => if x = .history then .firmware else x }

/-- R409, R463, R505: the Groom restarts: 1 requested by firmware, 2 nested machine check. From the assertion of PWRFAIL_N it
halts instead. At the fourth consecutive restart the block stays in the stand state. -/
def State.groomRestart (s : State) (reason t : Nat) : State :=
  if s.groom.halted || s.boot.sfail then s
  else if s.power.pfail then
    { s with groom := { s.groom with halted := true, ipend := s.groom.ipend.putBit 33 false } }
  else
    let n := s.ras.restarts + 1
    -- R322, R462: what the firmware kept in DRAM goes: the counts not yet added and the times of corrected errors
    let s0 := { s with ras := { s.ras with restarts := n, counts := [], ceTimes := [] },
                       tack := { s.tack with queue := s.tack.queue.map TkWrite.forget, heldW := s.tack.heldW.map TkWrite.forget },
                       groom := { s.groom with ipend := s.groom.ipend.putBit 33 false, inMc := false } }
    let (items, s1) := s0.enterStand
    let s2 := s1.record { ErrRec.mk0 0x110 0xE 7 none with
      unit := BitVec.ofNat 16 t, info := Word.ofNat (reason + n * 256), items := BitVec.ofNat 32 items }
    if 4 ≤ n then { s2 with groom := { s2.groom with halted := true, threaded := false,
                                                     threads := s2.groom.threads.mapVals fun _ h => h.restart } }
    else s2.groomReload

/-! ## Entries and faults (R403, R407, R408) -/

/-- R403 step 3: w15 is a multiple of 8, and w15 − 32 lies in DRAM. -/
def GThread.frameOk (h : GThread) : Bool :=
  let a := (h.reg 15).toNat
  a % 8 = 0 && decide (0x20000000 + 32 ≤ a) && decide (a < 0x20040000 + 32)

/-- R403 step 4: the frame's words. -/
def GThread.frameWords (h : GThread) : List Half := [h.reg 0, h.reg 1, h.reg 2, h.reg 3, h.reg 13, h.reg 14, h.pc, h.tstat]

/-- R408: a machine check arises: pending, or a restart where thread 0 is still in its handler. -/
def State.gMachineCheck (s : State) (t : Nat) : State :=
  if s.groom.inMc then s.groomRestart 2 t else s.raiseMachineCheck

/-- R390: a read meets the uncorrectable error `e` of a word: it is recorded, and a machine check arises. -/
def State.gBadMet (s : State) (t : Nat) (e : Ecc) : State := (s.record (.ecc e 0x102 0xE 6 none)).gMachineCheck t

/-- The number of significant bits of a magnitude. -/
def sigBits (n : Nat) : Nat := if n = 0 then 0 else Nat.log2 n + 1

/-- The magnitude of a 32-bit word, taken as signed or not. -/
def magnitude (signed : Bool) (x : Half) : Nat := if signed then x.toInt.natAbs else x.toNat

/-- R394: the GCLK that a division holds the divider: `op` is 0 DIV, 1 DIVU, 2 REM, 3 REMU. -/
def GDiv.cost (v : GDiv) : Nat :=
  let sg := v.op % 2 = 0
  if v.b = 0 then 3 else 2 + max 1 (sigBits (magnitude sg v.a) + 1 - sigBits (magnitude sg v.b))

/-- R406: a free divider serves the next waiting thread, in thread-number order after the thread last served. -/
def State.gDivNext (s : State) : State :=
  if s.groom.divBusy.isSome then s
  else
    let order := (List.range 4).map fun i => (s.groom.divLast + 1 + i) % 4
    match order.find? fun t => (s.gthread t).divOp.isSome with
    | none => s
    | some t =>
      match (s.gthread t).divOp with
      | none => s
      | some v => { s with groom := { s.groom with divBusy := some (t, s.gclk + v.cost), divLast := t } }

/-- R406: a division of the thread is given up, and the divider freed. -/
def State.gDropDiv (s : State) (t : Nat) : State :=
  let s1 := s.modGthread t fun h => { h with divOp := none }
  if s1.groom.divBusy.map (·.1) = some t then
    State.gDivNext { s1 with groom := { s1.groom with divBusy := none } }
  else s1

/-- R390, R408: the vector word of source `n` holds an uncorrectable error, which is met when thread `t` would enter that
source: a machine check arises, or, where the source is the machine check, the Groom restarts. -/
def State.gVectorBad (s : State) (t n : Nat) : Option State :=
  (s.gBad ((s.gthread t).vbase.toNat + 4 * n)).map fun e =>
    if n = 33 then (s.record (.ecc e 0x102 0xE 6 none)).groomRestart 2 t else s.gBadMet t e

/-- R415: the address of the first word of the frame at `a` that an extension may not access. -/
def GThread.frameDenied (h : GThread) (write : Bool) (a : Nat) : Option Nat :=
  if h.ext then ((List.range 8).map fun i => a + 4 * i).find? fun x => !extMay write x 0 else none

/-- R407: the cause of a Groom fault of thread `t`. -/
def State.gCause (s : State) (t code : Nat) (addr : Option Half) : State :=
  s.modGthread t fun h => { h with causeCode := BitVec.ofNat 8 code, gfaddr := addr.getD h.gfaddr }

/-- R407, R416: a fault of an extension halts thread 3 and pends source 40. -/
def State.extHalt (s : State) (t code : Nat) : State :=
  let s1 := (s.modGthread t fun h => { h with run := false }).pendGroom 40
  State.record { s1 with groom := { s1.groom with extHalted := true } }
    { ErrRec.mk0 0x10F 0x11 8 none with
      unit := 3, addr := Word.ofNat (s.gthread t).pc.toNat, cause2 := BitVec.ofNat 16 code }

/-- R405: entry of a chained source, with the frame in place. -/
def State.gChainTo (s : State) (t n : Nat) : State × Half :=
  let s1 := if gLevelSource n then s else s.gClear n
  let s2 := s1.modGthread t fun h => { h with level := s.gPrio n, causeSrc := n, entered := some n, queue := [] }
  (if n = 33 then { s2 with groom := { s2.groom with inMc := true, mcFrame := (s.gthread t).reg 15 } } else s2,
   s1.gWord ((s.gthread t).vbase.toNat + 4 * n))

/-- R403: entry of source `n` by thread `t`. A frame that does not fit escalates, and so does a vector word that holds an
uncorrectable error (R390). Words of the frame beyond the end of DRAM are not written (R387; DEDUCED, log entry 96). A frame
that an extension may not write takes EXT_DENIED and none of it is written (R415; DEDUCED, log entry 96). -/
def State.gEnter (s : State) (t n : Nat) : State :=
  let s1 := ((s.gSync t).gDropDiv t).modGthread t GThread.settleAll
  let h := s1.gthread t
  if !h.frameOk then (s1.modGthread t fun h => { h with causeCode := 6 }).gMachineCheck t
  else
    let a := (h.reg 15).toNat - 32
    match h.frameDenied true a with
    | some x => (s1.gCause t 4 (some (BitVec.ofNat 32 x))).extHalt t 4
    | none =>
      let s2 := (h.frameWords.zipIdx).foldl (fun s p => s.gStore (a + 4 * p.2) 4 p.1.toNat) s1
      let s3 := if gLevelSource n then s2 else s2.gClear n
      match s3.gVectorBad t n with
      | some s4 => s4
      | none =>
        let pc := s3.gWord (h.vbase.toNat + 4 * n)
        s3.modGthread t fun h => { h.setReg 15 (BitVec.ofNat 32 a) with
          level := s3.gPrio n, causeSrc := n, pc := pc, wfi := false, entered := if n = 34 then none else some n }

/-- R404: the source that thread `t` is entering, whose handler has issued no instruction, where source `n` is of lower PRIO
(DEDUCED, log entry 93). -/
def State.gDisplaced (s : State) (t n : Nat) : Option Nat :=
  match (s.gthread t).entered with
  | some m => if s.gPrio n < s.gPrio m then some m else none
  | none => none

/-- R403, R404: source `n` is taken by thread `t`. It takes the place of a displaced source with the frame as it is, and that
source stays pending; a vector word that holds an uncorrectable error is not delivered (R390). -/
def State.gTakeSource (s : State) (t n : Nat) : State :=
  match s.gDisplaced t n with
  | some m =>
    match s.gVectorBad t n with
    | some s1 => s1
    | none =>
      let (s1, pc) := (if gLevelSource m then s else s.pendGroom m).gChainTo t n
      s1.modGthread t fun h => { h with pc := pc }
  | none => s.gEnter t n

/-- R407: a Groom fault of thread `t`, at its present pc, which stays that of the instruction. -/
def State.groomFault (s : State) (t code : Nat) (addr : Option Half) : State :=
  let s1 := s.gCause t code addr
  let h := s1.gthread t
  if h.ext then s1.extHalt t code
  else if s.groom.inMc && t = 0 then s1.groomRestart 2 t
  else if h.level = 0 then s1.gMachineCheck t
  else s1.gEnter t 34

/-- R408: thread 0 takes the machine check. -/
def State.gTakeMachineCheck (s : State) : State :=
  if s.groom.inMc then s.groomRestart 2 0
  else if (s.gDisplaced 0 33).isNone && !(s.gthread 0).settleAll.frameOk then s.groomRestart 2 0
  else match s.gBad ((s.gthread 0).vbase.toNat + 4 * 33) with
    | some e => (s.record (.ecc e 0x102 0xE 6 none)).groomRestart 2 0
    | none =>
      let s1 := s.gTakeSource 0 33
      { s1 with groom := { s1.groom with inMc := true, mcFrame := (s1.gthread 0).reg 15 } }

/-- R402, R408: the source that thread `t` takes at a LEVEL and IE. Source 33 ignores IEN, IE and LEVEL. -/
def State.gNext (s : State) (t level : Nat) (ie : Bool) : Option Nat :=
  let best := s.gBest t level ie
  if t = 0 ∧ s.groom.ipend.bit 33 then
    match best with
    | some n => if s.gPrio n = 0 ∧ n < 33 then some n else some 33
    | none => some 33
  else best

/-- Whether a restart or a halt of the Groom has taken place between two states. -/
def gRestarted (s s1 : State) : Bool := s.ras.restarts ≠ s1.ras.restarts || s.groom.halted ≠ s1.groom.halted

/-- R391, R392: the thread is held until the response of its access arrives, which carries a load's value. -/
def State.gHold (s : State) (t : Nat) (dest : Option (Nat × Half)) : State :=
  s.modGthread t fun h => { h with held := some ⟨dest⟩ }

/-- R387, R391, R415: an access of thread `t` at Groom address `a` that no instruction command carries: nothing while the
thread cannot issue; EXT_DENIED, or ACCESS where `f` refuses it; otherwise its effect `f`. -/
def State.groomAccess (s : State) (t : Nat) (write : Bool) (a : Nat) (v : Half) (f : State → Option State) : State :=
  if !s.gCanIssue t then s
  else if (s.gthread t).ext && !extMay write a v then s.groomFault t 4 (some (BitVec.ofNat 32 a))
  else match f s with
    | none => s.groomFault t 3 (some (BitVec.ofNat 32 a))
    | some s1 => s1

end Sys2Proof.Machine
end

