-- ==== Sys2Proof/Machine/Boot.lean ====
section
/-! DEFINITION. Reset, start-up, firmware verification, cache way disabling and Bridle ready (R322 to R325, R409 to R413,
R487 to R496). -/

namespace Sys2Proof.Machine

/-! ## Draining the error FIFO (R461, R462) -/

/-- R456: a record as eight doublewords. -/
def ErrRec.words (r : ErrRec) : List Word :=
  [Word.ofNat (r.seq.toNat + r.src.toNat * 2 ^ 32 + r.outcome.toNat * 2 ^ 40 + r.rflags.toNat * 2 ^ 48),
   Word.ofNat (r.code.toNat + r.ctx.toNat * 2 ^ 16 + r.unit.toNat * 2 ^ 32 + r.cause2.toNat * 2 ^ 48),
   r.gstamp, r.addr, r.info, Word.ofNat (r.imgcrc.toNat + r.runix.toNat * 2 ^ 32),
   Word.ofNat (r.tau.toNat + r.items.toNat * 2 ^ 32), 0]

/-- R461: ERR_ADV removes the oldest record. -/
def State.errAdvance (s : State) : State := { s with ras := { s.ras with fifo := s.ras.fifo.drop 1 } }

/-- R462: firmware copies the oldest record into ERR_LOG slot NEXT, advances NEXT and COPIED, and counts the record. -/
def State.copyHead (s : State) : State :=
  match s.ras.fifo with
  | [] => s
  | r :: _ =>
    let n := s.ras.logNext
    let k := if r.outcome = 0 then 0 else r.src.toNat
    { s with ras := { s.ras with
      log := (r.words.zipIdx).foldl (fun t p => t.set (8 * n.toNat + p.2) p.1) s.ras.log, logNext := n + 1,
      copied := s.ras.copied + 1, counts := s.ras.counts.set k (s.ras.counts.get 0 k + 1) } }

/-- R462, R464: firmware drains the FIFO in SEQ order. -/
def State.drainErrors (s : State) : State := s.ras.fifo.foldl (fun s _ => s.copyHead.errAdvance) s

/-! ## Cache ways (R322 to R325) -/

/-- R325: the ways disabled now, in the layout of WAYMAP. -/
def State.inforce (s : State) : Word := s.caches.off.zeroExtend 64

/-- R324: whether a map stays within the limit in a cache's field. -/
def mapFits (off : BitVec 28) (k : CacheId) : Bool :=
  decide (((List.range (cacheWays k)).filter fun w => off.getLsbD (cacheField k + w)).length ≤ cacheLimit k)

/-- The three caches. -/
def allCaches : List CacheId := [.l1i, .l1d, .l2]

/-- R457: the source code of a cache. -/
def cacheSrc : CacheId → Nat
  | .l1i => 1 | .l1d => 2 | .l2 => 3

/-- R323: a way leaves lookup and victim choice in every set; its lines leave the cache, and the first-level caches lose
what the L2 lost (R312). -/
def Caches.disable (c : Caches) (k : CacheId) (w : Nat) : Caches :=
  let gone := ((c.tags k).filter fun e => e.1 % 16 = w).map (·.2.line)
  let c1 := c.setTags k ((c.tags k).filter fun e => e.1 % 16 ≠ w)
  let c2 := if k = .l2 then gone.foldl Caches.dropL1 c1 else c1
  { c2 with off := c2.off ||| (1 <<< (cacheField k + w) : BitVec 28) }

/-- The bits of a cache's field in the way-disable map. -/
def cacheBits (k : CacheId) : Word := Word.ofNat ((2 ^ cacheWays k - 1) * 2 ^ cacheField k)

/-- R325: the new map of a way that is disabled: the map that the Tack store will hold after the writes on their way, with the
way's bit set. A field that R324 refuses, of which nothing was applied, is taken from the ways disabled now (DEDUCED, log
entry 120). -/
def State.nextMap (s : State) (k : CacheId) (w : Nat) : Word :=
  let base := (((s.tack.queue ++ s.tack.heldW).filter fun x => x.reg = 1).getLast?.map (·.value)).getD (s.tack.read 1)
  let kept := allCaches.foldl (fun (m : Word) c =>
    if mapFits (m.truncate 28) c then m else (m &&& ~~~(cacheBits c)) ||| (s.inforce &&& cacheBits c)) base
  kept ||| (1 <<< (cacheField k + w) : Word)

/-- R322 to R325, R458: a way is disabled and the new map committed; a cache at its limit disables no further way. -/
def State.disableWay (s : State) (k : CacheId) (w : Nat) : State :=
  if cacheWays k ≤ w ∨ s.caches.wayOff k w ∨ cacheLimit k ≤ s.caches.waysOff k then s
  else
    let s1 := s.putCaches (s.caches.disable k w) none
    let (e, s2) := s1.tackRaw 1 (s1.nextMap k w) .firmware
    let s3 := s2.tackNotify e.toList
    s3.record { ErrRec.mk0 0x10C (cacheSrc k) 8 none with
      unit := BitVec.ofNat 16 w, info := Word.ofNat e.isSome.toNat }

/-- R321: an uncorrectable error in the copy of a line that the way holds. A clean copy is invalidated, and the next access
refills it; in a dirty one the chunk is marked poisoned and the line is written back. Answers whether a chunk was marked. -/
def State.lineError (s : State) (k : CacheId) (w a : Nat) : Bool × State :=
  let line := a / 128
  match (s.caches.tags k).find? fun e => e.1 % 16 = w && e.2.line = line with
  | none => (false, s)
  | some e =>
    if e.2.dirty then
      let s1 := { s with mem := { s.mem with store := s.mem.store.putMark (a / 16) true } }
      (true, s1.putCaches (s.caches.cleanLine line) none)
    else
      let c := s.caches.setTags k ((s.caches.tags k).del e.1)
      (false, s.putCaches (if k = .l2 then c.dropL1 line else c) none)

/-- R321, R324, R458: an error in way `w` is recorded, with WAYLIMIT where its cache can lose no further way. -/
def State.cacheError (s : State) (k : CacheId) (w : Nat) (bad : Bool) (a : BitVec 52) (syn : BitVec 16) : State :=
  let (poisoned, s1) := if bad then s.lineError k w a.toNat else (false, s)
  s1.record { ErrRec.ecc ⟨BitVec.ofNat 16 w, a.zeroExtend 64, syn⟩ (if bad then 0x102 else 0x101) (cacheSrc k)
      poisoned.toNat s.curCtx with
    rflags := if cacheLimit k ≤ s.caches.waysOff k then 1 else 0 }

/-- R322, R384: the earlier corrected errors of a way that lie within 86,400 s of one now, by the copy of gcount that loads do
not change. -/
def State.recentErrors (s : State) (k : CacheId) (w : Nat) : List Word :=
  (s.ras.ceTimes.get [] (cacheField k + w)).filter fun t =>
    decide ((Word.ofNat s.tclkNow - t).toNat ≤ 15120000000000)

/-- R322: whether firmware disables the way for an error, and the state once the error has had its effect. -/
def State.wayError (s : State) (k : CacheId) (w : Nat) : CacheErr → Bool × State
  | .none => (true, s)
  | .uncorrectable a syn => (true, s.cacheError k w true a syn)
  | .corrected a syn =>
    let ts := s.recentErrors k w ++ [Word.ofNat s.tclkNow]
    let s1 := s.cacheError k w false a syn
    (decide (3 ≤ ts.length), { s1 with ras := { s1.ras with ceTimes := s1.ras.ceTimes.put [] (cacheField k + w) ts } })

/-- R325: the part of the committed map that is applied: a field over its limit is left out. -/
def mapApplied (m : Word) : BitVec 28 :=
  let off : BitVec 28 := m.truncate 28
  allCaches.foldl (fun o k =>
    if mapFits off k then o
    else o &&& ~~~(BitVec.ofNat 28 ((2 ^ cacheWays k - 1) * 2 ^ cacheField k))) off

/-- R325: the committed map is applied, with a record where a field of it is not. -/
def State.applyWayMap (s : State) : State :=
  let m := s.tack.read 1
  let off := mapApplied m
  let s1 := { s with caches := { s.caches with off := off } }
  if off = m.truncate 28 then s1 else s1.record { ErrRec.mk0 0x10D 0xF 8 none with info := m }

/-- The ways named by a map, as cache and way. -/
def waysIn (m : BitVec 28) : List (CacheId × Nat) :=
  allCaches.flatMap fun k =>
    ((List.range (cacheWays k)).filter fun w => m.getLsbD (cacheField k + w)).map fun w => (k, w)

/-! ## Firmware images (R410 to R413) -/

/-- A field of an image's header at physical address `a`. -/
def State.imgField (s : State) (a o n : Nat) : Nat := leNat (s.extBytes (a + o) n)

/-- R410: whether an image's header and lengths are as the layout requires. `lim` bounds the lengths and `base` is where
its IRAM image is placed. -/
def State.imgHeaderOk (s : State) (a magic lim base : Nat) : Bool :=
  let f := s.imgField a
  let ilen := f 0x10 4
  f 0 4 = magic && f 4 2 = 3 && decide (f 0x0C 4 < 2) && ilen % 16 = 0 && decide (ilen ≤ lim) &&
  f 0x14 4 % 16 = 0 && decide (f 0x14 4 ≤ lim) && decide (base ≤ f 0x18 4) && decide (f 0x18 4 < base + ilen) &&
  f 0x1C 4 = 0 && f 0xB0 80 = 0

/-- The bytes of an image before its signature. -/
def State.imgLen (s : State) (a : Nat) : Nat := 256 + s.imgField a 0x10 4 + s.imgField a 0x14 4

/-- R411 steps 2 and 3: the key hashes to `want` and the signature verifies over every byte before it. -/
def State.imgSigned (s : State) (a : Nat) (want : BitVec 384) : Bool :=
  let pub := s.extBytes (a + 0x50) 96
  let n := s.imgLen a
  decide (leNat (sha384 pub) = want.toNat) && ecdsaOk pub (sha384 (s.extBytes a n)) (s.extBytes (a + n) 96)

/-- Whether a poisoned chunk lies in an image: the ROM's load of it faults, and the image is refused. -/
def State.imgPoison (s : State) (a : Nat) : Bool := s.extPoison a (s.imgLen a + 96)

/-- R319, R392: the reads of an image that is verified: its header, and the rest where the header is in order. -/
def State.imageRead (s : State) (a : Nat) (headerOk : Bool) : State :=
  let s1 := s.extRead a 256
  if headerOk then s1.extRead (a + 256) (s.imgLen a + 96 - 256) else s1

/-- R319, R411: bytes that the ROM writes to memory. -/
def State.imageWrite (s : State) (a : Nat) (bs : List Byte) : State :=
  (cuts 128 (bs.length / 128 + 2) a bs.length).foldl (fun s q => s.unitWrite q.1 ((bs.drop (q.1 - a)).take q.2) false none) s

/-- R410, R411 step 1: the header of a main image. -/
def State.fwHeader (s : State) (a : Nat) : Bool := s.imgHeaderOk a 0x4D4F4F47 0x40000 0x10000000

/-- R411: the ROM accepts a main image. -/
def State.fwOk (s : State) (a : Nat) : Bool :=
  s.fwHeader a && !s.imgPoison a && s.imgSigned a Config.romKeyHash &&
  decide (((s.tack.newest 2).map (·.value)).getD 0 ≤ Word.ofNat (s.imgField a 8 4))

/-- R411: an accepted main image goes into IRAM, DRAM and the recovery region, and GDIGEST is written and locked. -/
def State.acceptImage (s : State) (a : Nat) : State :=
  let f := s.imgField a
  let iram := s.extBytes (a + 256) (f 0x10 4)
  let dram := s.extBytes (a + 256 + f 0x10 4) (f 0x14 4)
  let s1 := (s.imageWrite s.recBase iram).imageWrite (s.recBase + 0x40000) dram
  { s1 with
    groom := { s1.groom with
      iram := s.extSub (a + 256) (f 0x10 4), dram := s.extSub (a + 256 + f 0x10 4) (f 0x14 4),
      gdigest := digestWords (sha384 (iram ++ dram)), lock := s.groom.lock ||| 1,
      copyLen := (f 0x10 4, f 0x14 4), entry := BitVec.ofNat 32 (f 0x18 4),
      lkeyHash := BitVec.ofNat 384 (f 0x20 48), advance := f 0x0C 4 % 2 = 1 },
    bridle := { s.bridle with
      line := 3, minor := BitVec.ofNat 16 (f 6 2), svn := BitVec.ofNat 32 (f 8 4) } }

/-- R413: the extension image that firmware finds (DESIGN CHOICE, log entry 11) is verified, and placed when it is accepted. -/
def State.loadExtension (s0 : State) : State :=
  let a := Config.extBase
  let head := s0.imgHeaderOk a 0x54584547 0x10000 0x10030000
  let s := if s0.groom.lkeyHash ≠ 0 then s0.imageRead a head else s0
  if s.groom.lkeyHash ≠ 0 ∧ head ∧ !s.imgPoison a ∧ s.imgSigned a s.groom.lkeyHash then
    let f := s.imgField a
    let put := fun (t img : Tbl Byte) =>
      (t.filter fun p => decide (p.1 < 0x30000)) ++ img.map fun p => (0x30000 + p.1, p.2)
    -- R407, R416: the notice of a halt ends with it
    let s := if s.groom.extHalted then s.gClear 40 else s
    { s with groom := { s.groom with
      iram := put s.groom.iram (s.extSub (a + 256) (f 0x10 4)),
      dram := put s.groom.dram (s.extSub (a + 256 + f 0x10 4) (f 0x14 4)),
      extOk := true, extHalted := false, extEntry := BitVec.ofNat 32 (f 0x18 4) } }
  else s

/-! ## Reset (R491, R492, R512) -/

/-- A line as memory outside the block holds it. -/
def Store.putLine (m : Store) (line : Nat) (v : List Byte × List Bool) : Store :=
  (v.2.zipIdx).foldl (fun m p => m.putMark (8 * line + p.2) p.1) (m.putBytes (128 * line) v.1)

/-- R491: what memory holds when the dirty lines of the caches are lost. -/
def State.lostCaches (s : State) : HostMem :=
  { s.mem with store := s.caches.stale.foldl (fun m e => m.putLine e.1 e.2) s.mem.store }

/-- R491: PORESET_N is asserted. The device keeps what the commit in progress left in it (R485); memories outside the
block and the levels on LIC_IRQ are not the block's to lose. What only the caches held is lost. -/
def State.assertReset (s : State) (cut : CommitCut) : State :=
  State.afterPoreset s.pending s.lostCaches s.buf (s.tack.cut s.tclkNow cut) s.groom.lic s.free s.wir

/-- R491. -/
def execPoresetAssert (cut : CommitCut) (s : State) : Out := .next (s.assertReset cut)

/-- R493 step 1: PORESET_N is released. The straps are sampled, the scoreboard is EMPTY (R339), and a test mode ends (R512). -/
def State.releaseReset (s : State) (straps : Straps) (test : SelfTest) : State :=
  { s with
    boot := { s.boot with por := false, sstep := 1, straps := straps, test := test },
    bridle := { s.bridle with stand := true },
    buf := { s.buf with sb := [], pend := [] },
    wir := .bypass }

/-- R493. -/
def execPoresetRelease (straps : Straps) (test : SelfTest) (s : State) : Out :=
  .next (if s.boot.por then s.releaseReset straps test else s)

/-! ## Start-up (R493 to R496) -/

/-- A start-up step is completed. -/
def State.atStep (s : State) (n : Nat) : State := { s with boot := { s.boot with sstep := n } }

/-- R495: start-up ends. -/
def State.startupFails (s : State) : State := { s with boot := { s.boot with sfail := true } }

/-- R22, R379, R498: fields backed by the Tack store are loaded after replay, into both copies. -/
def State.loadRwp (s : State) : State :=
  let gate := ((s.cfgAct 0x30 0).putBits 19 8 (s.tack.read 4).toNat).putBits 55 32 (s.tack.read 5).toNat
  let put := fun (t : Tbl Word) =>
    (t.set (cfgKey 0x40 0) (Word.ofNat ((s.tack.read 3).bits 18 0))).set (cfgKey 0x30 0) gate
  { s with cfg := { active := put s.cfg.active, staged := put s.cfg.staged } }

/-- R493 steps 8 and 9: threaded mode is entered, thread 0 runs the image, and the core is released. POWERUPS counts the
completed replay (R484). -/
def State.startThreads (s : State) : State :=
  let s1 := s.modGthread 0 fun h => { h.settleAll with pc := s.groom.entry }
  (({ s1 with groom := { s1.groom with threaded := true } }).atStep 9).tackWrite 8 (s.tack.read 8 + 1) .firmware

/-- R493 step 7, R495: array BIST. A failing cache way is disabled, unless that exceeds the limit. -/
def State.arrayTest (s : State) : State :=
  let bad := waysIn s.boot.test.badWays
  if !s.boot.test.arraysOk then s.startupFails
  else if !(allCaches.all fun k => mapFits (s.caches.off ||| s.boot.test.badWays) k) then s.startupFails
  else ((bad.foldl (fun s p => s.disableWay p.1 p.2) s).atStep 7).startThreads

/-- R481: the device fails at start-up: its record and DEVFAIL, with every register at its default. -/
def State.deviceFails (s : State) (a : Nat) : State :=
  State.record { s with tack := { s.tack with devFail := true, ready := true, value := [] } }
    { ErrRec.mk0 0x102 0xF 8 none with addr := Word.ofNat a }

/-- R493 step 6: Tack replay, and the way map. A failure leaves every register at its default. -/
def State.replayStep (s : State) : State :=
  if s.tack.formatFails then
    ((s.deviceFails 0x200000).loadRwp).startupFails
  else
    ((State.applyWayMap { s with tack := s.tack.replay s.tclkNow }).loadRwp.atStep 6).arrayTest

/-- R493 step 5, R496: an image is read and verified; refused, the ROM waits for FWLOAD. -/
def State.verifyImage (s : State) (a : Nat) (valid : Bool) : State :=
  let s1 := if valid then s.imageRead a (s.fwHeader a) else s
  if valid && s.fwOk a then (((State.acceptImage { s1 with boot := { s1.boot with fwWait := false } } a).atStep 5)).replayStep
  else { s1 with boot := { s1.boot with fwWait := true } }

/-- R492 to R494: steps 2 to 5. TK_RESET_N is driven high after PLL lock, and FW_VALID is sampled when step 5 begins. -/
def State.pllLock (s : State) (band icp : BitVec 6) (fwValid : Bool) : State :=
  let s1 := { s with
    boot := { s.boot with pllLocked := true, band := band, icp := icp, sstep := 3, fwValid := fwValid },
    ports := { s.ports with tkResetN := true } }
  if !s.boot.test.romOk then s1.startupFails
  else
    let s2 := s1.atStep 4
    if !s.boot.test.tackOk then ((s2.deviceFails 0).loadRwp).startupFails
    else s2.verifyImage (s.boot.straps.fwBase.toNat * 4096) fwValid

/-- R506: start-up stops where PWRFAIL_N has been asserted before Bridle ready. -/
def State.booting (s : State) : Bool := !s.boot.sfail && !s.groom.halted && !s.power.pfail

/-- R487, R493. -/
def execPllLock (band icp : BitVec 6) (fwValid : Bool) (s : State) : Out :=
  eventStep (s.boot.sstep = 1 && s.booting) (fun s => s.pllLock band icp fwValid) s

/-- R496: a write of FWLOAD with GO. It is accepted from REGP with requester class host, while FWWAIT is 1; the sideband and
network classes are refused (R490). -/
def State.fwload (s : State) (cls : BitVec 2) (v : Word) : State :=
  if cls ≠ 0 then s.answer (.regp cls) 0 false
  else if !s.boot.fwWait then s.respond 0 false
  else
    let s1 := State.respond { s with boot := { s.boot with fwloadAddr := v &&& 0xFFFFFFFFFF000 } } 0 false
    if v.bit 0 && s.booting then s1.verifyImage (v.bits 51 12 * 4096) true else s1

/-- R496. -/
def execFwloadGo (cls : BitVec 2) (v : Word) (s : State) : Out := eventStep true (fun s => s.fwload cls (v ||| 1)) s

/-! ## Bridle ready (R412, R464, R465, R489, R493 step 10) -/

/-- R489: CLOCK_CAL as the band in use would have it. -/
def State.clockCal (s : State) : Word := Word.ofNat (s.boot.band.toNat + s.boot.icp.toNat * 64 + 4096)

/-- R489, R412: what firmware commits after Bridle ready: the band in use, where it differs from the committed one, and the
image's security version. -/
def State.readyWrites (s : State) : State :=
  let old := s.tack.read 6
  let s1 := if old.bit 12 && old.bits 5 0 = s.boot.band.toNat then s else s.tackWrite 6 s.clockCal .firmware
  if s1.groom.advance ∧ s1.tack.read 2 < Word.ofNat s1.bridle.svn.toNat then
    s1.tackWrite 2 (Word.ofNat s1.bridle.svn.toNat) .firmware
  else s1

/-- R493 step 10: the attribute map is committed with every entry EN = 0 at start-up. -/
def State.clearMap (s : State) : State :=
  let put := fun (t : Tbl Word) =>
    (List.range 16).foldl (fun t i => (t.del (cfgKey 0x10 i)).del (cfgKey 0x11 i)) t
  { s with cfg := { active := put s.cfg.active, staged := put s.cfg.staged } }

/-- R464, R465: Bridle ready, with the error FIFO drained before it. Held commands are served in the order of their GOs
(R425). -/
def State.bridleIsReady (s : State) : State :=
  let s1 := if s.boot.sstep = 9 then s.drainErrors.clearMap.atStep 10 else s.drainErrors
  let s2 := { s1 with
    boot := { s1.boot with brLevel := 3 }, bridle := { s1.bridle with ready := true, stand := false },
    ras := { s1.ras with restarts := 0 } }
  let s3 := s2.loadExtension.readyWrites
  (s3.bridle.goOrder.foldl (fun s m => if (s.mbox m).held then s.mbServe m else s) s3).trigger

/-- Whether firmware can reach Bridle ready: the image runs, the block stands, no failure stops it, and no machine check is
pending or in its handler (R464). -/
def State.canBeReady (s : State) : Bool :=
  s.bridle.stand && decide (9 ≤ s.boot.sstep) && s.booting && s.groom.threaded && !s.groom.ipend.bit 33 && !s.groom.inMc

/-- R465. -/
def execBridleReady (s : State) : Out := eventStep s.canBeReady State.bridleIsReady s

/-- R321 to R324: an error in a way that is in use, and the disabling that it leads to (DESIGN CHOICE, log entry 92). -/
def execWayDisable (cache : CacheId) (way : BitVec 4) (err : CacheErr) (s : State) : Out :=
  eventStep (decide (9 ≤ s.boot.sstep)) (fun s =>
    if cacheWays cache ≤ way.toNat ∨ s.caches.wayOff cache way.toNat then s
    else match s.wayError cache way.toNat err with
      | (true, s1) => s1.disableWay cache way.toNat
      | (false, s1) => s1) s

end Sys2Proof.Machine
end

