-- ==== Sys2Proof/Machine/Aperture.lean ====
section
/-! DEFINITION. The BLK_BASE aperture: what each requester reads and writes at each offset (R16, R17, R31, R362, R363, R373,
R379, R393, R418, R461, R471 to R473, R490, R498, R508, R511). -/

namespace Sys2Proof.Machine

/-! ## Lanes (R17, R508) -/

/-- The bits of a 64-bit register that an access names. -/
def laneMask : Lanes → Word
  | .both => 0xFFFFFFFFFFFFFFFF
  | .lo => 0xFFFFFFFF
  | .hi => 0xFFFFFFFF00000000
  | .neither => 0

/-- R17: a write of some lanes over an old value; bits outside `mask` are reserved and stay 0 (R16). -/
def laneMerge (ln : Lanes) (old new mask : Word) : Word := ((old &&& ~~~(laneMask ln)) ||| (new &&& laneMask ln)) &&& mask

/-- Whether a requester is the Groom. -/
def fromGroom : Requester → Bool
  | .groom _ => true
  | _ => false

/-- Whether a requester is REGP with requester class host. -/
def fromHost : Requester → Bool
  | .regp c => c = 0
  | _ => false

/-- Whether a requester is REGP. -/
def fromRegp : Requester → Bool
  | .regp _ => true
  | _ => false

/-- R362: the registers that accept only 64-bit accesses: DOORBELL, QTAKE, QDONE and QTAKEANY. -/
def only64 (o : Nat) : Bool :=
  (decide (0x100000 ≤ o) && decide (o < 0x110000) && o % 16 = 0) || (decide (0x110000 ≤ o) && decide (o < 0x120000)) ||
  o = 0x1E0000

/-! ## Registers by area -/

/-- R490: BLK_ID. -/
def State.blkId (s : State) : Word :=
  Word.ofNat (0x7160 + 0x03 * 2 ^ 16 + 16 * 2 ^ 24 + 10 * 2 ^ 32 + 2 * 2 ^ 36 + 32 * 2 ^ 40 + 12 * 2 ^ 48 + 2 ^ 52 +
    s.boot.brLevel.toNat * 2 ^ 56)

/-- R490, R502: the code of the thermal state. -/
def thermCode : Therm → Nat
  | .normal => 0 | .throttle => 1 | .emergency => 2

/-- R490: GSTATUS. -/
def State.gstatus (s : State) : Word :=
  let b := s.boot
  Word.ofNat (b.errBusy.toNat + thermCode s.power.therm * 2 + s.power.pfail.toNat * 8 + s.bridle.stand.toNat * 16 +
    b.fwWait.toNat * 32 + b.sstep % 16 * 256 + b.sfail.toNat * 4096 + b.busyOff.toNat * 2 ^ 32)

/-- R490: a register of the identification area. -/
def State.identWord (s : State) (o : Nat) : Option Word :=
  match o with
  | 0x00 => some s.blkId
  | 0x10 => some s.gstatus
  | 0x18 => some (s.cfg.act 0x70 3)
  | 0x20 => some (s.cfg.stg 0x70 3)
  | 0x28 => some s.boot.fwloadAddr
  | _ => none

/-- R488, R498: ACLK, once the PLL has locked, is gated while the tile unit has no work. -/
def State.aGated (s : State) : Bool :=
  s.boot.pllLocked && (s.cfg.act 0x70 3).bit 0 && s.tile.sad0.queue.isEmpty && s.tile.sad1.queue.isEmpty &&
    s.runs.run0.isNone && s.runs.run1.isNone

/-- R498: PWR_STAT. -/
def State.pwrStat (s : State) : Word :=
  let cls := fun (r : Option Run) => ((r.map (·.image.energy)).getD 0) % 16
  let held := s.core.ctxs.any fun p => (p.2.waitAt.map (·.why)) = some .governor
  Word.ofNat (s.power.tel.toNat + cls s.runs.run0 * 2 ^ 20 + cls s.runs.run1 * 2 ^ 24 + held.toNat * 2 ^ 28 +
    s.power.temp.toNat * 2 ^ 32)

/-- R498: a register of the power and clocks area. -/
def State.powerWord (s : State) (o : Nat) : Option Word :=
  match o with
  | 0x60000 => some (s.cfg.act 0x40 0)
  | 0x60008 => some (s.cfg.stg 0x40 0)
  | 0x60010 => some s.pwrStat
  | 0x60018 => some (s.cfg.act 0x70 0xC003)
  | 0x60020 => some (s.cfg.stg 0x70 0xC003)
  | 0x60028 => some (Word.ofNat (s.boot.pllLocked.toNat + s.boot.band.toNat * 2 + s.aGated.toNat * 128))
  | _ => none

/-- R461: ERR_STAT. -/
def State.errStat (s : State) : Word :=
  Word.ofNat (s.ras.fifo.length + s.ras.ovf.toNat * 32 + s.ras.nextSeq.toNat * 2 ^ 32)

/-- R461: a register of the error area as the Groom reads it. -/
def State.rasWord (s : State) (o : Nat) : Option Word :=
  if o < 0x40040 then some (((s.ras.fifo.head?.map ErrRec.words).getD []).getD ((o - 0x40000) / 8) 0)
  else if o = 0x40040 ∨ o = 0x40058 then some 0
  else if o = 0x40048 then some s.errStat
  else if o = 0x40050 then some (Word.ofNat s.ras.lost.toNat)
  else if o = 0x40060 then some (Word.ofNat (s.ras.logNext.toNat + s.ras.copied.toNat * 2 ^ 16))
  else if 0x41000 ≤ o ∧ o < 0x45000 then some (s.ras.log.get 0 ((o - 0x41000) / 8))
  else none

/-- R461: the registers that only the Groom reaches: the FIFO's and RAS_CTL. -/
def rasGroomOnly (o : Nat) : Bool := decide (o < 0x40048) || o = 0x40058

/-- R472: TK_STAT. -/
def State.tkStat (s : State) : Word :=
  let k := s.tack
  Word.ofNat (k.ready.toNat + k.single.toNat * 2 + k.devFail.toNat * 4 + k.sealedNow.toNat * 8 + k.queue.length % 16 * 256 +
    k.repairs % 65536 * 2 ^ 16 + k.badSlots % 65536 * 2 ^ 32)

/-- R472: TK_LVL. The level holds 0 before replay (R15). -/
def State.tkLevel (s : State) (n : Nat) : Word :=
  Word.ofNat ((if s.tack.ready then s.tack.levelAt s.tclkNow n else 0) + tkClass n * 2 ^ 32)

/-- R471, R472: a register of the Tack window; `groom` is false for REGP and the core. -/
def State.tackWord (s : State) (groom : Bool) (o : Nat) : Option Word :=
  if o < 0x31000 then some (s.tack.read ((o - 0x30000) / 8))
  else if o = 0x31000 then some s.tkStat
  else if o = 0x31008 ∧ groom then some (Word.ofNat (s.tack.wcode.toNat + s.tack.wreg * 256))
  else if o = 0x31010 ∧ groom then some (Word.ofNat s.tack.sealedNow.toNat)
  else if 0x32000 ≤ o ∧ o < 0x33000 then some (s.tkLevel ((o - 0x32000) / 8))
  else none

/-- R418: MB_STATUS. -/
def Mailbox.statusWord (b : Mailbox) : Word :=
  let st := match b.st with
    | .idle => 0 | .busy => 1 | .done => 2
  Word.ofNat (st + b.overrun.toNat * 4 + b.abortReq.toNat * 8 + b.irq.toNat * 16 + b.lastStat.toNat * 2 ^ 16 +
    b.doneCnt.toNat * 2 ^ 32)

/-- R418: BR_INFO. -/
def State.brInfo (s : State) : Word :=
  let b := s.bridle
  Word.ofNat (3 + b.ready.toNat * 2 ^ 8 + b.stand.toNat * 2 ^ 9 + s.power.pfail.toNat * 2 ^ 10 + b.line.toNat * 2 ^ 16 +
    b.refused.toNat * 2 ^ 32)

/-- R418: the registers that every requester may read. -/
def State.sharedMbWord (s : State) (o : Nat) : Option Word :=
  if o = 0x18000 then some s.brInfo
  else if 0x18100 ≤ o ∧ o < 0x18180 then some (s.cfg.act 0x50 (16 + (o - 0x18100) / 8))
  else if 0x18200 ≤ o ∧ o < 0x18280 then some (s.cfg.stg 0x50 (16 + (o - 0x18200) / 8))
  else none

/-- R418: a doubleword of a mailbox. -/
def Mailbox.word (b : Mailbox) (r : Nat) : Word :=
  if r < 0x100 then Word.ofNat (b.cmd.leAt r 8)
  else if r < 0x200 then Word.ofNat (b.resp.leAt (r - 0x100) 8)
  else if r = 0x208 then b.statusWord
  else 0

/-- R379: GATE_STAT. -/
def State.gateStat (s : State) : Word :=
  let g := s.gate
  Word.ofNat (g.epoch.toNat + g.arrived % 256 * 2 ^ 32 + g.out.toNat * 2 ^ 40 + g.timeout.toNat * 2 ^ 41 +
    g.loadArm.toNat * 2 ^ 42 + g.rtt.toNat * 2 ^ 48)

/-- R373: WCS. -/
def Window.status (v : Window) : Word :=
  let st := match v.st with
    | .closed => 0 | .opening => 1 | .opened => 2 | .closing => 3
  Word.ofNat (st * 4 + v.gen.toNat * 16 + v.last.toNat * 2 ^ 12 + v.evOpened.toNat * 2 ^ 16 + v.evFull.toNat * 2 ^ 17 +
    v.evClosed.toNat * 2 ^ 18 + v.evRejected.toNat * 2 ^ 19 + v.count % 2 ^ 21 * 2 ^ 20)

/-- R362: a register of the queue area that reads without a side effect. A reserved one reads 0 (R16). -/
def State.queueWord (s : State) (o : Nat) : Option Word :=
  if o < 0x110000 then some (if o % 16 = 8 then Word.ofNat (s.queue ((o - 0x100000) / 16)).tail.toNat else 0)
  else if o < 0x120000 then some 0
  else if o < 0x140000 then
    let q := (o - 0x120000) / 32
    some (match o % 32 with
      | 0 => s.qcfg q
      | 8 => s.qring q
      | 16 => s.qcring q
      | _ => s.qstat q)
  else if o < 0x160000 then
    let q := (o - 0x140000) / 32
    some (match o % 32 with
      | 0 => s.cfg.stg 0x20 q
      | 8 => s.cfg.stg 0x21 q
      | 16 => s.cfg.stg 0x22 q
      | _ => 0)
  else if o = 0x1E0000 then some 0
  else match o with
    | 0x1F0000 => some 0
    | 0x1F0008 => some s.gateCfg
    | 0x1F0010 => some (s.cfg.stg 0x30 0)
    | 0x1F0018 => some s.gateStat
    | 0x1F0020 => some s.gcount
    | 0x1F0028 => some s.gate.gcountLd
    | _ => none

/-- R373: a register of the window table. -/
def State.windowWord (s : State) (o : Nat) : Option Word :=
  if o < 0x208000 then
    let v := s.window ((o - 0x200000) / 32)
    some (match o % 32 with
      | 0 => s.wcfg ((o - 0x200000) / 32)
      | 8 => v.wtgt
      | 16 => v.wlen
      | _ => v.status)
  else if 0x210000 ≤ o ∧ o < 0x212000 then some (s.cfg.stg 0x28 ((o - 0x210000) / 8))
  else none

/-- R393: the Groom memory apertures are valid: the Groom is halted with no restart to come. -/
def State.gmemValid (s : State) : Bool := s.boot.sfail || (s.groom.halted && s.bridle.stand)

/-- R393: a doubleword of IRAM or DRAM. -/
def State.gmemWord (s : State) (o : Nat) : Word :=
  if o < 0xC0000 then Word.ofNat (s.groom.iram.leAt (o - 0x80000) 8) else Word.ofNat (s.groom.dram.leAt (o - 0xC0000) 8)

/-- R393: a read of the doubleword in some lanes: none where a word that it names holds an uncorrectable error. -/
def State.gmemRead (s : State) (o : Nat) (ln : Lanes) : Option Word :=
  let a := if o < 0xC0000 then 0x10000000 + (o - 0x80000) else 0x20000000 + (o - 0xC0000)
  if (ln ≠ .hi && (s.gBad a).isSome) || (ln ≠ .lo && (s.gBad (a + 4)).isSome) then none else some (s.gmemWord o)

/-- R511: a register of the debug area. -/
def State.debugWord (s : State) (o : Nat) : Option Word :=
  if o = 0x400000 then some (Word.ofNat s.pmc.en.toNat)
  else if 0x400100 ≤ o ∧ o < 0x400140 then some (s.pmc.cnt.get 0 ((o - 0x400100) / 8))
  else none

/-- R513: what the instruments read of the aperture: TEMP, CLK_STAT, GSTATUS with THERM, TK_STAT and the PMC registers. -/
def State.ijWord (s : State) (o : Nat) : Option Word :=
  if o = 0x10 then some s.gstatus
  else if o = 0x31000 then some s.tkStat
  else if o = 0x60010 then some (s.pwrStat &&& 0xFF00000000)
  else if o = 0x60028 then s.powerWord o
  else s.debugWord o

/-- R513, R493 step 7: the BIST results, once step 7 has run: the failing ways, and bit 28 where another array fails. -/
def State.bistWord (s : State) : Word :=
  if 7 ≤ s.boot.sstep ∨ (s.boot.sstep = 6 ∧ s.boot.sfail) then
    Word.ofNat (s.boot.test.badWays.toNat + (!s.boot.test.arraysOk).toNat * 2 ^ 28)
  else 0

/-! ## Reads -/

/-- What a read answers: the register's 64 bits, or none where it is refused, and the state after it. -/
abbrev ApRead := Option Word × State

/-- R419: a read of the mailbox area. -/
def State.mbRead (s : State) (who : Requester) (o : Nat) : ApRead :=
  if 0x18000 ≤ o then (s.sharedMbWord o, s)
  else
    let m := (o - 0x10000) / 1024
    if 0x210 ≤ o % 1024 then (none, s)
    else if !s.mbMay who m then (if fromRegp who then none else some 0, s.mbRefuse who)
    else (some ((s.mbox m).word (o % 1024)), s)

/-- R366, R367: a read of QTAKE or QTAKEANY. Only a core context takes an entry. -/
def State.takeRead (s : State) (who : Requester) (o : Nat) : Word × State :=
  let c := if who = .core then s.curCtx else none
  if o = 0x1E0000 then
    match c with
    | some n => s.qtakeAny n
    | none => (takeWord 0 false 2 0, s)
  else s.qtake ((o - 0x110000) / 16) c

/-- A read of the aperture at offset `o`, a multiple of 8, in lanes `ln`: all 64 bits of the register. -/
def State.apRead64 (s : State) (who : Requester) (o : Nat) (ln : Lanes) : ApRead :=
  if who = .ijtag then (s.ijWord o, s)
  else if o < 0x10000 then (s.identWord o, s)
  else if o < 0x30000 then s.mbRead who o
  else if o < 0x40000 then (s.tackWord (fromGroom who) o, s)
  else if o < 0x60000 then
    match s.rasWord o with
    | none => (none, s)
    | some w =>
      (match who with
        | .groom _ => some w
        | .regp _ => if rasGroomOnly o then none else some w
        | _ => some 0, s)
  else if o < 0x80000 then (s.powerWord o, s)
  else if o < 0x100000 then
    (match who with
      | .groom _ => none
      | .regp _ => if fromHost who && s.gmemValid then s.gmemRead o ln else none
      | _ => some 0, s)
  else if (0x110000 ≤ o ∧ o < 0x120000 ∧ o % 16 = 0) ∨ o = 0x1E0000 then
    let (w, s1) := s.takeRead who o
    (some w, s1)
  else if o < 0x200000 then (s.queueWord o, s)
  else if o < 0x400000 then (s.windowWord o, s)
  else
    (match who with
      | .groom _ => s.debugWord o
      | .regp _ => if fromHost who && decide (0x400100 ≤ o) && (s.cfg.act 0x70 3).bit 16 then s.debugWord o else none
      | _ => (s.debugWord o).map fun _ => 0, s)

/-- R17, R31, R508: whether an access is refused for its form: one that names no byte, one that is not naturally aligned, a
32-bit access of a register that takes 64-bit accesses only, a 64-bit access of the Groom, or an unknown class. -/
def formRefused (who : Requester) (o : Nat) (ln : Lanes) : Bool :=
  ln = .neither || (o % 8 ≠ 0 && !(o % 8 = 4 && ln = .hi)) || (only64 (o / 8 * 8) && ln ≠ .both) ||
  (fromGroom who && ln = .both) || who = .regp 3

/-- R17: a read of the aperture: the value in the lanes that the access names. -/
def State.apRead (s : State) (who : Requester) (o : Nat) (ln : Lanes) : ApRead :=
  if formRefused who o ln then (none, s)
  else
    let (w, s1) := s.apRead64 who (o / 8 * 8) ln
    (w.map (· &&& laneMask ln), s1)

/-! ## Writes -/

/-- What a write answers: whether it was accepted or ignored rather than refused, and the state after it. -/
abbrev ApWrite := Bool × State

/-- R391, R363: the Groom writes lanes of the staged copy of a G-class register. -/
def State.stageWrite (s : State) (item index : Nat) (mask : Word) (ln : Lanes) (w : Word) : State :=
  { s with cfg := { s.cfg with
    staged := s.cfg.staged.set (cfgKey item index) (laneMerge ln (s.cfg.stg item index) w mask) } }

/-- R14, R470, R473: the Groom writes a field that Tack register `n` backs, with the register's other bits as committed; the
field takes the value when the commit completes. A write that changes nothing commits nothing. -/
def State.fieldWrite (s : State) (who : Requester) (n hi lo v : Nat) : State :=
  match who with
  | .groom t =>
    if s.fieldChanges n hi lo v then (s.tackWrite n (s.fieldWord n hi lo v) (.field t.toNat)).tkHoldThread t.toNat else s
  | _ => s

/-- R379, R22: a write of the staged GATE_CFG by the Groom. -/
def State.gateCfgWrite (s : State) (who : Requester) (ln : Lanes) (w : Word) : State :=
  let v := laneMerge ln (s.cfg.stg 0x30 0) w 0xFFFFFF3F1FFFFF
  let plain := fun (x : Word) => x &&& 0x3F1000FF
  let old := s.cfg.stg 0x30 0
  let s1 := { s with cfg := { s.cfg with
    staged := s.cfg.staged.set (cfgKey 0x30 0) ((old &&& ~~~(0x3F1000FF : Word)) ||| plain v) } }
  let s2 := if ln = .hi then s1 else s1.fieldWrite who 4 11 0 (v.bits 19 8)
  if ln = .lo then s2 else s2.fieldWrite who 5 23 0 (v.bits 55 32)

/-- R24, R490: a write that reaches GCTL's S-class field while the performance monitor runs is ignored and recorded. One that
finds it stopped changes nothing either: R490 gives the REG item as the one way to change the field, where R23 would accept
the write (DESIGN CHOICE, log entry 52). -/
def State.gctlBusy (s : State) (o : Nat) (ln : Lanes) : State :=
  if ln ≠ .hi ∧ s.pmc.en then
    { s with boot := { s.boot with
      errBusy := true, busyOff := if s.boot.errBusy then s.boot.busyOff else BitVec.ofNat 24 o } }
  else s

/-- R490, R498: who may write the identification area and the power area. -/
def mayControl (who : Requester) : Bool := fromGroom who || fromHost who

/-- R490: a write of the identification area. A write of the staged GCTL leaves its S-class field as it is. BUSYOFF becomes 0
when ERR_BUSY is cleared (DESIGN CHOICE, log entry 98). -/
def State.identWrite (s : State) (who : Requester) (o : Nat) (ln : Lanes) (w : Word) : State :=
  match o with
  | 0x10 =>
    if ln ≠ .hi ∧ w.bit 0 then { s with boot := { s.boot with errBusy := false, busyOff := 0 } } else s
  | 0x18 => s.gctlBusy o ln
  | 0x20 =>
    let s1 := s.gctlBusy o ln
    if fromGroom who then s1.stageWrite 0x70 3 0x10001 ln ((w &&& 1) ||| (s.cfg.stg 0x70 3 &&& 0x10000)) else s1
  | 0x28 =>
    if fromHost who ∧ s.boot.fwWait then s.fwload 0 (laneMerge ln s.boot.fwloadAddr w 0xFFFFFFFFFF001) else s
  | _ => s

/-- R498: a write of the power area. -/
def State.powerWrite (s : State) (who : Requester) (o : Nat) (ln : Lanes) (w : Word) : State :=
  match o with
  | 0x60008 => if ln = .hi then s else s.fieldWrite who 3 18 0 (w.bits 18 0)
  | 0x60020 => if fromGroom who then s.stageWrite 0x70 0xC003 0xFFFFFF ln w else s
  | _ => s

/-- R418, R422, R423: MB_DOORBELL. -/
def State.mbBell (s : State) (m : Nat) (w : Word) : State :=
  if w.bit 0 ∧ ((s.mbox m).st ≠ .busy ∨ !w.bit 1) then s.mbSubmit m
  else if w.bit 1 ∧ (s.mbox m).st = .busy then s.modMbox m fun b => { b with abortReq := true }
  else s

/-- The bytes of an area of a mailbox after a write of lanes. -/
def putLanes (t : Tbl Byte) (r : Nat) (ln : Lanes) (w : Word) : Tbl Byte :=
  match ln with
  | .both => t.putLe r 8 w.toNat
  | .lo => t.putLe r 4 (w.bits 31 0)
  | .hi => t.putLe (r + 4) 4 (w.bits 63 32)
  | .neither => t

/-- R418, R422: a write of mailbox `m` at its offset `r` by a requester that it accepts. The Groom writes responses. -/
def State.mbPut (s : State) (who : Requester) (m r : Nat) (ln : Lanes) (w : Word) : State :=
  let b := s.mbox m
  if r < 0x100 then
    if b.st = .busy then s.setMbox m { b with overrun := true } else s.setMbox m { b with cmd := putLanes b.cmd r ln w }
  else if r < 0x200 then
    if fromGroom who then s.setMbox m { b with resp := putLanes b.resp (r - 0x100) ln w } else s
  else if ln = .hi then s
  else if r = 0x200 then s.mbBell m w
  else s.setMbox m { b with overrun := b.overrun && !w.bit 2, irq := b.irq && !w.bit 4 }

/-- R419: a write of the mailbox area. -/
def State.mbWrite (s : State) (who : Requester) (o : Nat) (ln : Lanes) (w : Word) : ApWrite :=
  if 0x18000 ≤ o then ((s.sharedMbWord o).isSome, s)
  else
    let m := (o - 0x10000) / 1024
    if 0x210 ≤ o % 1024 then (false, s)
    else if !s.mbMay who m then (!fromRegp who, s.mbRefuse who)
    else (true, s.mbPut who m (o % 1024) ln w)

/-- R472, R473: a write of the Tack window by the Groom. -/
def State.tackPut (s : State) (t o : Nat) (ln : Lanes) (w : Word) : State :=
  let n := (o - 0x30000) / 8
  if o < 0x31000 then
    let s1 := if (s.tack.staging.get (512, 0) t).1 = n then s else s.tkDiscard t
    match ln with
    | .lo => s1.tkLow t n (w.truncate 32)
    | .hi => s1.tkHigh t n ((w >>> 32).truncate 32)
    | .both => (s1.tkLow t n (w.truncate 32)).tkHigh t n ((w >>> 32).truncate 32)
    | .neither => s1
  else
    let s1 := s.tkDiscard t
    if o = 0x31000 ∧ ln ≠ .hi ∧ w.bit 1 then { s1 with tack := { s1.tack with single := false } }
    else if o = 0x31010 ∧ ln ≠ .hi ∧ w.bit 0 then s1.tkSealNow
    else s1

/-- R461: a write of the error area by the Groom. -/
def State.rasPut (s : State) (t o : Nat) (ln : Lanes) (w : Word) : State :=
  if o = 0x40040 then if ln ≠ .hi ∧ w.bit 0 then s.errAdvance else s
  else if o = 0x40048 then if ln ≠ .hi ∧ w.bit 5 then { s with ras := { s.ras with ovf := false } } else s
  else if o = 0x40058 then if ln ≠ .hi ∧ w.bit 0 then s.groomRestart 1 t else s
  else if o = 0x40060 then
    let v := laneMerge ln (Word.ofNat (s.ras.logNext.toNat + s.ras.copied.toNat * 2 ^ 16)) w 0xFFFFFFFF00FF
    { s with ras := { s.ras with logNext := v.truncate 8, copied := (v >>> 16).truncate 32 } }
  else if 0x41000 ≤ o ∧ o < 0x45000 then
    let k := (o - 0x41000) / 8
    { s with ras := { s.ras with log := s.ras.log.set k (laneMerge ln (s.ras.log.get 0 k) w (laneMask .both)) } }
  else s

/-- R379: GATE_CTL. -/
def State.gateCtl (s : State) (who : Requester) (w : Word) : State :=
  let s1 := match who, s.curCtx with
    | .core, some c => if w.bit 0 then s.arrive c else s
    | _, _ => s
  let s2 := if w.bit 1 then { s1 with gate := { s1.gate with loadArm := true } } else s1
  if w.bit 2 then { s2 with gate := { s2.gate with loadArm := false, loadDue := false } } else s2

/-- R379: a write of the gate and counter registers. -/
def State.gatePut (s : State) (who : Requester) (o : Nat) (ln : Lanes) (w : Word) : State :=
  if o = 0x1F0000 then if ln = .hi then s else s.gateCtl who w
  else if o = 0x1F0010 then if fromGroom who then s.gateCfgWrite who ln w else s
  else if o = 0x1F0018 then
    if ln ≠ .lo ∧ w.bit 41 then { s with gate := { s.gate with timeout := false } } else s
  else if o = 0x1F0028 then
    { s with gate := { s.gate with gcountLd := laneMerge ln s.gate.gcountLd w (laneMask .both) } }
  else s

/-- R363: the W1C bits of QSTAT. -/
def State.qstatWrite (s : State) (q : Nat) (ln : Lanes) (w : Word) : State :=
  if ln = .lo then s
  else s.modQueue q fun u =>
    { u with badTail := u.badTail && !w.bit 49, seqErr := u.seqErr && !w.bit 50, denied := u.denied && !w.bit 51 }

/-- R362, R365, R368: a write of the queue area. -/
def State.queuePut (s : State) (who : Requester) (o : Nat) (ln : Lanes) (w : Word) (poison : Bool) : State :=
  let c := if who = .core then s.curCtx else none
  if o < 0x110000 then if o % 16 = 0 then s.doorbell ((o - 0x100000) / 16) (w.truncate 32) else s
  else if o < 0x120000 then if o % 16 = 8 then s.qdone ((o - 0x110000) / 16) c w poison else s
  else if o < 0x140000 then if o % 32 = 24 then s.qstatWrite ((o - 0x120000) / 32) ln w else s
  else if o < 0x160000 then
    let q := (o - 0x140000) / 32
    if !fromGroom who then s
    else match o % 32 with
      | 0 => s.stageWrite 0x20 q 0x3FF1F0F ln w
      | 8 => s.stageWrite 0x21 q 0xFFFFFFFFFFC00 ln w
      | 16 => s.stageWrite 0x22 q 0xFFFFFFFFFFE00 ln w
      | _ => s
  else if 0x1F0000 ≤ o then s.gatePut who o ln w
  else s

/-- R373: a write of WTGT or WLEN: only while CLOSED. -/
def State.windowReg (s : State) (w : Nat) (f : Window → Window) : State :=
  if (s.window w).st = .closed then s.modWindow w f else s.windowLast w 2

/-- R373, R374, R376: a write of WCS by the owner: W1C bits, then the command. -/
def State.windowCmd (s : State) (w : Nat) (ln : Lanes) (v : Word) : State :=
  if ln = .hi then s
  else
    let s1 := s.modWindow w fun x =>
      { x with evOpened := x.evOpened && !v.bit 16, evFull := x.evFull && !v.bit 17,
               evClosed := x.evClosed && !v.bit 18, evRejected := x.evRejected && !v.bit 19 }
    if v.bits 1 0 = 1 then s1.openWindow w else if v.bits 1 0 = 2 then s1.closeByOwner w else s1

/-- R373: a write of the window table. -/
def State.windowPut (s : State) (who : Requester) (o : Nat) (ln : Lanes) (v : Word) : State :=
  if o < 0x208000 then
    let w := (o - 0x200000) / 32
    match o % 32 with
    | 0 => s
    | 8 => s.asOwner who w fun s => s.windowReg w fun x => { x with wtgt := laneMerge ln x.wtgt v 0x1FFFFFFFFFFFFF1 }
    | 16 => s.asOwner who w fun s => s.windowReg w fun x => { x with wlen := laneMerge ln x.wlen v 0x1FFFFF001FFFFF }
    | _ => s.asOwner who w fun s => s.windowCmd w ln v
  else if fromGroom who then s.stageWrite 0x28 ((o - 0x210000) / 8) 0x3FF0001 ln v
  else s

/-- R511: a write of the debug area by the Groom. -/
def State.debugPut (s : State) (o : Nat) (ln : Lanes) (w : Word) : State :=
  if o = 0x400000 ∧ ln ≠ .hi then
    { s with pmc := { en := w.bit 0, cnt := if w.bit 1 then [] else s.pmc.cnt } }
  else s

/-- A write of the aperture at offset `o`, a multiple of 8, in lanes `ln` of `w`; `poison` tells a POISON data operand. The
instruments write PMC_CTL alone (R513). -/
def State.apWriteAny (s : State) (who : Requester) (o : Nat) (ln : Lanes) (w : Word) (poison : Bool) : ApWrite :=
  if who = .ijtag then (o = 0x400000, if o = 0x400000 then s.debugPut o ln w else s)
  else if o < 0x10000 then
    if (s.identWord o).isNone then (false, s)
    else if mayControl who then (true, s.identWrite who o ln w) else (!fromRegp who, s)
  else if o < 0x30000 then s.mbWrite who o ln w
  else if o < 0x40000 then
    match who with
    | .groom t => if (s.tackWord true o).isNone then (false, s) else (true, s.tackPut t.toNat o ln w)
    | .regp _ => (false, s)
    | _ => ((s.tackWord false o).isSome, s)
  else if o < 0x60000 then
    match who with
    | .groom t => if (s.rasWord o).isNone then (false, s) else (true, s.rasPut t.toNat o ln w)
    | .regp _ => (false, s)
    | _ => (true, s)
  else if o < 0x80000 then
    if (s.powerWord o).isNone then (false, s)
    else if mayControl who then (true, s.powerWrite who o ln w) else (!fromRegp who, s)
  else if o < 0x100000 then (who = .core, s)
  else if o < 0x200000 then
    if (s.queueWord o).isNone then (false, s) else (true, s.queuePut who o ln w poison)
  else if o < 0x400000 then
    if (s.windowWord o).isNone then (false, s) else (true, s.windowPut who o ln w)
  else match who with
    | .groom _ => if (s.debugWord o).isNone then (false, s) else (true, s.debugPut o ln w)
    | .regp _ => (false, s)
    | _ => (true, s)

/-- R17: a write of the aperture. -/
def State.apWrite (s : State) (who : Requester) (o : Nat) (ln : Lanes) (w : Word) (poison : Bool) : ApWrite :=
  if formRefused who o ln then (false, s) else s.apWriteAny who (o / 8 * 8) ln w poison

/-! ## Commands -/

/-- Whether a requester can make an access at all: the core does so while a stall executes. -/
def State.canAsk (s : State) (who : Requester) : Bool := who ≠ .core || s.curStall.isSome

/-- A trap that a core access of the aperture takes in the executing stall. -/
def State.accessTrap (s : State) (code opfield : Nat) (optag : Tag) (tval : Word) : State :=
  match s.curStall, s.curCtx with
  | some k, some n => s.trapEntry n k code opfield optag false tval s.cur.pc
  | _, _ => s.reserveFault code

/-- R77, R362, R366: a core access that the aperture refuses for its form takes DEVICE_ACCESS. The virtual address, which the
command does not carry, is a free value (DESIGN CHOICE, log entry 97). -/
def State.deviceTrap (s : State) : State :=
  State.accessTrap { s with free := s.free + 1 } 6 0 .none (Config.freeWord s.free)

/-- R50, R472: whether a core access writes a POISON value to the Tack window. -/
def tackPoison (o : Nat) (v : TVal) : Bool := v.tag = .poison && decide (0x30000 ≤ o) && decide (o < 0x40000)

/-- R17, R391: a write command of a requester at an offset of the aperture, in lanes of a value. A Groom thread is held
until the response arrives, and takes ACCESS where the write is refused. The core takes TAG_POISON for a POISON value in the Tack
window (R50, R472). -/
def State.apWriteBy (s : State) (who : Requester) (o : Nat) (ln : Lanes) (v : TVal) : State :=
  let p : Bool := v.tag = .poison
  match who with
  | .groom t => s.groomAccess t.toNat true (0x50000000 + o) 0 fun s =>
      let (ok, s1) := s.apWrite who o ln v.data p
      if !ok then none else some (if gRestarted s s1 then s1 else s1.gHold t.toNat none)
  | .core =>
    if tackPoison o v then s.accessTrap 0x41 1 .poison v.data
    else if formRefused who o ln then s.deviceTrap
    else (s.apWrite who o ln v.data p).2
  | _ =>
    let (ok, s1) := s.apWrite who o ln v.data p
    s1.answer who 0 ok

def apWriteCmd (who : Requester) (o : Nat) (ln : Lanes) (v : TVal) (s : State) : Out :=
  eventStep (s.canAsk who) (fun s => s.apWriteBy who o ln v) s

/-- A read command of a requester at an offset of the aperture. Its answer stands on the port of its requester; the register
port shows that of the core and the Groom too (DESIGN CHOICE, log entry 97). -/
def State.apReadBy (s : State) (who : Requester) (o : Nat) (ln : Lanes) : State :=
  match who with
  | .groom t => s.groomAccess t.toNat false (0x50000000 + o) 0 fun s =>
      let (w, s1) := s.apRead who o ln
      w.map fun w => (s1.gHold t.toNat none).respond w false
  | .core =>
    if formRefused who o ln then s.deviceTrap
    else
      let (w, s1) := s.apRead who o ln
      s1.respond (w.getD 0) false
  | _ =>
    let (w, s1) := s.apRead who o ln
    s1.answer who (w.getD 0) w.isSome

def apReadCmd (who : Requester) (o : Nat) (ln : Lanes) (s : State) : Out :=
  eventStep (s.canAsk who) (fun s => s.apReadBy who o ln) s

/-- R399: an access of a control register by a Groom thread; a register that the map does not list takes ACCESS. -/
def State.gctlBy (s : State) (t off : Nat) (op : RegOp) : State :=
  match op with
  | .write v =>
    let x : Half := v.data.truncate 32
    s.groomAccess t true (0x40000000 + off) x fun s => s.gctlWrite t off (s.extValue (s.gthread t) off x)
  | .read => s.groomAccess t false (0x40000000 + off) 0 fun s => (s.gctlRead off).map fun x => s.respond (x.zeroExtend 64) false

/-- R18, R508, R513: a register access: in the aperture, in the Groom's control registers by one of its threads, or of the
BIST results by the instruments. A 32-bit control register takes the low 32 bits of a value. -/
def execRegWrite (who : Requester) (space : RegSpace) (off : BitVec 24) (lanes : Lanes) (op : RegOp) (s : State) : Out :=
  match space with
  | .aperture =>
    match op with
    | .write v => apWriteCmd who off.toNat lanes v s
    | .read => apReadCmd who off.toNat lanes s
  | .groomCtl =>
    eventStep true (fun s => match who with
      | .groom t => s.gctlBy t.toNat off.toNat op
      | _ => s) s
  | .bist =>
    eventStep (who = .ijtag) (fun s => match op with
      | .read => s.ijRespond s.bistWord false
      | .write _ => s.ijRespond 0 true) s

/-- R365. -/
def execDoorbell (who : Requester) (q : BitVec 12) (lanes : Lanes) (data : Word) (s : State) : Out :=
  apWriteCmd who (0x100000 + 16 * q.toNat) lanes ⟨data, .int⟩ s

/-- R368. -/
def execQdone (who : Requester) (q : BitVec 12) (lanes : Lanes) (v : TVal) (s : State) : Out :=
  apWriteCmd who (0x110008 + 16 * q.toNat) lanes v s

/-- R366. -/
def execQtake (who : Requester) (q : BitVec 12) (lanes : Lanes) (s : State) : Out :=
  apReadCmd who (0x110000 + 16 * q.toNat) lanes s

/-- R367. -/
def execQtakeany (who : Requester) (lanes : Lanes) (s : State) : Out := apReadCmd who 0x1E0000 lanes s

/-- R371: a doorbell at the queue port. -/
def execQueuePortDoorbell (q : BitVec 12) (tail : BitVec 32) (s : State) : Out :=
  eventStep true (fun s => s.doorbell q.toNat tail) s

/-- R461, R462: ERR_ADV as firmware writes it, after its copy of the record into ERR_LOG (DESIGN CHOICE, log entry 110). -/
def execErrAdv (who : Requester) (s : State) : Out :=
  let by' := match who with
    | .groom t => s.gCanIssue t.toNat && !(s.gthread t.toNat).ext
    | _ => false
  apWriteCmd who 0x40040 .lo ⟨1, .int⟩ (if by' then s.copyHead else s)

/-- R473: the halves of a Tack register. -/
def execTkRegWriteLow (t : BitVec 2) (n : BitVec 9) (v : Half) (s : State) : Out :=
  apWriteCmd (.groom t) (0x30000 + 8 * n.toNat) .lo ⟨v.zeroExtend 64, .int⟩ s
def execTkRegWriteHigh (t : BitVec 2) (n : BitVec 9) (v : Half) (s : State) : Out :=
  apWriteCmd (.groom t) (0x30000 + 8 * n.toNat) .hi ⟨v.zeroExtend 64 <<< 32, .int⟩ s

/-- R486: TK_CTL.SEAL. -/
def execTkSeal (t : BitVec 2) (s : State) : Out := apWriteCmd (.groom t) 0x31010 .lo ⟨1, .int⟩ s

/-- R461, R463: RAS_CTL.GRESTART. -/
def execGrestart (who : Requester) (s : State) : Out := apWriteCmd who 0x40058 .lo ⟨1, .int⟩ s

/-- R511: PMC_CTL.CLR, written with EN as it stands. -/
def execPmcClear (who : Requester) (s : State) : Out := apWriteCmd who 0x400000 .lo ⟨Word.ofNat (s.pmc.en.toNat + 2), .int⟩ s

/-- R380, R379: writes of GATE_CTL. -/
def execGateArrive (who : Requester) (s : State) : Out := apWriteCmd who 0x1F0000 .lo ⟨1, .int⟩ s
def execGateLoad (who : Requester) (s : State) : Out := apWriteCmd who 0x1F0000 .lo ⟨2, .int⟩ s
def execGateUnload (who : Requester) (s : State) : Out := apWriteCmd who 0x1F0000 .lo ⟨4, .int⟩ s

/-- R374, R376: the commands of WCS. -/
def execWindowOpen (who : Requester) (w : BitVec 10) (s : State) : Out :=
  apWriteCmd who (0x200018 + 32 * w.toNat) .lo ⟨1, .int⟩ s
def execWindowClose (who : Requester) (w : BitVec 10) (s : State) : Out :=
  apWriteCmd who (0x200018 + 32 * w.toNat) .lo ⟨2, .int⟩ s

/-- R422, R423: GO and ABORT in MB_DOORBELL. -/
def execMbGo (who : Requester) (m : BitVec 5) (s : State) : Out :=
  apWriteCmd who (0x10200 + 1024 * m.toNat) .lo ⟨1, .int⟩ s
def execMbAbort (who : Requester) (m : BitVec 5) (s : State) : Out :=
  apWriteCmd who (0x10200 + 1024 * m.toNat) .lo ⟨2, .int⟩ s

end Sys2Proof.Machine
end

