-- ==== Sys2Proof/Machine/Operands.lean ====
section
/-! DEFINITION. The tag rules of register operands: acceptance, the order of tag faults and the propagation of POISON (R42 to
R46), and the shapes of the scalar instructions over them. -/

namespace Sys2Proof.Machine

/-- An operand as it is checked: its OPFIELD code (R58), its value, and the tags its position accepts (R42). -/
structure Opd where
  field : Nat
  v : TVal
  ok : Tag → Bool

/-- The tag fault of an operand (R43, R44). -/
def Opd.fault (o : Opd) (code : Nat) : Abort := .trap code o.field o.v.tag o.v.data

/-- Positions that accept one tag. -/
def only (t : Tag) : Tag → Bool := fun u => u = t

/-- Positions that accept INT and the two address tags. -/
def intOrAddr : Tag → Bool := fun u => u = .int || u = .vaddr || u = .baddr

/-- R43, R44: TAG_NONE for the first operand tagged NONE. -/
def checkNone (os : List Opd) : M Unit :=
  match os.find? fun o => o.v.tag = .none with
  | some o => throw (o.fault 0x40)
  | none => pure ()

/-- R43, R44: TAG_MISMATCH for the first operand whose tag its position does not accept. -/
def checkAccepted (os : List Opd) : M Unit :=
  match os.find? fun o => !o.ok o.v.tag with
  | some o => throw (o.fault 0x42)
  | none => pure ()

/-- R43, R44: TAG_POISON for the first POISON operand whose position does not accept POISON. -/
def checkPoison (os : List Opd) : M Unit :=
  match os.find? fun o => o.v.tag = .poison && !o.ok .poison with
  | some o => throw (o.fault 0x41)
  | none => pure ()

/-- R43, R44: the tag checks of an instruction that does not propagate POISON. -/
def checkTags (os : List Opd) : M Unit := do
  checkNone os
  checkPoison os
  checkAccepted os

/-- R45: the first POISON operand. -/
def poisonOf (os : List Opd) : Option TVal := (os.find? fun o => o.v.tag = .poison).map fun o => ⟨o.v.data, .poison⟩

/-- R42 to R46: an instruction that propagates POISON and writes `d`. `res` is its result, or none where no row of R42
accepts the combination; the first operand is then the one reported. -/
def propagating (d : Reg) (os : List Opd) (res : Option TVal) : M (Option Word) := do
  checkNone os
  match poisonOf os with
  | some v => modify fun s => s.setReg d v
  | none =>
    checkAccepted os
    match res, os with
    | some v, _ => modify fun s => s.setReg d v
    | none, o :: _ => throw (o.fault 0x42)
    | none, [] => pure ()
  pure none

/-- The result tags of a row set of R42: none where the pair is refused. -/
abbrev TagRule := Tag → Tag → Option Tag

/-- R42: arithmetic, logic, shifts, multiply and divide on INT, INT. -/
def ruleInt : TagRule
  | .int, .int => some .int
  | _, _ => none

/-- R42: ADD. -/
def ruleAdd : TagRule
  | .int, .int => some .int
  | .vaddr, .int => some .vaddr
  | .int, .vaddr => some .vaddr
  | .baddr, .int => some .baddr
  | .int, .baddr => some .baddr
  | _, _ => none

/-- R42: SUB. -/
def ruleSub : TagRule
  | .int, .int => some .int
  | .vaddr, .int => some .vaddr
  | .baddr, .int => some .baddr
  | .vaddr, .vaddr => some .int
  | .baddr, .baddr => some .int
  | _, _ => none

/-- R42: AND. -/
def ruleAnd : TagRule
  | .int, .int => some .int
  | .vaddr, .int => some .vaddr
  | .baddr, .int => some .baddr
  | _, _ => none

/-- R42: integer compares. -/
def ruleCmp : TagRule
  | .int, .int => some .int
  | .vaddr, .vaddr => some .int
  | .baddr, .baddr => some .int
  | .vaddr, .int => some .int
  | .int, .vaddr => some .int
  | .baddr, .int => some .int
  | .int, .baddr => some .int
  | _, _ => none

/-- A two-operand instruction that propagates POISON: the acceptance of each position, the tag rule and the result. -/
def binary (d a b : Reg) (okA okB : Tag → Bool) (rule : TagRule) (f : Word → Word → Word) : M (Option Word) := do
  let s ← get
  let x := s.reg a
  let y := s.reg b
  propagating d [⟨2, x, okA⟩, ⟨3, y, okB⟩] ((rule x.tag y.tag).map fun t => ⟨f x.data y.data, t⟩)

/-- The same with an immediate, which counts as an INT operand (R66). -/
def withImm (d a : Reg) (imm : Word) (okA : Tag → Bool) (rule : TagRule) (f : Word → Word → Word) : M (Option Word) := do
  let s ← get
  let x := s.reg a
  propagating d [⟨2, x, okA⟩] ((rule x.tag .int).map fun t => ⟨f x.data imm, t⟩)

/-- A one-operand instruction that propagates POISON: the accepted tag, the result tag and the result. -/
def unary (d a : Reg) (src dst : Tag) (f : Word → Word) : M (Option Word) := do
  let s ← get
  let x := s.reg a
  propagating d [⟨2, x, only src⟩] (some ⟨f x.data, dst⟩)

/-- A two-operand instruction on operands of one tag. -/
def binaryOf (d a b : Reg) (src dst : Tag) (f : Word → Word → Word) : M (Option Word) := do
  let s ← get
  let x := s.reg a
  let y := s.reg b
  propagating d [⟨2, x, only src⟩, ⟨3, y, only src⟩] (some ⟨f x.data y.data, dst⟩)

/-- A fused instruction: d is read, and checked first (R68). -/
def ternaryOf (d a b : Reg) (t : Tag) (f : Word → Word → Word → Word) : M (Option Word) := do
  let s ← get
  let z := s.reg d
  let x := s.reg a
  let y := s.reg b
  propagating d [⟨1, z, only t⟩, ⟨2, x, only t⟩, ⟨3, y, only t⟩] (some ⟨f x.data y.data z.data, t⟩)

/-- R52, R46: the condition of a branch or a conditional move, at OPFIELD `field`: whether it is nonzero. -/
def condition (field : Nat) (v : TVal) : M Bool := do
  checkTags [⟨field, v, intOrAddr⟩]
  pure (v.data ≠ 0)

end Sys2Proof.Machine
end

