-- ==== Sys2Proof/Machine/Branch.lean ====
section
/-! DEFINITION. Branches (R52, R72). -/

namespace Sys2Proof.Machine

/-- A branch target: the branch's own address plus offset × 4 (R72). -/
def branchTarget (pc : Word) (off : BitVec 20) : Word := pc + (off.signExtend 64 <<< 2)

/-- BZ and BNZ. -/
def condBranch (a : Reg) (off : BitVec 20) (taken : Bool → Bool) : M (Option Word) := do
  let s ← get
  let c ← condition 2 (s.reg a)
  pure (if taken c then some (branchTarget s.cur.pc off) else none)

def execBz (a : Reg) (off : BitVec 20) (s : State) : Out := coreStep (.bz a off) (condBranch a off fun c => !c) s
def execBnz (a : Reg) (off : BitVec 20) (s : State) : Out := coreStep (.bnz a off) (condBranch a off fun c => c) s

/-- R72: JAL; with a = g0 no link is written. -/
def execJal (a : Reg) (off : BitVec 20) (s : State) : Out :=
  coreStep (.jal a off) (do
    let s ← get
    set (s.setReg a ⟨s.cur.pc + 4, .vaddr⟩)
    pure (some (branchTarget s.cur.pc off))) s

/-- R72: JALR reads a before it writes d. -/
def execJalr (d a : Reg) (imm : BitVec 15) (s : State) : Out :=
  coreStep (.jalr d a imm) (do
    let s ← get
    let x := s.reg a
    checkTags [⟨2, x, only .vaddr⟩]
    let t := x.data + (imm.signExtend 64 <<< 2)
    if t.bits 1 0 ≠ 0 then trapM 3 t
    set (s.setReg d ⟨s.cur.pc + 4, .vaddr⟩)
    pure (some t)) s

end Sys2Proof.Machine
end

