-- ==== Sys2Proof/Machine/Field.lean ====
section
/-! DEFINITION. The tile state of a saddle as the instructions read and change it: cells, zero marks and checksums (R94 to R98,
R139, R141), operand tiles and their poison maps (R102 to R107), and the states of blocks and tiles (R122). -/

namespace Sys2Proof.Machine

/-! ## The active saddle and the rein caches (R100, R114) -/

/-- R114: every entry of the rein caches is invalidated. -/
def TileUnit.clearReins (t : TileUnit) : TileUnit := { t with reinL := [], reinR := [] }

def State.clearReins (s : State) : State := { s with tile := s.tile.clearReins }

/-- R100, R114: the active saddle changes. -/
def State.setActive (s : State) (i : Nat) : State := { s with tile := { s.tile.clearReins with active := BitVec.ofNat 1 i } }

/-! ## Block and tile states (R122, R131) -/

/-- The block, and engine, of a cell (R96). -/
def engineOf (r c : Nat) : Nat := 4 * (r / 256) + c / 256

/-- The key of a cell. -/
def cellKey (r c : Nat) : Nat := r * 1024 + c

/-- The key of the engine row of a cell: zero marks and checksum column entries are kept by it (R97, R98). -/
def rowKey (r c : Nat) : Nat := engineOf r c * 256 + r % 256

/-- The key of the checksum row entry of a cell's column (R97). -/
def colKey (r c : Nat) : Nat := engineOf r c * 256 + c % 256

/-- The state of block `b` (R122): 0 ZERO, 1 SAVED, 2 DIRTY. -/
def TileRec.blockState (t : TileRec) (b : Nat) : Nat := t.bstate.bits (2 * b + 1) (2 * b)

/-- The state of tile `n` (R122). -/
def TileRec.tileState (t : TileRec) (n : Nat) : Nat := t.ostate.bits (2 * n + 1) (2 * n)

def TileRec.setBlock (t : TileRec) (b code : Nat) : TileRec := { t with bstate := t.bstate.putBits (2 * b + 1) (2 * b) code }

def TileRec.setTile (t : TileRec) (n code : Nat) : TileRec := { t with ostate := t.ostate.putBits (2 * n + 1) (2 * n) code }

/-- SCL and SAX of tile `n` (R104, R131). -/
def TileRec.scl (t : TileRec) (n : Nat) : Bool := t.ostate.bit (32 + n)
def TileRec.sax (t : TileRec) (n : Nat) : Bool := t.ostate.bit (48 + n)

/-! ## Cells (R94 to R98, R141) -/

/-- R98: whether the zero mark of a cell's engine row is set. -/
def Saddle.marked (d : Saddle) (r c : Nat) : Bool := !(Tbl.get false d.live (rowKey r c))

/-- R94, R98: a cell as it reads. -/
def Saddle.cell (d : Saddle) (r c : Nat) : Cell :=
  if d.marked r c then Cell.zero else Tbl.get Cell.zero d.cells (cellKey r c)

/-- A checksum row entry and a checksum column entry (R97), by the keys of a cell. -/
def Saddle.colSum (d : Saddle) (r c : Nat) : BitVec 136 := Tbl.get 0 d.crow (colKey r c)
def Saddle.rowSum (d : Saddle) (r c : Nat) : BitVec 136 := if d.marked r c then 0 else Tbl.get 0 d.ccol (rowKey r c)

/-- The cells listed outside the engine row of (`r`, `c`). -/
def Saddle.cellsBut (d : Saddle) (r c : Nat) : Tbl Cell :=
  d.cells.drop fun k => decide (k / 1024 = r) && decide (k % 1024 / 256 = c / 256)

/-- R98: the first write to a marked row clears the mark and starts from zero values. -/
def Saddle.open' (d : Saddle) (r c : Nat) : Saddle :=
  if d.marked r c then
    { d with cells := d.cellsBut r c, live := d.live.set (rowKey r c) true, ccol := Tbl.put 0 d.ccol (rowKey r c) 0 }
  else d

/-- R141: a checksum entry changes by a signed amount. -/
def addSum (t : Tbl (BitVec 136)) (k : Nat) (delta : BitVec 136) : Tbl (BitVec 136) := Tbl.put 0 t k (Tbl.get 0 t k + delta)

/-- R141: a cell is written, with fresh parity (R449), and its checksum entries change by S_new − S_old. A change makes the
block DIRTY (R122). -/
def Saddle.setCell (d : Saddle) (r c : Nat) (v : Cell) : Saddle :=
  let new := { v with perr := 0 }
  let old := d.cell r c
  let d1 := d.open' r c
  let delta := new.s.signExtend 136 - old.s.signExtend 136
  { d1 with
    cells := Tbl.put Cell.zero d1.cells (cellKey r c) new,
    crow := addSum d1.crow (colKey r c) delta, ccol := addSum d1.ccol (rowKey r c) delta,
    status := if new = old then d1.status else d1.status.setBlock (engineOf r c) 2 }

/-- The columns of engine column `ec`. -/
def engineCols (ec : Nat) : List Nat := (List.range 256).map (ec * 256 + ·)

/-- R98: the zero mark of the engine row of (`r`, `ec`) is set: its checksum column entry reads 0. What it contributes to the
checksum row is settled with the region (`Saddle.settle`). -/
def Saddle.markRow (d : Saddle) (r ec : Nat) : Saddle :=
  let c := ec * 256
  if d.marked r c then d
  else
    { d with
      cells := d.cellsBut r c, live := d.live.del (rowKey r c), ccol := Tbl.put 0 d.ccol (rowKey r c) 0,
      status := d.status.setBlock (engineOf r c) 2 }

/-- The cells of a rectangle, in order. -/
def region (r0 c0 m n : Nat) : List (Nat × Nat) :=
  (List.range m).flatMap fun i => (List.range n).map fun j => (r0 + i, c0 + j)

/-- Whether columns `c0` to `c0 + n - 1` cover engine column `ec`. -/
def coversCols (c0 n ec : Nat) : Bool := decide (c0 ≤ ec * 256) && decide (ec * 256 + 256 ≤ c0 + n)

/-- R98, R179: one cell of a zeroed region in an engine row that the region covers in part is written. -/
def Saddle.zeroCell (d : Saddle) (r c : Nat) : Saddle := d.setCell r c Cell.zero

/-- R179: one row of a zeroed region: zero marks for whole engine rows, writes of cells elsewhere. -/
def Saddle.zeroRow (d : Saddle) (c0 n r : Nat) : Saddle :=
  let d1 := ((List.range 4).filter (coversCols c0 n)).foldl (fun d ec => d.markRow r ec) d
  (((List.range n).map (c0 + ·)).filter fun c => !coversCols c0 n (c / 256)).foldl (fun d c => d.zeroCell r c) d1

/-- The blocks that a region covers wholly. -/
def wholeBlocks (r0 c0 m n : Nat) : List Nat :=
  (List.range 16).filter fun b => coversCols r0 m (b / 4) && coversCols c0 n (b % 4)

/-- R122: a block that is zeroed whole is ZERO; with every row marked, nothing contributes to its checksum row (R98). -/
def Saddle.zeroBlock (d : Saddle) (b : Nat) : Saddle :=
  { d with crow := d.crow.drop fun k => k / 256 = b, status := d.status.setBlock b 0 }

/-- The exact sum of S over a list of cells. -/
def Saddle.sumOf (d : Saddle) (cs : List (Nat × Nat)) : BitVec 136 :=
  cs.foldl (fun a p => a + (d.cell p.1 p.2).s.signExtend 136) 0

/-- R98: the checksum row entry of a column of the block of engine row `er` is the sum of S over the column. -/
def Saddle.settleCol (d : Saddle) (er c : Nat) : Saddle :=
  { d with crow := Tbl.put 0 d.crow (colKey (er * 256) c) (d.sumOf ((List.range 256).map fun i => (er * 256 + i, c))) }

/-- R98: the checksum column entry of the engine row of (`r`, `ec`) is the sum of S over the row. -/
def Saddle.settleRow (d : Saddle) (r ec : Nat) : Saddle :=
  if d.marked r (ec * 256) then d
  else { d with ccol := Tbl.put 0 d.ccol (rowKey r (ec * 256)) (d.sumOf ((engineCols ec).map fun c => (r, c))) }

/-- The numbers of the 256-cell bands that cells `a` to `a + n - 1` of a side reach. -/
def bandsOf (a n : Nat) : List Nat :=
  (List.range 4).filter fun e => decide (0 < n) && decide (a / 256 ≤ e) && decide (e ≤ (a + n - 1) / 256)

/-- R98, R245: once a region reads as zero, its rows and columns contribute to the checksums what they now hold: an upset of
a cell of the region leaves nothing there, so that a run that zeroes its region first ends with the checksums of a run
without the upset (DEDUCED, log entry 113). Where the checksums agreed with the cells before, this is what R141 gives. -/
def Saddle.settle (d : Saddle) (r0 c0 m n : Nat) : Saddle :=
  let d1 := (bandsOf r0 m).foldl (fun d er => ((List.range n).map (c0 + ·)).foldl (fun d c => d.settleCol er c) d) d
  (bandsOf c0 n).foldl (fun d ec => ((List.range m).map (r0 + ·)).foldl (fun d r => d.settleRow r ec) d) d1

/-- R179, R181: S, the flags and CNT become 0 in every cell of a region. -/
def Saddle.zeroRegion (d : Saddle) (r0 c0 m n : Nat) : Saddle :=
  let d1 := ((List.range m).map (r0 + ·)).foldl (fun d r => d.zeroRow c0 n r) d
  (wholeBlocks r0 c0 m n).foldl Saddle.zeroBlock (d1.settle r0 c0 m n)

/-- An upset of a cell's array bits and parity (R98, R449): nothing of it is seen in a marked row. -/
def Saddle.upset (d : Saddle) (r c : Nat) (v : BitVec 128) (limbs : BitVec 8) : Saddle :=
  if d.marked r c then d
  else { d with cells := Tbl.put Cell.zero d.cells (cellKey r c) { d.cell r c with s := v, perr := limbs } }

/-! ## TCHK (R188) -/

/-- R188: whether block `b` passes: its sums equal the checksums and no cell read fails its parity. -/
def Saddle.blockGood (d : Saddle) (b : Nat) : Bool :=
  let r0 := b / 4 * 256
  let c0 := b % 4 * 256
  ((List.range 256).all fun j => d.sumOf ((List.range 256).map fun i => (r0 + i, c0 + j)) = d.colSum r0 (c0 + j)) &&
  ((List.range 256).all fun i => d.sumOf ((List.range 256).map fun j => (r0 + i, c0 + j)) = d.rowSum (r0 + i) c0) &&
  ((region r0 c0 256 256).all fun p => (d.cell p.1 p.2).perr = 0)

/-- The blocks that a region reaches. -/
def reachedBlocks (r0 c0 m n : Nat) : List Nat :=
  (List.range 16).filter fun b =>
    decide (r0 / 256 ≤ b / 4) && decide (b / 4 ≤ (r0 + m - 1) / 256) &&
    decide (c0 / 256 ≤ b % 4) && decide (b % 4 ≤ (c0 + n - 1) / 256)

/-- R189: one bit per failing engine. -/
def Saddle.checkRegion (d : Saddle) (r0 c0 m n : Nat) : Nat :=
  ((reachedBlocks r0 c0 m n).filter fun b => !d.blockGood b).foldl (fun a b => a + 2 ^ b) 0

/-! ## Operand tiles (R102 to R107) -/

/-- R107: a tile as it reads. -/
def Saddle.tile (d : Saddle) (t : Nat) : Tile := if d.status.tileState t = 0 then Tile.zero else Tbl.get Tile.zero d.tiles t

/-- R107: a tile in ZERO state. -/
def Saddle.zeroTile (d : Saddle) (t : Nat) : Saddle :=
  let st := d.status.setTile t 0
  { d with tiles := d.tiles.del t,
           status := { st with ostate := (st.ostate.putBit (32 + t) false).putBit (48 + t) false } }

/-- Bytes of a tile's element array or scale store. -/
def Tile.read (t : Tile) (scale : Bool) (o n : Nat) : List Byte :=
  (List.range n).map fun i => Tbl.get 0 (if scale then t.scale else t.bytes) (o + i)

/-- The poison map bits of `n` chunks from chunk `q` (R106). -/
def Tile.marks (t : Tile) (scale : Bool) (q n : Nat) : List Bool :=
  (List.range n).map fun i => Tbl.get false (if scale then t.spmap else t.pmap) (q + i)

/-- Bytes and marks written at offset `o`, in ascending order. -/
def Tile.write (t : Tile) (scale : Bool) (o : Nat) (bs : List Byte) (ms : List (Nat × Bool)) : Tile :=
  let put := fun (m : Tbl Byte) => bs.zipIdx.foldl (fun m p => Tbl.put 0 m (o + p.2) p.1) m
  let mark := fun (m : Tbl Bool) => ms.foldl (fun m p => Tbl.put false m p.1 p.2) m
  if scale then { t with scale := put t.scale, spmap := mark t.spmap } else { t with bytes := put t.bytes, pmap := mark t.pmap }

/-- R122: a write into a tile makes it DIRTY. -/
def Saddle.writeTile (d : Saddle) (t : Nat) (scale : Bool) (o : Nat) (bs : List Byte) (ms : List (Nat × Bool)) : Saddle :=
  { d with tiles := d.tiles.set t ((d.tile t).write scale o bs ms), status := d.status.setTile t 2 }

/-- A row of 512 bytes of a tile, with the marks of its 32 chunks. -/
def Saddle.tileRow (d : Saddle) (t : Nat) (scale : Bool) (r : Nat) : List Byte × List Bool :=
  ((d.tile t).read scale (r * 512) 512, (d.tile t).marks scale (r * 32) 32)

/-- R118, R121: a row of a tile is written whole, with a mark for every chunk. -/
def Saddle.setTileRow (d : Saddle) (t : Nat) (scale : Bool) (r : Nat) (bs : List Byte) (ms : List Bool) : Saddle :=
  d.writeTile t scale (r * 512) bs (ms.zipIdx.map fun p => (r * 32 + p.2, p.1))

/-- R116: SCL and SAX after the scale form of TLD. -/
def Saddle.setScale (d : Saddle) (t : Nat) (sax : Bool) : Saddle :=
  { d with status := { d.status with ostate := (d.status.ostate.putBit (32 + t) true).putBit (48 + t) sax } }

end Sys2Proof.Machine
end

