-- ==== Sys2Proof/Machine/Fp.lean ====
section
/-! DEFINITION. IEEE 754-2019 arithmetic on exact values: decoding, rounding and the operations of R68 to R71. A finite value
is a sign, a natural significand and a power of two; every operation is exact and is rounded once. -/

namespace Sys2Proof.Machine

/-- A binary interchange format: exponent bits and fraction bits. -/
structure FFmt where
  eb : Nat
  mb : Nat
  deriving DecidableEq, Repr

def fmtD : FFmt := ⟨11, 52⟩
def fmtS : FFmt := ⟨8, 23⟩
def fmtH : FFmt := ⟨5, 10⟩
def fmtBf : FFmt := ⟨8, 7⟩

def FFmt.bias (f : FFmt) : Nat := 2 ^ (f.eb - 1) - 1

/-- The exponent of the least significant bit of a subnormal. -/
def FFmt.qmin (f : FFmt) : Int := 1 - (f.bias : Int) - f.mb

/-- A value: a NaN, an infinity, or `(-1)^neg * m * 2^e`. -/
inductive FVal where
  | nan
  | inf (neg : Bool)
  | fin (neg : Bool) (m : Nat) (e : Int)
  deriving DecidableEq, Repr

/-- The rounding modes of R68, and of the drain (R149): nearest-even, toward zero, toward +∞, toward −∞. -/
inductive RMode where
  | rne | rtz | rup | rdn
  deriving DecidableEq, Repr

def RMode.ofBits (r : BitVec 2) : RMode := if r = 0 then .rne else if r = 1 then .rtz else if r = 2 then .rup else .rdn

/-- The value of an encoding. -/
def FFmt.decode (f : FFmt) (w : Nat) : FVal :=
  let neg := w.testBit (f.eb + f.mb)
  let e := w / 2 ^ f.mb % 2 ^ f.eb
  let m := w % 2 ^ f.mb
  if e = 2 ^ f.eb - 1 then (if m = 0 then .inf neg else .nan)
  else if e = 0 then .fin neg m f.qmin
  else .fin neg (2 ^ f.mb + m) ((e : Int) - f.bias - f.mb)

/-- R69: the canonical quiet NaN. -/
def FFmt.qnan (f : FFmt) : Nat := (2 ^ f.eb - 1) * 2 ^ f.mb + 2 ^ (f.mb - 1)

def FFmt.infBits (f : FFmt) (neg : Bool) : Nat := neg.toNat * 2 ^ (f.eb + f.mb) + (2 ^ f.eb - 1) * 2 ^ f.mb

def FFmt.zeroBits (f : FFmt) (neg : Bool) : Nat := neg.toNat * 2 ^ (f.eb + f.mb)

def FFmt.maxBits (f : FFmt) (neg : Bool) : Nat := f.infBits neg - 1

/-- Whether a magnitude is rounded up: the kept part, the discarded part out of `2^sh`, and whether more lies below. -/
def roundsUp (rm : RMode) (neg : Bool) (kept rem sh : Nat) (sticky : Bool) : Bool :=
  let inexact := decide (rem ≠ 0) || sticky
  match rm with
  | .rne => decide (2 * rem > 2 ^ sh) || (decide (2 * rem = 2 ^ sh) && (sticky || decide (kept % 2 = 1)))
  | .rtz => false
  | .rup => inexact && !neg
  | .rdn => inexact && neg

/-- The overflow result of a rounding mode. -/
def FFmt.overflow (f : FFmt) (rm : RMode) (neg : Bool) : Nat :=
  match rm with
  | .rne => f.infBits neg
  | .rtz => f.maxBits neg
  | .rup => if neg then f.maxBits neg else f.infBits neg
  | .rdn => if neg then f.infBits neg else f.maxBits neg

/-- The encoding of significand `m` at exponent `q` of its last bit, `m` below `2^(mb+1)`. -/
def FFmt.pack (f : FFmt) (rm : RMode) (neg : Bool) (m : Nat) (q : Int) : Nat :=
  if m < 2 ^ f.mb then neg.toNat * 2 ^ (f.eb + f.mb) + m
  else
    let be := q + f.mb + f.bias
    if be ≥ 2 ^ f.eb - 1 then f.overflow rm neg
    else neg.toNat * 2 ^ (f.eb + f.mb) + be.toNat * 2 ^ f.mb + (m - 2 ^ f.mb)

/-- R69: the value `(-1)^neg * (m + sticky) * 2^e`, rounded once. -/
def FFmt.round (f : FFmt) (rm : RMode) (neg : Bool) (m : Nat) (e : Int) (sticky : Bool) : Nat :=
  if m = 0 then f.zeroBits neg
  else
    let q := max (e + (Nat.log2 m : Int) - f.mb) f.qmin
    if q ≤ e then f.pack rm neg (m * 2 ^ (e - q).toNat) q
    else
      let sh := (q - e).toNat
      let kept := m / 2 ^ sh
      let k := kept + (roundsUp rm neg kept (m % 2 ^ sh) sh sticky).toNat
      if k = 2 ^ (f.mb + 1) then f.pack rm neg (2 ^ f.mb) (q + 1) else f.pack rm neg k q

/-- The encoding of an exact value. -/
def FFmt.encode (f : FFmt) (rm : RMode) : FVal → Nat
  | .nan => f.qnan
  | .inf neg => f.infBits neg
  | .fin neg m e => f.round rm neg m e false

def FVal.negate : FVal → FVal
  | .nan => .nan
  | .inf n => .inf (!n)
  | .fin n m e => .fin (!n) m e

/-- A sum of finite values. A zero sum of operands of unlike signs is +0, or −0 toward −∞. -/
def addFin (rm : RMode) (n1 : Bool) (m1 : Nat) (e1 : Int) (n2 : Bool) (m2 : Nat) (e2 : Int) : FVal :=
  let e := min e1 e2
  let a : Int := m1 * 2 ^ (e1 - e).toNat
  let b : Int := m2 * 2 ^ (e2 - e).toNat
  let r := (if n1 then -a else a) + (if n2 then -b else b)
  if r = 0 then .fin (if n1 = n2 then n1 else rm = .rdn) 0 0
  else .fin (decide (r < 0)) r.natAbs e

def fAdd (rm : RMode) : FVal → FVal → FVal
  | .nan, _ => .nan
  | _, .nan => .nan
  | .inf a, .inf b => if a = b then .inf a else .nan
  | .inf a, .fin .. => .inf a
  | .fin .., .inf b => .inf b
  | .fin n1 m1 e1, .fin n2 m2 e2 => addFin rm n1 m1 e1 n2 m2 e2

def fMul : FVal → FVal → FVal
  | .nan, _ => .nan
  | _, .nan => .nan
  | .inf a, .inf b => .inf (a != b)
  | .inf a, .fin n m _ => if m = 0 then .nan else .inf (a != n)
  | .fin n m _, .inf b => if m = 0 then .nan else .inf (n != b)
  | .fin n1 m1 e1, .fin n2 m2 e2 => .fin (n1 != n2) (m1 * m2) (e1 + e2)

/-- A quotient, rounded: it has more bits than the format keeps, with a sticky bit below them. -/
def FFmt.div (f : FFmt) (rm : RMode) : FVal → FVal → Nat
  | .nan, _ => f.qnan
  | _, .nan => f.qnan
  | .inf _, .inf _ => f.qnan
  | .inf a, .fin n _ _ => f.infBits (a != n)
  | .fin n _ _, .inf b => f.zeroBits (n != b)
  | .fin n1 m1 e1, .fin n2 m2 e2 =>
    if m2 = 0 then (if m1 = 0 then f.qnan else f.infBits (n1 != n2))
    else
      let k := f.mb + 5 + Nat.log2 m2
      f.round rm (n1 != n2) (m1 * 2 ^ k / m2) (e1 - e2 - k) (decide (m1 * 2 ^ k % m2 ≠ 0))

/-- The integer square root, one binary digit at a time. -/
def isqrt (x : Nat) : (i : Nat) → (r : Nat) → Nat
  | 0, r => if (r + 1) * (r + 1) ≤ x then r + 1 else r
  | i + 1, r => let r1 := r + 2 ^ (i + 1); isqrt x i (if r1 * r1 ≤ x then r1 else r)

def FFmt.sqrt (f : FFmt) (rm : RMode) : FVal → Nat
  | .nan => f.qnan
  | .inf neg => if neg then f.qnan else f.infBits false
  | .fin neg m e =>
    if m = 0 then f.zeroBits neg
    else if neg then f.qnan
    else
      let odd := e % 2 ≠ 0
      let x := (if odd then 2 * m else m) * 4 ^ (f.mb + 4)
      let r := isqrt x (Nat.log2 x / 2 + 1) 0
      f.round rm false r (((if odd then e - 1 else e) / 2) - (f.mb + 4)) (decide (r * r ≠ x))

/-- R70: the order of two values, or none when either is a NaN. The zeros are equal. -/
def fCompare : FVal → FVal → Option Ordering
  | .nan, _ => none
  | _, .nan => none
  | .inf a, .inf b => some (if a = b then .eq else if a then .lt else .gt)
  | .inf a, .fin .. => some (if a then .lt else .gt)
  | .fin .., .inf b => some (if b then .gt else .lt)
  | .fin n1 m1 e1, .fin n2 m2 e2 =>
    let e := min e1 e2
    let a : Int := m1 * 2 ^ (e1 - e).toNat
    let b : Int := m2 * 2 ^ (e2 - e).toNat
    some (compare (if n1 then -a else a) (if n2 then -b else b))

/-- R69: minimumNumber and maximumNumber of two encodings, −0 below +0. -/
def FFmt.minMax (f : FFmt) (wantMax : Bool) (a b : Nat) : Nat :=
  match f.decode a, f.decode b with
  | .nan, .nan => f.qnan
  | .nan, _ => b
  | _, .nan => a
  | x, y =>
    match fCompare x y with
    | some .lt => if wantMax then b else a
    | some .gt => if wantMax then a else b
    | _ => if a.testBit (f.eb + f.mb) != wantMax then a else b

/-- A value rounded to an integer. -/
def roundInt (rm : RMode) (neg : Bool) (m : Nat) (e : Int) : Int :=
  let r : Nat :=
    if e ≥ 0 then m * 2 ^ e.toNat
    else
      let sh := (-e).toNat
      m / 2 ^ sh + (roundsUp rm neg (m / 2 ^ sh) (m % 2 ^ sh) sh false).toNat
  if neg then -(r : Int) else r

/-- R71: a conversion to integer saturates at `lo` and `hi`; a NaN gives 0. -/
def fToInt (rm : RMode) (lo hi : Int) : FVal → Int
  | .nan => 0
  | .inf neg => if neg then lo else hi
  | .fin neg m e => max lo (min hi (roundInt rm neg m e))

/-- An integer as a value. -/
def FVal.ofInt (i : Int) : FVal := .fin (decide (i < 0)) i.natAbs 0

end Sys2Proof.Machine
end

