-- ==== Sys2Proof/Machine/TileNum.lean ====
section
/-! DEFINITION. Element formats and vectors of the tile unit (R103 to R106, R109, R137, R138) and the addition of a product
into a cell (R135). -/

namespace Sys2Proof.Machine

/-- R109: the width of an element of a format code; 32 for the reserved codes, which no instruction reaches. -/
def elemBits (f : Nat) : Nat := if f ≤ 2 then 8 else if f = 3 then 4 else if f ≤ 5 then 16 else 32

/-- R102: elements per tile row. -/
def rowElems (f : Nat) : Nat := 4096 / elemBits f

/-- FP8 E4M3: no infinity; 0x7F and 0xFF are NaN (R137). -/
def e4m3 (w : Nat) : FVal :=
  if w % 128 = 127 then .nan
  else if w / 8 % 16 = 0 then .fin (w.testBit 7) (w % 8) (-9)
  else .fin (w.testBit 7) (8 + w % 8) ((w / 8 % 16 : Nat) - 10)

/-- MXFP4's element type E2M1 (R109). -/
def e2m1 (w : Nat) : FVal :=
  if w / 2 % 4 = 0 then .fin (w.testBit 3) (w % 2) (-1) else .fin (w.testBit 3) (2 + w % 2) ((w / 2 % 4 : Nat) - 2)

/-- R109: the value of an element's bits. -/
def elemValue (f w : Nat) : FVal :=
  match f with
  | 0 => e4m3 (w % 256)
  | 1 => FFmt.decode ⟨5, 2⟩ (w % 256)
  | 2 => FVal.ofInt (BitVec.ofNat 8 w).toInt
  | 3 => e2m1 (w % 16)
  | 4 => fmtBf.decode (w % 65536)
  | 5 => fmtH.decode (w % 65536)
  | _ => fmtS.decode (w % 2 ^ 32)

/-- An element as an engine receives it: its value, whether it is a poisoned input (R106, R138), and its bits (R115). -/
structure Elem where
  v : FVal
  bad : Bool
  raw : Nat
  deriving DecidableEq, Repr

/-- A value times a power of two. -/
def FVal.scale (v : FVal) (k : Int) : FVal :=
  match v with
  | .fin n m e => .fin n m (e + k)
  | w => w

/-- The number that the `w` bits at bit offset `o` of a list of bytes hold (R102). -/
def bitsAt (bs : List Byte) (o w : Nat) : Nat := leNat ((bs.drop (o / 8)).take ((w + 7) / 8)) / 2 ^ (o % 8) % 2 ^ w

/-- R103: the tile, the tile row and the bit offset of element `i` of a vector. -/
def elemPlace (f : Nat) (col : Bool) (t k i : Nat) : Nat × Nat × Nat :=
  if col then (t + i / 256, i % 256, k * elemBits f)
  else (t + i * elemBits f / 4096, k, i * elemBits f % 4096)

/-- R104: the offset in the scale store for the element at tile row `r`, position `p`. -/
def scaleOff (sax : Bool) (r p : Nat) : Nat := if sax then r * 32 + p / 32 else r / 32 * 1024 + p

/-- R103 to R106: element `i` of a vector in operand tiles. A sealed run can read a tile whose SAX, with SCL 1, is not its
orientation only where OSTATE has changed between TRUN.LOAD, which judges it, and the run: R105 gives no outcome that a run
can take, and the scale is read by the store's SAX (DESIGN CHOICE, log entry 124). -/
def Saddle.elem (d : Saddle) (f : Nat) (col : Bool) (t k i : Nat) : Elem :=
  let (n, r, o) := elemPlace f col t k i
  let tile := d.tile n
  let w := elemBits f
  let raw := bitsAt (tile.read false (r * 512 + o / 8) ((w + 7) / 8)) (o % 8) w
  let v := elemValue f raw
  let bad := Tbl.get false tile.pmap (r * 32 + o / 128)
  if f = 3 && d.status.scl n then
    let so := scaleOff (d.status.sax n) r (o / 4)
    let s := (Tbl.get 0 tile.scale so).toNat
    { v := if s = 255 then .nan else v.scale ((s : Int) - 127), bad := bad || Tbl.get false tile.spmap (so / 16), raw := raw }
  else { v := v, bad := bad, raw := raw }

/-- A vector of length `n` in operand tiles. -/
def Saddle.vector (d : Saddle) (f : Nat) (col : Bool) (t k n : Nat) : List Elem := (List.range n).map (d.elem f col t k)

/-- R177: the bytes of one vector in buffer memory. -/
def vecStride (n f : Nat) : Nat := 16 * ceilDiv (n * elemBits f) 128

/-- R177: vector `k` of `n` elements from the bytes and chunk marks of an operand in buffer memory. -/
def bufVector (f : Nat) (bs : List Byte) (ms : List Bool) (k n : Nat) : List Elem :=
  (List.range n).map fun i =>
    let o := k * vecStride n f + i * elemBits f / 8
    let raw := bitsAt (bs.drop o) 0 (elemBits f)
    { v := elemValue f raw, bad := ms.getD (o / 16) false, raw := raw }

/-- R135: one product into one cell. -/
def Cell.accum (α : Int) (c : Cell) (a b : Elem) : Cell :=
  let n := min (c.cnt + 1) (2 ^ 24 + 1)
  let c1 := { c with cnt := n, count := c.count || decide (2 ^ 24 < n) }
  if a.bad || b.bad then { c1 with poison := true }
  else
    match a.v, b.v with
    | .fin n1 m1 e1, .fin n2 m2 e2 =>
      let q := roundInt .rne (n1 != n2) (m1 * m2) (e1 + e2 + 80 - α)
      { c1 with s := c1.s + BitVec.ofInt 128 q, range := c1.range || decide (2 ^ 103 ≤ q) || decide (q ≤ -(2 ^ 103)) }
    | _, _ => { c1 with range := true }

/-- R175, R176: the products of pairs of vectors into cell (`i`, `j`) of a region, pair by pair (R136: their order does not
matter). -/
def Cell.accumAll (α : Int) (c : Cell) (vs : List (List Elem × List Elem)) (i j : Nat) : Cell :=
  let none : Elem := { v := .fin false 0 0, bad := false, raw := 0 }
  vs.foldl (fun c p => c.accum α (p.1.getD i none) (p.2.getD j none)) c

/-- R175, R176: the products of pairs of vectors into every cell of a region. -/
def Saddle.outer (d : Saddle) (r0 c0 m n : Nat) (α : Int) (vs : List (List Elem × List Elem)) : Saddle :=
  (region r0 c0 m n).foldl (fun d p => d.setCell p.1 p.2 ((d.cell p.1 p.2).accumAll α vs (p.1 - r0) (p.2 - c0))) d

end Sys2Proof.Machine
end

