-- ==== Sys2Proof/Machine/TileKind.lean ====
section
/-! DEFINITION. The tile instructions as the tile unit and the sequencer see them: operand words, the checks of issue and
load, the bytes they touch, their cost and their energy (R108, R162 to R173, R499). -/

namespace Sys2Proof.Machine

/-- The kinds of tile instructions, with the operands that their words hold (R161). -/
inductive TK where
  | op (mem : Bool) (k : Nat)
  | tld (scale : Bool) | tst (scale : Bool)
  | tzf | tzfRelease
  | tdr (dfmt act : Nat) (clr bias xr xc : Bool) | tdw (clr : Bool) | taw
  | tchk | tsync
  | tewQ (w : Nat) | tewR (w : Nat) | tewD (w : Nat)
  | load | go (gate : Bool) | goAt | stat
  deriving DecidableEq, Repr

/-- R161: the kind of an instruction and its three register fields, if it is a tile instruction. -/
def tileKind : Instr → Option (TK × Nat × Nat × Nat)
  | .opaT sh l r => some (.op false 1, sh.toNat, l.toNat, r.toNat)
  | .opaM sh l r => some (.op true 1, sh.toNat, l.toNat, r.toNat)
  | .opkT sh l r k => some (.op false (k.toNat + 1), sh.toNat, l.toNat, r.toNat)
  | .opkM sh l r k => some (.op true (k.toNat + 1), sh.toNat, l.toNat, r.toNat)
  | .tld sh l r _ => some (.tld false, sh.toNat, l.toNat, r.toNat)
  | .tldScale sh l r _ => some (.tld true, sh.toNat, l.toNat, r.toNat)
  | .tst sh l r _ => some (.tst false, sh.toNat, l.toNat, r.toNat)
  | .tstScale sh l r _ => some (.tst true, sh.toNat, l.toNat, r.toNat)
  | .tzf sh l r => some (.tzf, sh.toNat, l.toNat, r.toNat)
  | .tzfRelease sh l r => some (.tzfRelease, sh.toNat, l.toNat, r.toNat)
  | .tdr sh l r dfmt act clr bias xr xc => some (.tdr dfmt.toNat act.toNat clr bias xr xc, sh.toNat, l.toNat, r.toNat)
  | .tdw sh l r clr => some (.tdw clr, sh.toNat, l.toNat, r.toNat)
  | .taw sh l r => some (.taw, sh.toNat, l.toNat, r.toNat)
  | .tchk sh l r => some (.tchk, sh.toNat, l.toNat, r.toNat)
  | .tsync sh l r => some (.tsync, sh.toNat, l.toNat, r.toNat)
  | .tewQ sh l r w => some (.tewQ w.toNat, sh.toNat, l.toNat, r.toNat)
  | .tewR sh l r w => some (.tewR w.toNat, sh.toNat, l.toNat, r.toNat)
  | .tewD sh l r w => some (.tewD w.toNat, sh.toNat, l.toNat, r.toNat)
  | .trunLoad sh l r => some (.load, sh.toNat, l.toNat, r.toNat)
  | .trunGo sh l r gate => some (.go gate, sh.toNat, l.toNat, r.toNat)
  | .trunGoAt sh l r => some (.goAt, sh.toNat, l.toNat, r.toNat)
  | .trunStat sh l r => some (.stat, sh.toNat, l.toNat, r.toNat)
  | _ => none

/-! ## Operand words -/

/-- R108: the fields of a shape. -/
def shM (w : Word) : Nat := w.bits 9 0 + 1
def shN (w : Word) : Nat := w.bits 19 10 + 1
def shR (w : Word) : Nat := w.bits 29 20
def shC (w : Word) : Nat := w.bits 39 30
def shL (w : Word) : Nat := w.bits 43 40
def shRf (w : Word) : Nat := w.bits 47 44
def shRnd (w : Word) : Nat := w.bits 51 50
def shAnchor (w : Word) : Int := (BitVec.ofNat 12 (w.bits 63 52)).toInt

/-- STRIDE of an operand word (R164, R166, R167). -/
def strideOf (w : Word) : Int := (BitVec.ofNat 32 (w.bits 31 0)).toInt

/-- T, FIRST and the row count of a transfer word (R164). -/
def twTile (w : Word) : Nat := w.bits 35 32
def twFirst (w : Word) : Nat := w.bits 43 36
def twCount (w : Word) : Nat := w.bits 51 44 + 1

/-- R182: the size of an output element of a DFMT. -/
def outSize (dfmt : Nat) : Nat :=
  match dfmt with
  | 0 => 4 | 1 => 2 | 2 => 2 | 3 => 1 | 4 => 1 | 5 => 1 | 6 => 4 | _ => 8

/-- R157: the groups of a row image of `n` columns. -/
def groupsOf (n : Nat) : Nat := ceilDiv n 64

/-- R166: whether a TDR uses its parameter block. -/
def usesParams (act : Nat) (bias xr xc : Bool) : Bool := bias || xr || xc || act = 2

/-! ## Tags (R162) -/

/-- Positions that accept either address tag. -/
def eitherAddr : Tag → Bool := fun t => t = .vaddr || t = .baddr

/-- R162: the tags that the shape, left and right positions accept, for the positions that an instruction uses. -/
def TK.accepts : TK → Option (Tag → Bool) × Option (Tag → Bool) × Option (Tag → Bool)
  | .op false _ => (some (only .shape), some (only .int), some (only .int))
  | .op true _ => (some (only .shape), some (only .baddr), some (only .baddr))
  | .tld true => (some (only .shape), some eitherAddr, some (only .int))
  | .tld false | .tst _ => (none, some eitherAddr, some (only .int))
  | .tzf => (some (only .shape), some (only .int), none)
  | .tdr .. => (some (only .shape), some fun t => eitherAddr t || t = .int, some (only .int))
  | .tdw _ | .taw => (some (only .shape), some eitherAddr, some (only .int))
  | .tchk => (some (only .shape), none, none)
  | .tewQ _ | .tewD _ => (none, some (only .int), none)
  | .load => (none, some eitherAddr, none)
  | .goAt => (none, none, some (only .int))
  | .tzfRelease | .tsync | .tewR _ | .go _ | .stat => (none, none, none)

/-- The operands of an instruction with their positions' checks: OPFIELD 4, 5 and 6 (R58). -/
def TK.opds (k : TK) (sh l r : TVal) : List Opd :=
  let one := fun (n : Nat) (v : TVal) (o : Option (Tag → Bool)) => (o.map fun ok => (⟨n, v, ok⟩ : Opd)).toList
  one 4 sh k.accepts.1 ++ one 5 l k.accepts.2.1 ++ one 6 r k.accepts.2.2

/-! ## SHAPE_FAULT and TILE_ALIGN (R110, R163 to R168, R170) -/

/-- R110: LFMT and RFMT are an allowed pair. -/
def pairOk (a b : Nat) : Bool :=
  (decide (a ≤ 1) && decide (b ≤ 1)) || (a = 2 && b = 2) || (a = 3 && b = 3) ||
  ((a = 4 || a = 5) && (b = 4 || b = 5)) || (a = 6 && b = 6)

/-- R103: the span of a vector in tiles. -/
def spanOf (f : Nat) (col : Bool) (n : Nat) : Nat := if col then ceilDiv n 256 else ceilDiv (n * elemBits f) 4096

/-- R103: the range of k. -/
def kLimit (f : Nat) (col : Bool) : Nat := if col then rowElems f else 256

/-- A failed check: its reason code and the operand that R170 names. -/
def fails (b : Bool) (reason field : Nat) : List (Nat × Nat) := if b then [(reason, field)] else []

/-- Reason 0x01. -/
def regionFaults (sh : Word) : List (Nat × Nat) :=
  fails (decide (1024 < shR sh + shM sh) || decide (1024 < shC sh + shN sh)) 1 4

/-- The checks of a selector (R163, R103). -/
def selectorFaults (sel : Word) (f : Nat) (col : Bool) (n k field : Nat) : List (Nat × Nat) :=
  fails (decide (16 < sel.bits 3 0 + spanOf f col n)) 4 field ++
  fails (decide (kLimit f col < sel.bits 13 4 + k)) 5 field

/-- The checks of an outer product. -/
def opFaults (mem : Bool) (k : Nat) (sh l r : Word) : List (Nat × Nat) :=
  let a := shL sh
  let b := shRf sh
  regionFaults sh ++
  (if mem then [] else fails (l.bits 63 14 ≠ 0) 7 5 ++ fails (r.bits 63 14 ≠ 0) 7 6) ++
  (if 6 < a ∨ 6 < b then [(2, 4)]
   else if !pairOk a b then [(3, 4)]
   else if mem then fails (a = 3) 9 4
   else selectorFaults l a (sh.bit 48) (shM sh) k 5 ++ selectorFaults r b (sh.bit 49) (shN sh) k 6)

/-- The checks of a tile destination (R165, R170, R184). R184 gives a width for DFMT 0 to 5 only; with DFMT 6 or 7 the span of
reason 0x04, which is reported before 0x09, is taken at the format's width in memory (DESIGN CHOICE, log entry 114). -/
def destFaults (dfmt : Nat) (sh l : Word) : List (Nat × Nat) :=
  fails (l.bits 63 12 ≠ 0) 7 5 ++ fails (decide (6 ≤ dfmt)) 9 4 ++
  fails (decide (16 < l.bits 3 0 + ceilDiv (shN sh * outSize dfmt * 8) 4096)) 4 5 ++
  fails (decide (256 < l.bits 11 4 + shM sh)) 8 5

/-- R170: every check but reason 0x06 that an instruction fails. -/
def TK.faults (k : TK) (sh : Word) (l r : TVal) : List (Nat × Nat) :=
  match k with
  | .op mem n => opFaults mem n sh l.data r.data
  | .tld scale | .tst scale =>
    fails (r.data.bits 63 52 ≠ 0) 7 6 ++
    fails (decide ((if scale then 16 else 256) < twFirst r.data + twCount r.data)) 8 6
  | .tzf => regionFaults sh ++ fails (l.data.bits 63 16 ≠ 0) 7 5
  | .tdr dfmt act _ bias xr xc =>
    regionFaults sh ++ fails (shRnd sh = 3) 2 4 ++ (if l.tag = .int then destFaults dfmt sh l.data else []) ++
    fails (r.data.bits 63 44 ≠ 0) 7 6 ++ fails (usesParams act bias xr xc && decide (239 < r.data.bits 43 36)) 10 6
  | .tdw _ | .taw => regionFaults sh ++ fails (r.data.bits 63 32 ≠ 0) 7 6
  | .tchk => regionFaults sh
  | _ => []

/-- R170: the least reason, and its first operand in the order shape, left, right. -/
def leastFault : List (Nat × Nat) → Option (Nat × Nat)
  | [] => none
  | p :: ps =>
    match leastFault ps with
    | none => some p
    | some q => if p.1 < q.1 ∨ (p.1 = q.1 ∧ p.2 ≤ q.2) then some p else some q

/-- R168: the base and stride that must be multiples of 16, with their operands. Where both are misaligned the left operand is
reported, and a STRIDE is sign-extended in tval (DESIGN CHOICE, log entry 115). -/
def TK.aligned (k : TK) (l r : TVal) : List (Nat × Word) :=
  match k with
  | .op true _ => [(5, l.data), (6, r.data)]
  | .tld _ | .tst _ | .tdw _ | .taw => [(5, l.data), (6, BitVec.ofInt 64 (strideOf r.data))]
  | .tdr .. => if l.tag = .int then [] else [(5, l.data), (6, BitVec.ofInt 64 (strideOf r.data))]
  | .load => [(5, l.data)]
  | _ => []

/-- R105: whether a vector's tiles hold scales of the other orientation. -/
def Saddle.saxClash (d : Saddle) (t n : Nat) (col : Bool) : Bool :=
  (List.range n).any fun i => d.status.scl (t + i) && d.status.sax (t + i) ≠ col

/-- R105, R170: reason 0x06, with its operand. -/
def TK.saxFault (k : TK) (d : Saddle) (sh : Word) (l r : TVal) : Option Nat :=
  match k with
  | .op false _ =>
    if shL sh ≠ 3 then none
    else if d.saxClash (l.data.bits 3 0) (spanOf 3 (sh.bit 48) (shM sh)) (sh.bit 48) then some 5
    else if d.saxClash (r.data.bits 3 0) (spanOf 3 (sh.bit 49) (shN sh)) (sh.bit 49) then some 6
    else none
  | _ => none

/-! ## The bytes an instruction touches (R177, R178, R182, R186, R187, R342) -/

/-- Rows of `n` bytes at `base + i × stride`. -/
def rowsAt (base : Word) (stride : Int) (count n : Nat) : List (Word × Nat) :=
  (List.range count).map fun (i : Nat) => (base + BitVec.ofInt 64 ((i : Int) * stride), n)

/-- The intervals that the left operand places, one a row. -/
def TK.leftRows (k : TK) (sh : Word) (l r : TVal) : List (Word × Nat) :=
  match k with
  | .op true n => [(l.data, n * vecStride (shM sh) (shL sh))]
  | .tld _ | .tst _ => rowsAt l.data (strideOf r.data) (twCount r.data) 512
  | .tdr dfmt _ _ _ _ _ => if l.tag = .int then [] else rowsAt l.data (strideOf r.data) (shM sh) (shN sh * outSize dfmt)
  | .tdw _ | .taw => rowsAt l.data (strideOf r.data) (shM sh) (groupsOf (shN sh) * 1040)
  | _ => []

/-- The interval that the right operand places. -/
def TK.rightRows (k : TK) (sh : Word) (r : TVal) : List (Word × Nat) :=
  match k with
  | .op true n => [(r.data, n * vecStride (shN sh) (shRf sh))]
  | _ => []

/-- R215: whether the instruction writes the bytes it touches. -/
def TK.writes : TK → Bool
  | .tst _ | .tdr .. | .tdw _ => true
  | _ => false

/-! ## Cost, latency and energy (R173, R499) -/

/-- c of R173. -/
def fmtCost (f : Nat) : Nat := if f ≤ 3 then 1 else if f ≤ 5 then 4 else 16

/-- R173, R216, R499: B, the data bytes that an instruction reads or writes. For an outer product from operand tiles it counts
element bits, not the scale bytes of MXFP4, in whole bytes rounded down (DESIGN CHOICE, log entry 116). -/
def TK.bytes (k : TK) (sh : Word) (r : TVal) : Nat :=
  match k with
  | .op true n => n * vecStride (shM sh) (shL sh) + n * vecStride (shN sh) (shRf sh)
  | .op false n => n * (shM sh * elemBits (shL sh) + shN sh * elemBits (shRf sh)) / 8
  | .tld _ | .tst _ => twCount r.data * 512
  | .tdr dfmt _ _ _ _ _ => shM sh * shN sh * outSize dfmt
  | .tdw _ | .taw => shM sh * groupsOf (shN sh) * 1040
  | _ => 0

/-- R173: P, the region's cells in engine rows that it covers only in part. -/
def partCells (sh : Word) : Nat :=
  shM sh * (((List.range (shN sh)).map (shC sh + ·)).filter fun c => !coversCols (shC sh) (shN sh) (c / 256)).length

/-- R173: the issue cost of an instruction with its BADDR or tile form's rate. -/
def TK.cost (k : TK) (sh : Word) (l r : TVal) : Nat :=
  let cells := ceilDiv (shM sh * shN sh) 4096
  let b := k.bytes sh r
  match k with
  | .op _ 1 => fmtCost (shL sh)
  | .op _ n => if shL sh = 3 then ceilDiv n 2 else fmtCost (shL sh) * n
  | .tld _ | .tst _ => ceilDiv (twCount r.data) 4
  | .tzf => 1 + ceilDiv (partCells sh) 4096
  | .tdr .. => max cells (ceilDiv b (if l.tag = .int then 8192 else 2048))
  | .tdw _ => max cells (ceilDiv b 2048)
  | .taw => max cells (ceilDiv b 4096)
  | .tchk => 256
  | .tewQ _ | .tsync => 1
  | _ => 0

/-- R173: the latency beyond the cost. -/
def TK.extra (k : TK) (l : TVal) : Nat :=
  match k with
  | .op false _ => 6
  | .op true _ => 18
  | .tld _ | .tst _ => 14
  | .tzf | .tewQ _ => 2
  | .tdr .. => if l.tag = .int then 12 else 16
  | .tdw _ => 16
  | .taw => 20
  | .tchk => 4
  | _ => 0

/-- f of R499, in twentieths of a picojoule. -/
def fmtEnergy (f : Nat) : Nat := if f ≤ 2 then 2 else if f = 3 then 1 else if f ≤ 5 then 7 else 24

/-- R499: the energy of an instruction, in twentieths of a picojoule. -/
def TK.energy (k : TK) (sh : Word) (r : TVal) : Nat :=
  10 * k.bytes sh r +
  match k with
  | .op _ n => shM sh * shN sh * n * fmtEnergy (shL sh)
  | .tdr .. | .tdw _ => 20 * (shM sh * shN sh)
  | _ => 0

end Sys2Proof.Machine
end

