-- ==== Sys2Proof/Machine/Foot.lean ====
section
/-! DEFINITION. What a tile instruction touches, and whether two instructions share state, for the cycle model (R174). -/

namespace Sys2Proof.Machine

/-- The region of an instruction that has one: first and last row, first and last column. -/
def TK.box (k : TK) (sh : Word) : Option (Nat × Nat × Nat × Nat) :=
  let b := (shR sh, shR sh + shM sh - 1, shC sh, shC sh + shN sh - 1)
  match k with
  | .op .. | .tzf | .tdr .. | .tdw _ | .taw | .tchk => some b
  | _ => none

/-- R174: the cells that an instruction touches: TCHK touches every cell of each block that its region reaches. -/
def TK.cellBox (k : TK) (sh : Word) : Option (Nat × Nat × Nat × Nat) :=
  match k with
  | .tchk => (k.box sh).map fun b =>
    (b.1 / 256 * 256, b.2.1 / 256 * 256 + 255, b.2.2.1 / 256 * 256, b.2.2.2 / 256 * 256 + 255)
  | _ => k.box sh

/-- Element rows `a` to `b` of tile `t`. -/
def tileRows (t a b : Nat) : Nat × Nat := (t * 512 + a, t * 512 + b)

/-- Scale rows `a` to `b` of tile `t`. -/
def scaleRows (t a b : Nat) : Nat × Nat := (t * 512 + 256 + a, t * 512 + 256 + b)

/-- R103, R104: the rows of `count` vectors of `n` elements that a selector names: element rows, and for MXFP4 scale rows. -/
def selectorRows (sel : Word) (f : Nat) (col : Bool) (n count : Nat) : List (Nat × Nat) :=
  let t := sel.bits 3 0
  let k := sel.bits 13 4
  (List.range (spanOf f col n)).flatMap fun x =>
    if col then
      let last := min (n - 256 * x) 256 - 1
      tileRows (t + x) 0 last :: (if f = 3 then [scaleRows (t + x) 0 (last / 16)] else [])
    else
      let wide := decide (512 < min (n - 1024 * x) 1024)
      let first := k / 32
      let last := (k + count - 1) / 32
      tileRows (t + x) k (k + count - 1) ::
      (if f ≠ 3 then []
       else if wide then [scaleRows (t + x) (2 * first) (2 * last + 1)]
       else (List.range (last + 1 - first)).map fun i => scaleRows (t + x) (2 * (first + i)) (2 * (first + i)))

/-- The tile rows that an instruction reads. -/
def TK.tileReads (k : TK) (sh : Word) (l r : TVal) : List (Nat × Nat) :=
  match k with
  | .op false n =>
    selectorRows l.data (shL sh) (sh.bit 48) (shM sh) n ++ selectorRows r.data (shRf sh) (sh.bit 49) (shN sh) n
  | .tst scale =>
    let w := r.data
    [(if scale then scaleRows else tileRows) (twTile w) (twFirst w) (twFirst w + twCount w - 1)]
  | .tdr _ act _ bias xr xc =>
    if usesParams act bias xr xc then [tileRows (r.data.bits 35 32) (r.data.bits 43 36) (r.data.bits 43 36 + 16)] else []
  | _ => []

/-- The tile rows that an instruction writes; an entry of a tile mask stands for the whole tile (R174, R179). -/
def TK.tileWrites (k : TK) (sh : Word) (l r : TVal) : List (Nat × Nat) :=
  match k with
  | .tld scale =>
    let w := r.data
    [(if scale then scaleRows else tileRows) (twTile w) (twFirst w) (twFirst w + twCount w - 1)]
  | .tzf => ((List.range 16).filter fun t => l.data.bit t).map fun t => tileRows t 0 511
  | .tdr dfmt _ _ _ _ _ =>
    if l.tag = .int then
      (List.range (ceilDiv (shN sh * outSize dfmt * 8) 4096)).map fun x =>
        tileRows (l.data.bits 3 0 + x) (l.data.bits 11 4) (l.data.bits 11 4 + shM sh - 1)
    else []
  | _ => []

/-- The bytes that an instruction touches, as inclusive intervals; those of memory are told from those of buffer memory. -/
def TK.byteRows (k : TK) (sh : Word) (l r : TVal) : List (Bool × Nat × Nat) :=
  (k.leftRows sh l r ++ k.rightRows sh r).map fun p => (l.tag = .vaddr, p.1.toNat, p.1.toNat + p.2 - 1)

/-- R174: what an instruction touches. A TDR uses the seed and DSEQ, which it also advances (R150, R151). -/
def TK.foot (k : TK) (sh : Word) (l r : TVal) : Foot :=
  let bytes := k.byteRows sh l r
  { accum := match k with
      | .op .. | .taw => true
      | _ => false
    cells := k.cellBox sh, tileRd := k.tileReads sh l r, tileWr := k.tileWrites sh l r,
    bytesRd := if k.writes then [] else bytes, bytesWr := if k.writes then bytes else [],
    ctlWr := match k with
      | .tewQ w => [w]
      | _ => []
    ctlUse := match k with
      | .tdr .. => [2, 3]
      | _ => []
    ctlSoft := match k with
      | .tdr .. => [0, 1]
      | .tdw _ => [0]
      | _ => [] }

/-- Whether two lists of inclusive intervals have a point in common. -/
def spansMeet (a b : List (Nat × Nat)) : Bool := a.any fun x => b.any fun y => decide (x.1 ≤ y.2) && decide (y.1 ≤ x.2)

/-- The same for bytes. -/
def bytesMeet (a b : List (Bool × Nat × Nat)) : Bool :=
  a.any fun x => b.any fun y => x.1 = y.1 && decide (x.2.1 ≤ y.2.2) && decide (y.2.1 ≤ x.2.2)

/-- Whether two boxes of cells meet. -/
def cellsMeet : Option (Nat × Nat × Nat × Nat) → Option (Nat × Nat × Nat × Nat) → Bool
  | some a, some b => decide (a.1 ≤ b.2.1) && decide (b.1 ≤ a.2.1) && decide (a.2.2.1 ≤ b.2.2.2) && decide (b.2.2.1 ≤ a.2.2.2)
  | _, _ => false

/-- R174: whether a later instruction waits for the latency of an earlier one. -/
def Foot.waits (a b : Foot) : Bool :=
  !(a.accum && b.accum) &&
  (cellsMeet a.cells b.cells || spansMeet a.tileWr (b.tileRd ++ b.tileWr) || spansMeet b.tileWr a.tileRd ||
   bytesMeet a.bytesWr (b.bytesRd ++ b.bytesWr) || bytesMeet b.bytesWr a.bytesRd ||
   (a.ctlWr.any fun w => b.ctlWr.contains w || b.ctlUse.contains w || b.ctlSoft.contains w) ||
   b.ctlWr.any fun w => a.ctlUse.contains w || a.ctlSoft.contains w)

end Sys2Proof.Machine
end

