-- ==== Sys2Proof/Machine/Image.lean ====
section
/-! DEFINITION. Run images: their layout (R208), the operand values (R212), and the checks of TRUN.LOAD in their order
(R213 to R216, R218, R229, R234). -/

namespace Sys2Proof.Machine

/-! ## Layout (R208) -/

/-- `n` bytes at offset `o`, little-endian. -/
def le (bs : List Byte) (o n : Nat) : Nat := leNat ((bs.drop o).take n)

/-- The first `n` pieces of `k` bytes. -/
def pieces (k : Nat) : (n : Nat) → List Byte → List (List Byte)
  | 0, _ => []
  | n + 1, bs => bs.take k :: pieces k n (bs.drop k)

/-- The counts of a header. -/
structure Counts where
  runs : Nat
  ops : Nat
  pins : Nat
  ranges : Nat
  insns : Nat
  deriving DecidableEq, Repr

def Counts.of (h : List Byte) : Counts :=
  { runs := le h 6 1, ops := le h 7 1, pins := le h 8 1, ranges := le h 9 1, insns := le h 12 4 }

/-- R205, R208: the ranges of the counts. -/
def Counts.ok (c : Counts) : Bool :=
  decide (1 ≤ c.runs) && decide (c.runs ≤ 16) && decide (1 ≤ c.ops) && decide (c.ops ≤ 32) && decide (c.pins ≤ 64) &&
  decide (c.ranges ≤ 32) && decide (1 ≤ c.insns) && decide (c.insns ≤ 65536)

/-- The offsets of the sections. -/
def Counts.opsAt (c : Counts) : Nat := 64 + 64 * c.runs
def Counts.pinsAt (c : Counts) : Nat := c.opsAt + 48 * c.ops
def Counts.rangesAt (c : Counts) : Nat := c.pinsAt + 16 * c.pins
def Counts.wordsAt (c : Counts) : Nat := c.rangesAt + 16 * c.ranges
def Counts.crcAt (c : Counts) : Nat := c.wordsAt + 4 * c.insns

/-- A run table entry. -/
def runEntry (b : List Byte) : RunDesc :=
  { first := le b 0 4, last := le b 4 4, cycles := le b 8 4, pro := le b 12 4, epi := le b 16 4,
    replayable := (le b 20 4).testBit 0, chain := (le b 20 4).testBit 1,
    loops := (List.range 4).map fun l => { first := le b (32 + 8 * l) 2, last := le b (34 + 8 * l) 2, trips := le b (36 + 8 * l) 4 } }

/-- An operand table entry. -/
def opEntry (b : List Byte) : OpEntry :=
  { value := Word.ofNat (le b 0 8), tag := tagOfCode (le b 8 1 % 16),
    incs := (List.range 4).map fun l => Word.ofNat (le b (16 + 8 * l) 8) }

/-- A pin entry. -/
def pinEntry (b : List Byte) : Pin :=
  { va := le b 0 8, size := le b 8 1, rd := (le b 9 1).testBit 0, wr := (le b 9 1).testBit 1 }

/-- A range entry. -/
def rangeEntry (b : List Byte) : BufRange := { base := le b 0 4, len := le b 4 4, write := le b 8 1 = 1 }

/-- The image that the bytes `bs` lay out, loaded as number `stamp`. -/
def Image.parse (bs : List Byte) (stamp : Nat) : Image :=
  let c := Counts.of bs
  { runs := (pieces 64 c.runs (bs.drop 64)).map runEntry, ops := (pieces 48 c.ops (bs.drop c.opsAt)).map opEntry,
    pins := (pieces 16 c.pins (bs.drop c.pinsAt)).map pinEntry,
    ranges := (pieces 16 c.ranges (bs.drop c.rangesAt)).map rangeEntry,
    words := (pieces 4 c.insns (bs.drop c.wordsAt)).map fun w => BitVec.ofNat 32 (leNat w),
    total := le bs 16 4, maxgap := le bs 20 4, energy := le bs 24 4, memTimed := (le bs 10 2).testBit 0,
    crc := BitVec.ofNat 32 (le bs c.crcAt 4), loadedAt := stamp }

/-! ## Reason 0x03 (R208) -/

/-- Whether every byte of a stretch is 0. -/
def zeros (bs : List Byte) (o n : Nat) : Bool := ((bs.drop o).take n).all (· = 0)

/-- The reserved fields and the rules of single fields of the header, operand table, pin list and range list. -/
def fieldsOk (bs : List Byte) : Bool :=
  let c := Counts.of bs
  decide (le bs 10 2 < 2) && decide (le bs 24 4 < 16) && zeros bs 32 32 &&
  ((pieces 64 c.runs (bs.drop 64)).all fun b => decide (le b 20 4 < 4) && zeros b 24 8) &&
  ((pieces 48 c.ops (bs.drop c.opsAt)).all fun b => decide (le b 8 1 < 16) && zeros b 9 7) &&
  ((pieces 16 c.pins (bs.drop c.pinsAt)).all fun b =>
    decide (12 ≤ le b 8 1) && decide (le b 8 1 ≤ 56) && le b 0 8 % 2 ^ le b 8 1 = 0 && decide (le b 0 8 < 2 ^ 57) &&
    decide (le b 9 1 < 4) && zeros b 10 6) &&
  ((pieces 16 c.ranges (bs.drop c.rangesAt)).all fun b =>
    le b 0 4 % 16 = 0 && le b 4 4 % 16 = 0 && le b 4 4 ≠ 0 && decide (le b 8 1 < 2) && zeros b 9 7)

/-! ## Instruction words and operand entries (R196, R209, R214) -/

/-- An instruction of an image: its kind and the operand entries that its fields name. -/
structure XInsn where
  k : TK
  sh : Nat
  l : Nat
  r : Nat
  deriving DecidableEq, Repr

/-- R196: the kinds that no image may hold. -/
def TK.inImage : TK → Bool
  | .tzfRelease | .tewR _ | .tewD _ | .load | .go _ | .goAt | .stat => false
  | _ => true

/-- R214 reason 0x04: the instruction of a word. -/
def xinsn (nops : Nat) (w : Half) : Option XInsn :=
  match decodeCore w with
  | none => none
  | some i =>
    match tileKind i with
    | none => none
    | some (k, a, b, d) =>
      if i.legal && k.inImage && decide (a < nops) && decide (b < nops) && decide (d < nops) then
        some { k := k, sh := a, l := b, r := d } else none

/-- Word `n` of an image; a word that TRUN.LOAD has accepted has an instruction. -/
def Image.insn (m : Image) (n : Nat) : XInsn :=
  (xinsn m.ops.length (m.words.getD n 0)).getD { k := .tsync, sh := 0, l := 0, r := 0 }

/-- R212: the value of operand entry `e` at the loop indices of the enclosing loops. -/
def OpEntry.at (e : OpEntry) (is : List (Nat × Nat)) : TVal :=
  ⟨is.foldl (fun v p => v + Word.ofNat p.2 * e.incs.getD p.1 0) e.value, e.tag⟩

/-- R209: entry 0. -/
def OpEntry.zero : OpEntry := { value := 0, tag := .int, incs := [0, 0, 0, 0] }

def Image.op (m : Image) (e : Nat) : OpEntry := m.ops.getD e .zero

/-- The three operand values of an instruction. -/
def Image.vals (m : Image) (x : XInsn) (is : List (Nat × Nat)) : TVal × TVal × TVal :=
  ((m.op x.sh).at is, (m.op x.l).at is, (m.op x.r).at is)

/-- R214 reason 0x05. -/
def Image.tagsOk (m : Image) : Bool :=
  (m.ops.all fun e => e.tag ≠ .none && e.tag ≠ .poison) && m.op 0 = .zero &&
  (List.range m.words.length).all fun n =>
    let x := m.insn n
    let (a, b, d) := m.vals x []
    (x.k.opds a b d).all fun o => o.ok o.v.tag

/-! ## The run table and loops (R209, R210, R214) -/

/-- The loops that are present, with their numbers. -/
def RunDesc.present (r : RunDesc) : List (Nat × Loop) :=
  (r.loops.zipIdx.filter fun p => p.1.trips ≠ 0).map fun p => (p.2, p.1)

/-- R210: a pair of loops, the lower number first. -/
def loopsOk (a b : Loop) : Bool :=
  decide (a.last < b.first) || decide (b.last < a.first) || (decide (a.first ≤ b.first) && decide (b.last ≤ a.last))

/-- R205, R210: one run. -/
def RunDesc.ok (r : RunDesc) : Bool :=
  decide (r.first ≤ r.last) && decide (r.first ≤ r.pro) && decide (r.pro ≤ r.epi) && decide (r.epi ≤ r.last + 1) &&
  (r.present.all fun p => decide (r.pro ≤ p.2.first) && decide (p.2.first ≤ p.2.last) && decide (p.2.last < r.epi) &&
    decide (p.2.trips ≤ 2 ^ 24)) &&
  r.present.all fun p => r.present.all fun q => !decide (p.1 < q.1) || loopsOk p.2 q.2

/-- R209: the runs follow one another from word `n` and end at the image's last word. -/
def runsOk (total : Nat) : (n : Nat) → List RunDesc → Bool
  | n, [] => n = total
  | n, r :: rs => r.first = n && r.ok && runsOk total (r.last + 1) rs

/-- R210: the loops of a run that enclose word `n`, outer first, with their trips. -/
def RunDesc.around (r : RunDesc) (n : Nat) : List (Nat × Nat) :=
  (r.present.filter fun p => decide (p.2.first ≤ n) && decide (n ≤ p.2.last)).map fun p => (p.1, p.2.trips)

/-- The run that holds word `n`. -/
def Image.runAt (m : Image) (n : Nat) : Nat :=
  (m.runs.findIdx? fun r => decide (r.first ≤ n) && decide (n ≤ r.last)).getD 0

def RunDesc.empty : RunDesc :=
  { first := 0, last := 0, cycles := 0, pro := 0, epi := 0, replayable := false, chain := false, loops := [] }

def Image.desc (m : Image) (r : Nat) : RunDesc := m.runs.getD r .empty

/-- The loops around word `n`. -/
def Image.around (m : Image) (n : Nat) : List (Nat × Nat) := (m.desc (m.runAt n)).around n

/-- The loop indices that a choice of indices for each loop gives. -/
def choices (f : Nat × Nat → List Nat) : List (Nat × Nat) → List (List (Nat × Nat))
  | [] => [[]]
  | p :: ps => (f p).flatMap fun i => (choices f ps).map fun is => (p.1, i) :: is

/-- R212: the corners of the instruction at word `n`. -/
def Image.corners (m : Image) (n : Nat) : List (List (Nat × Nat)) :=
  choices (fun p => if p.2 ≤ 1 then [0] else [0, p.2 - 1]) (m.around n)

/-! ## Reason 0x07 (R213) -/

/-- A field of an operand word: its low bit and its width. A layout with a STRIDE has it in bits [31:0]. -/
structure Layout where
  stride : Bool
  fields : List (Nat × Nat)

def shapeLayout : Layout :=
  { stride := false, fields := [(0, 10), (10, 10), (20, 10), (30, 10), (40, 4), (44, 4), (48, 1), (49, 1), (50, 2), (52, 12)] }

/-- R163 to R167, R179: the layouts of the left and right words of an instruction. -/
def TK.leftLayout : TK → Option Layout
  | .op false _ => some { stride := false, fields := [(0, 4), (4, 10), (14, 50)] }
  | .tdr .. => some { stride := false, fields := [(0, 4), (4, 8), (12, 52)] }
  | .tzf => some { stride := false, fields := [(0, 16), (16, 48)] }
  | _ => none

def TK.rightLayout : TK → Option Layout
  | .op false _ => some { stride := false, fields := [(0, 4), (4, 10), (14, 50)] }
  | .tld _ | .tst _ => some { stride := true, fields := [(32, 4), (36, 8), (44, 8), (52, 12)] }
  | .tdr .. => some { stride := true, fields := [(32, 4), (36, 8), (44, 20)] }
  | .tdw _ | .taw => some { stride := true, fields := [(32, 32)] }
  | _ => none

/-- The increment of the fields above a STRIDE: the STRIDE takes its increment as a signed number. -/
def Layout.upper (y : Layout) (inc : Word) : Word := if y.stride then inc - BitVec.ofInt 64 (strideOf inc) else inc

/-- R213: every field holds its sum at the last iterations, and no carry passes from a STRIDE at a corner: though STRIDE may take
any increment, one that carries into the fields above it is refused (DEDUCED, log entry 77). -/
def Layout.ok (y : Layout) (e : OpEntry) (around : List (Nat × Nat)) (corners : List (List (Nat × Nat))) : Bool :=
  (y.fields.all fun f =>
    decide ((around.map fun p => (p.2 - 1) * (y.upper (e.incs.getD p.1 0)).bits (f.1 + f.2 - 1) f.1).sum +
      e.value.bits (f.1 + f.2 - 1) f.1 < 2 ^ f.2)) &&
  (!y.stride || corners.all fun is =>
    e.value.toNat / 2 ^ 32 + (is.map fun p => p.2 * ((y.upper (e.incs.getD p.1 0)).toNat / 2 ^ 32)).sum = (e.at is).data.toNat / 2 ^ 32)

/-- R213 for the positions that the instruction reads as a shape or an operand word. -/
def Image.layoutsOk (m : Image) (n : Nat) : Bool :=
  let x := m.insn n
  let chk := fun (used : Bool) (t : Tag) (y : Option Layout) (e : Nat) =>
    match y with
    | some y => !used || (m.op e).tag ≠ t || y.ok (m.op e) (m.around n) (m.corners n)
    | none => true
  chk x.k.accepts.1.isSome .shape (some shapeLayout) x.sh && chk x.k.accepts.2.1.isSome .int x.k.leftLayout x.l &&
  chk x.k.accepts.2.2.isSome .int x.k.rightLayout x.r

/-- R214 reason 0x07 for the instruction at word `n`. -/
def Image.usesOk (m : Image) (n : Nat) : Bool :=
  let x := m.insn n
  m.layoutsOk n && (m.corners n).all fun is =>
    let (a, b, d) := m.vals x is
    (x.k.faults a.data b d).isEmpty && (x.k.aligned b d).all fun p => p.2.toNat % 16 = 0

/-! ## Reason 0x08 (R215) -/

/-- The lowest start and the highest end of intervals. -/
def hull : List (Word × Nat) → Option (Nat × Nat)
  | [] => none
  | p :: ps =>
    match hull ps with
    | none => some (p.1.toNat, p.1.toNat + p.2)
    | some (lo, hi) => some (min lo p.1.toNat, max hi (p.1.toNat + p.2))

/-- An access of an instruction over its corners: whether its base is a VADDR, whether it writes, and its bounds. -/
structure RunAccess where
  mem : Bool
  write : Bool
  lo : Nat
  hi : Nat
  deriving DecidableEq, Repr

/-- R215: the accesses of the instruction at word `n`: one for each operand that places bytes. -/
def Image.accesses (m : Image) (n : Nat) : List RunAccess :=
  let x := m.insn n
  let mem := decide ((m.op x.l).tag = .vaddr)
  let rows := (m.corners n).map fun is => m.vals x is
  let one := fun (ivs : List (Word × Nat)) =>
    ((hull ivs).map fun h => ({ mem := mem, write := x.k.writes, lo := h.1, hi := h.2 } : RunAccess)).toList
  one (rows.flatMap fun v => x.k.leftRows v.1.data v.2.1 v.2.2) ++ one (rows.flatMap fun v => x.k.rightRows v.1.data v.2.2)

/-- The pin or declared range that covers an access. -/
def Image.cover (m : Image) (a : RunAccess) : Option Nat :=
  if a.mem then m.pins.findIdx? fun p =>
    decide (p.va ≤ a.lo) && decide (a.hi ≤ p.va + 2 ^ p.size) && (if a.write then p.wr else p.rd)
  else m.ranges.findIdx? fun r => decide (r.base ≤ a.lo) && decide (a.hi ≤ r.base + r.len) && r.write = a.write

/-- R218: an instruction of the image names a VADDR base. -/
def Image.namesVaddr (m : Image) : Bool :=
  (List.range m.words.length).any fun n =>
    let x := m.insn n
    x.k.accepts.2.1.isSome && (m.op x.l).tag = .vaddr

/-! ## The load-time summary of an instruction (R229, R234) -/

/-- The loop indices at which the tiles of an instruction are taken: a field of four bits moves at most 16 times (R213), and
a tile mask as often as its loops go round. -/
def Image.samples (m : Image) (n : Nat) : List (List (Nat × Nat)) :=
  let x := m.insn n
  let all := fun (p : Nat × Nat) => decide (p.2 ≤ 16) || (x.k = .tzf && (m.op x.l).incs.getD p.1 0 ≠ 0)
  choices (fun p => if all p then List.range p.2 else [0, p.2 - 1]) (m.around n)

/-- A box of cells that holds two. -/
def boxUnion (a b : Option (Nat × Nat × Nat × Nat)) : Option (Nat × Nat × Nat × Nat) :=
  match a, b with
  | none, b => b
  | a, none => a
  | some (r1, r2, c1, c2), some (p1, p2, q1, q2) => some (min r1 p1, max r2 p2, min c1 q1, max c2 q2)

/-- R229, R234: what an instruction touches over its iterations: its region, the cells of R174, tiles read and written, the
covers of its accesses with their direction, and control words. -/
structure Summary where
  word : Nat
  k : TK
  inner : List Nat
  region : Option (Nat × Nat × Nat × Nat)
  cells : Option (Nat × Nat × Nat × Nat)
  rd : List Nat
  wr : List Nat
  covers : List (Bool × Nat × Bool)
  ctlWr : List Nat
  ctlUse : List Nat
  ctlSoft : List Nat

/-- The tiles of intervals of tile rows. -/
def tilesOf (is : List (Nat × Nat)) : List Nat :=
  (List.range 16).filter fun t => is.any fun p => decide (p.1 / 512 ≤ t) && decide (t ≤ p.2 / 512)

def Image.summary (m : Image) (n : Nat) : Summary :=
  let x := m.insn n
  let foot := fun is => let v := m.vals x is; x.k.foot v.1.data v.2.1 v.2.2
  let feet := (m.samples n).map foot
  let f0 := foot []
  { word := n, k := x.k, inner := (m.around n).map (·.1),
    region := (m.corners n).foldl (fun b is => boxUnion b (x.k.box (m.vals x is).1.data)) none,
    cells := feet.foldl (fun b f => boxUnion b f.cells) none,
    rd := tilesOf (feet.flatMap (·.tileRd)), wr := tilesOf (feet.flatMap (·.tileWr)),
    covers := (m.accesses n).filterMap fun a => (m.cover a).map fun i => (a.mem, i, a.write),
    ctlWr := f0.ctlWr, ctlUse := f0.ctlUse, ctlSoft := f0.ctlSoft }

/-- Whether box `a` lies inside box `b`. -/
def boxInside (a b : Nat × Nat × Nat × Nat) : Bool :=
  decide (b.1 ≤ a.1) && decide (a.2.1 ≤ b.2.1) && decide (b.2.2.1 ≤ a.2.2.1) && decide (a.2.2.2 ≤ b.2.2.2)

/-- The summaries of a run, in word order. -/
def Image.summaries (m : Image) (r : RunDesc) : List Summary := (List.range (r.last + 1 - r.first)).map fun i => m.summary (r.first + i)

/-! ## Reason 0x0A (R233, R234) -/

/-- A TZF outside all loops. -/
def Summary.opens (s : Summary) : Bool := s.k = .tzf && s.inner.isEmpty

/-- R234: the cells of every instruction lie inside the region of one earlier TZF outside all loops. -/
def zeroedFirst (ss : List Summary) : Bool :=
  ss.all fun s => s.opens || match s.region with
    | none => true
    | some b => ss.any fun z => z.opens && decide (z.word < s.word) && (z.region.map (boxInside b)).getD false

/-- R234: a tile that the run both reads and writes is written first, and read later inside every loop around that write. -/
def tileWrittenFirst (ss : List Summary) (t : Nat) : Bool :=
  let readers := ss.filter fun s => s.rd.contains t
  if readers.isEmpty || !(ss.any fun s => s.wr.contains t) then true
  else match ss.find? fun s => s.rd.contains t || s.wr.contains t with
    | none => true
    | some f => f.wr.contains t && readers.all fun s => decide (f.word < s.word) && f.inner.all fun l => s.inner.contains l

/-- The first byte and the end of a cover: a pin, by virtual address, or a declared range. -/
def Image.extent (m : Image) (x : Bool × Nat × Bool) : Nat × Nat :=
  if x.1 then
    match m.pins[x.2.1]? with
    | some p => (p.va, p.va + 2 ^ p.size)
    | none => (0, 0)
  else
    match m.ranges[x.2.1]? with
    | some g => (g.base, g.base + g.len)
    | none => (0, 0)

/-- Whether two covers have a byte in common. -/
def Image.coversMeet (m : Image) (a b : Bool × Nat × Bool) : Bool :=
  a.1 = b.1 && decide ((m.extent b).1 < (m.extent a).2) && decide ((m.extent a).1 < (m.extent b).2)

/-- R233, R234: the bytes of the declared ranges that the run reads and of those that it writes are disjoint. -/
def Image.rangesApart (m : Image) (ss : List Summary) : Bool :=
  let used := ss.flatMap (·.covers)
  used.all fun a => used.all fun b => a.2.2 || !b.2.2 || !m.coversMeet a b

def Image.replayOk (m : Image) (r : RunDesc) : Bool :=
  let ss := m.summaries r
  !m.namesVaddr && zeroedFirst ss && m.rangesApart ss && (List.range 16).all (tileWrittenFirst ss)

/-! ## Reason 0x0B (R229) -/

def meets (a b : List Nat) : Bool := a.any fun x => b.contains x

/-- R229: sharing at the granularity of tiles, declared ranges, pins and bounding boxes of cells. Ranges, and pins, that have
a byte in common share it. -/
def Image.shares (m : Image) (a b : Summary) : Bool :=
  cellsMeet a.cells b.cells || meets a.wr (b.rd ++ b.wr) || meets b.wr a.rd ||
  (a.covers.any fun x => b.covers.any fun y => m.coversMeet x y && (x.2.2 || y.2.2)) ||
  meets a.ctlWr (b.ctlWr ++ b.ctlUse ++ b.ctlSoft) || meets b.ctlWr (a.ctlUse ++ a.ctlSoft)

/-- R229: the CHAIN declaration of run `r`. -/
def Image.chainOk (m : Image) (r : Nat) : Bool :=
  let d := m.desc r
  !d.chain ||
  match r with
  | 0 => false
  | p + 1 =>
    decide ((m.desc p).epi ≤ (m.desc p).last) &&
    ((m.summaries d).filter fun s => decide (s.word < d.pro)).all fun a => (m.summaries (m.desc p)).all fun b => !m.shares a b

/-! ## Reason 0x0D (R216, R499) -/

/-- The sum of an amount over the iterations of loops; a loop on which it does not depend is counted at once. -/
def sumIters (dep : Nat → Bool) (f : List (Nat × Nat) → Nat) : List (Nat × Nat) → Nat
  | [] => f []
  | p :: ps =>
    if dep p.1 then ((List.range p.2).map fun i => sumIters dep (fun is => f ((p.1, i) :: is)) ps).sum
    else p.2 * sumIters dep f ps

/-- R499: e, in twentieths of a picojoule. -/
def Image.joules (m : Image) : Nat :=
  ((List.range m.words.length).map fun n =>
    let x := m.insn n
    let right := match x.k with
      | .tld _ | .tst _ => true
      | _ => false
    let dep := fun l => (m.op x.sh).incs.getD l 0 ≠ 0 || (right && (m.op x.r).incs.getD l 0 ≠ 0)
    sumIters dep (fun is => let v := m.vals x is; x.k.energy v.1.data v.2.2) (m.around n)).sum

/-- R499: the class of an energy `e`. With TOTAL_CYCLES 0 the quotient has no value: any energy but 0 gives 15, and for 0
the class is a free value (DESIGN CHOICE, log entry 36). -/
def energyClass (e total free : Nat) : Nat :=
  if total = 0 then (if e = 0 then free % 16 else 15) else min 15 (ceilDiv (e * 7) (2500000 * total))

/-! ## The checks in their order (R214) -/

/-- The first check that an image fails after its counts, but for room (reason 0x0C): its reason code. `scales` tells that no
use violates R105, which is a matter of the tile state as well (R110). -/
def Image.refusedEarly (m : Image) (bs : List Byte) (scales : Bool) : Option Nat :=
  let words := List.range m.words.length
  let runs := List.range m.runs.length
  if crc32c (bs.take (Counts.of bs).crcAt) ≠ m.crc then some 2
  else if !fieldsOk bs then some 3
  else if m.words.any fun w => (xinsn m.ops.length w).isNone then some 4
  else if !m.tagsOk || (pieces 48 m.ops.length (bs.drop (Counts.of bs).opsAt)).any fun b => decide (8 < le b 8 1) then some 5
  else if !runsOk m.words.length 0 m.runs then some 6
  else if !words.all m.usesOk || !scales then some 7
  else if words.any fun n => (m.accesses n).any fun a => (m.cover a).isNone then some 8
  else if decide (2 ^ 26 < m.total) || m.runs.any fun r =>
    decide (2 ^ 26 < r.cycles) || (r.replayable && decide (2 ^ 19 < r.cycles)) then some 9
  else if m.runs.any fun r => r.replayable && !m.replayOk r then some 0xA
  else if !runs.all m.chainOk then some 0xB
  else none

/-- The checks after room. -/
def Image.refusedLate (m : Image) (free : Nat) : Option Nat :=
  if m.energy % 16 < energyClass m.joules m.total free then some 0xD
  else if m.memTimed ≠ m.namesVaddr then some 0xE
  else none

end Sys2Proof.Machine
end

