-- ==== Sys2Proof/Machine/Drain.lean ====
section
/-! DEFINITION. The drain pipeline for one cell (R145 to R149), the counter-based generator (R150) and the activation
functions (R152 to R156). -/

namespace Sys2Proof.Machine

/-! ## Exact values -/

/-- An exact value `m × 2^e`. -/
structure Dy where
  m : Int
  e : Int
  deriving DecidableEq, Repr

def Dy.zero : Dy := ⟨0, 0⟩

def Dy.add (a b : Dy) : Dy :=
  let e := min a.e b.e
  ⟨a.m * 2 ^ (a.e - e).toNat + b.m * 2 ^ (b.e - e).toNat, e⟩

/-- Whether `a` lies below `b`. -/
def Dy.lt (a b : Dy) : Bool :=
  let e := min a.e b.e
  decide (a.m * 2 ^ (a.e - e).toNat < b.m * 2 ^ (b.e - e).toNat)

def Dy.min (a b : Dy) : Dy := if b.lt a then b else a
def Dy.max (a b : Dy) : Dy := if a.lt b then b else a

/-- The value as a floating-point value; 0 is +0 (R148). -/
def Dy.val (a : Dy) : FVal := .fin (decide (a.m < 0)) a.m.natAbs a.e

/-- R146: an FP32 parameter: a NaN or an infinity is taken as +0. Answers whether it was one. -/
def paramValue (w : Nat) : Dy × Bool :=
  match fmtS.decode w with
  | .fin n m e => (⟨if n then -(m : Int) else m, e⟩, false)
  | _ => (Dy.zero, true)

/-! ## Output rounding (R147 to R149) -/

/-- A rounding mode of a drain: a directed one, or stochastic with U. -/
inductive DMode where
  | dir (rm : RMode) | stoch (u : Nat)
  deriving DecidableEq, Repr

/-- R108: RND with the generator's output. -/
def DMode.of (rnd : Nat) (u : Nat) : DMode := if rnd = 0 then .dir .rne else if rnd = 1 then .dir .rtz else .stoch u

/-- The magnitude `m × 2^e` on the grid of step `2^q`: its rounded multiple. -/
def DMode.onGrid (md : DMode) (m : Nat) (e q : Int) : Nat :=
  if q ≤ e then m * 2 ^ (e - q).toNat
  else
    let sh := (q - e).toNat
    let kept := m / 2 ^ sh
    let rem := m % 2 ^ sh
    match md with
    | .dir rm => kept + (roundsUp rm false kept rem sh false).toNat
    | .stoch u => kept + (decide (rem ≠ 0) && decide (u < rem * 2 ^ 32 / 2 ^ sh)).toNat

/-- A floating-point output format: fraction bits, bias, the exponent of the step at its largest finite value, that value
in steps, and whether it has an infinity. -/
structure OutFmt where
  mb : Nat
  bias : Nat
  qmax : Int
  kmax : Nat
  hasInf : Bool
  signBit : Nat
  deriving DecidableEq, Repr

/-- R147: the floating-point outputs, by DFMT. -/
def outFmt (dfmt : Nat) : OutFmt :=
  match dfmt with
  | 0 => ⟨23, 127, 104, 2 ^ 24 - 1, true, 31⟩
  | 1 => ⟨7, 127, 120, 2 ^ 8 - 1, true, 15⟩
  | 2 => ⟨10, 15, 5, 2 ^ 11 - 1, true, 15⟩
  | 3 => ⟨3, 7, 5, 14, false, 7⟩
  | 4 => ⟨2, 15, 13, 7, true, 7⟩
  | _ => ⟨52, 1023, 971, 2 ^ 53 - 1, true, 63⟩

def OutFmt.qmin (f : OutFmt) : Int := 1 - (f.bias : Int) - f.mb

/-- The encoding of `k` steps of `2^q`, without its sign. -/
def OutFmt.bits (f : OutFmt) (k : Nat) (q : Int) : Nat :=
  if k < 2 ^ f.mb then k
  else if k = 2 ^ (f.mb + 1) then (q + 1 + f.mb + f.bias).toNat * 2 ^ f.mb
  else (q + f.mb + f.bias).toNat * 2 ^ f.mb + (k - 2 ^ f.mb)

/-- The largest finite value and the infinity, without sign. -/
def OutFmt.maxBits (f : OutFmt) : Nat := f.bits f.kmax f.qmax
def OutFmt.infBits (f : OutFmt) : Nat :=
  if f.hasInf then (f.qmax + f.mb + f.bias + 1).toNat * 2 ^ f.mb else f.maxBits

/-- R147: the overflow result of a mode, without sign; a stochastic overflow is that of nearest-even (R149). -/
def OutFmt.overflow (f : OutFmt) (md : DMode) : Nat :=
  match md with
  | .dir .rtz => f.maxBits
  | _ => f.infBits

/-- R148, R149: a finite magnitude rounded into a floating-point output, without its sign. -/
def OutFmt.round (f : OutFmt) (md : DMode) (m : Nat) (e : Int) : Nat :=
  if m = 0 then 0
  else
    let q := min f.qmax (max (e + (Nat.log2 m : Int) - f.mb) f.qmin)
    let k := md.onGrid m e q
    if q = f.qmax ∧ f.kmax < k then f.overflow md else f.bits k q

/-- R148: a value written into a floating-point output. -/
def OutFmt.encode (f : OutFmt) (md : DMode) (v : FVal) : Nat :=
  match v with
  | .nan => if f.hasInf then f.infBits + 2 ^ (f.mb - 1) else 2 ^ f.signBit - 1
  | .inf n => n.toNat * 2 ^ f.signBit + f.infBits
  | .fin n m e => n.toNat * 2 ^ f.signBit + f.round md m e

/-- R148: a value rounded to an integer and saturated at `bits` bits. -/
def intOut (md : DMode) (bits : Nat) (v : FVal) : Nat :=
  let lim : Int := 2 ^ (bits - 1)
  let i : Int := match v with
    | .nan => 0
    | .inf n => if n then -lim else lim - 1
    | .fin n m e =>
      let k : Int := md.onGrid m e 0
      max (-lim) (min (lim - 1) (if n then -k else k))
  (BitVec.ofInt bits i).toNat

/-- R147: a value written into the output format of a DFMT. -/
def drainOut (dfmt : Nat) (md : DMode) (v : FVal) : Nat :=
  if dfmt = 5 then intOut md 8 v else if dfmt = 6 then intOut md 32 v else (outFmt dfmt).encode md v

/-- R147: the poison output. -/
def poisonOut (dfmt : Nat) : Nat :=
  match dfmt with
  | 0 => 0x7FC00000 | 1 => 0x7FC0 | 2 => 0x7E00 | 3 => 0x7F | 4 => 0x7E | 5 => 0 | 6 => 0
  | _ => 0x7FF8000000000000

/-! ## The generator (R150) -/

/-- R150: the rotation of round `i`. -/
def genRot (i : Nat) : Nat := [16, 42, 12, 31, 16, 32, 24, 21, 39, 5, 25, 43].getD i 0

/-- R150: the rounds from `i`, `n` of them. -/
def genRounds (k0 k1 : Word) : (n i : Nat) → Word → Word → Word
  | 0, _, x0, x1 => x0 ^^^ x1
  | n + 1, i, x0, x1 =>
    let y0 := x0 + x1
    let y1 := x1.rotateLeft (genRot i) ^^^ y0
    if i % 4 = 3 then genRounds k0 k1 n (i + 1) (y0 + k1 + Word.ofNat i) (y1 + k0) else genRounds k0 k1 n (i + 1) y0 y1

/-- R150: gen(seed, r, c, dseq). -/
def gen (seedLo seedHi : Word) (r c : Nat) (dseq : Word) : Word :=
  genRounds seedLo seedHi 12 0 (dseq ^^^ seedLo) (Word.ofNat (0x5356 * 2 ^ 32 + r * 2 ^ 16 + c) ^^^ seedHi)

/-! ## Activation functions in binary32 (R152 to R156) -/

/-- A value rounded to FP32, nearest-even. -/
def r32 (v : FVal) : FVal := fmtS.decode (fmtS.encode .rne v)

def mul32 (a b : FVal) : FVal := r32 (fMul a b)
def add32 (a b : FVal) : FVal := r32 (fAdd .rne a b)
def fma32 (a b c : FVal) : FVal := r32 (fAdd .rne (fMul a b) c)

/-- A positive constant `m × 2^e`. -/
def con (m : Nat) (e : Int) : FVal := .fin false m e

/-- Comparisons with a small integer; a NaN compares false. -/
def geInt (v : FVal) (i : Int) : Bool := match fCompare v (FVal.ofInt i) with | some .lt => false | none => false | _ => true
def ltInt (v : FVal) (i : Int) : Bool := fCompare v (FVal.ofInt i) == some .lt

/-- The integer nearest to a finite value. -/
def nearInt (v : FVal) : Int := match v with | .fin n m e => roundInt .rne n m e | _ => 0

/-- R153: the polynomial of exp2 at `f`. -/
def exp2Poly (f : FVal) : FVal :=
  let p := fma32 (con 10585225 (-36)) f (con 11453439 (-33))
  let p := fma32 p f (con 10327387 (-30))
  let p := fma32 p f (con 14899271 (-28))
  let p := fma32 p f (con 16121328 (-26))
  let p := fma32 p f (con 11629080 (-24))
  fma32 p f (con 1 0)

/-- R153. -/
def exp2F (t : FVal) : FVal :=
  if geInt t 128 then .inf false
  else if ltInt t (-150) then .fin false 0 0
  else
    let n := nearInt t
    r32 ((exp2Poly (add32 t (FVal.ofInt (-n)))).scale n)

/-- R154: a Newton step for 1/d. -/
def newton (d r : FVal) : FVal := fma32 r (fma32 d.negate r (con 1 0)) r

/-- The sign of a value taken off. -/
def FVal.absv : FVal → FVal
  | .nan => .nan
  | .inf _ => .inf false
  | .fin _ m e => .fin false m e

/-- R154. -/
def sigF (z : FVal) : FVal :=
  let u := exp2F (mul32 z.absv (con 12102203 (-23))).negate
  let d := add32 (con 1 0) u
  let r := fma32 (con 15790321 (-25)).negate d (con 11842741 (-23))
  let r := newton d (newton d (newton d r))
  if geInt z 0 then r else mul32 u r

/-- R155. -/
def siluF (x : FVal) : FVal := if x = .inf true then .fin true 0 0 else mul32 x (sigF x)

/-- R156. -/
def geluF (x : FVal) : FVal :=
  if geInt x 10 then x
  else if !(geInt x (-10)) || fCompare x (FVal.ofInt (-10)) == some .eq then .fin true 0 0
  else
    let w := fma32 (con 9577081 (-27)) (mul32 x x) (con 13386282 (-23))
    mul32 x (sigF (mul32 x w))

/-! ## One cell (R145) -/

/-- The optional operands of a drain for one cell (R146). -/
structure DrainArgs where
  xr : Int
  xc : Int
  beta : Option Dy
  lo : Dy
  hi : Dy
  deriving DecidableEq, Repr

/-- R145: the value of a cell before rounding into the output. -/
def drainValue (s : BitVec 128) (α : Int) (a : DrainArgs) (act : Nat) : FVal :=
  let v0 : Dy := ⟨s.toInt, α - 80 + a.xr + a.xc⟩
  let v := match a.beta with
    | some b => v0.add b
    | none => v0
  match act with
  | 1 => (v.max Dy.zero).val
  | 2 => ((v.max a.lo).min a.hi).val
  | 3 => geluF (r32 v.val)
  | 4 => siluF (r32 v.val)
  | 5 => exp2F (r32 v.val)
  | _ => v.val

end Sys2Proof.Machine
end

