-- ==== Sys2Proof/Machine/SaveArea.lean ====
section
/-! DEFINITION. The scalar save areas of a context (R273, R275): their bytes, and the stall that they load. -/

namespace Sys2Proof.Machine

/-- The tag codes of registers `first` to `first + n - 1`, four bits each from bit 0 (R273). -/
def tagsWord (t : Stall) (first : Nat) : (n : Nat) → Nat
  | 0 => 0
  | n + 1 => tagsWord t first n + tagCode (t.reg (first + n)).tag * 16 ^ n

/-- R273: bytes 0x08 to 0xFF of the lower area; LINK is never written. -/
def lowerBytes (t : Stall) (c : Nat) (status : Word) : List Byte :=
  leBytes 8 t.pc.toNat ++ leBytes 8 status.toNat ++
  ((List.range 15).flatMap fun i => leBytes 8 (t.reg (i + 1)).data.toNat) ++
  leBytes 8 (tagsWord t 1 15) ++ List.replicate 96 0 ++ leBytes 8 c

/-- R273: the system registers of the upper area, in its order. -/
def upperRegs (t : Stall) : List Word :=
  [t.cause, t.epc, t.tval, t.tvec, t.tsp, t.scratch.data, t.asid, t.ptbase, t.keyrl, t.keyrh, t.bbase, t.bbound, t.bwlimit]

/-- R273: bytes 0x08 to 0xFF of the upper area. -/
def upperBytes (t : Stall) (c : Nat) : List Byte :=
  ((List.range 16).flatMap fun m => leBytes 8 (t.reg (16 + m)).data.toNat) ++ leBytes 8 (tagsWord t 16 16) ++
  ((upperRegs t).flatMap fun w => leBytes 8 w.toNat) ++ leBytes 8 (c + 65536 + tagCode t.scratch.tag * 2 ^ 20)

/-- An area as it is read: its 256 bytes and the poison of its 16 chunks. -/
structure Area where
  bytes : List Byte
  bad : List Bool
  deriving DecidableEq, Repr

/-- The doubleword at offset `o`. -/
def Area.word (a : Area) (o : Nat) : Word := Word.ofNat (leNat ((a.bytes.drop o).take 8))

/-- Whether the doubleword at offset `o` lies in a poisoned chunk. -/
def Area.poison (a : Area) (o : Nat) : Bool := a.bad.getD (o / 16) false

/-- HDR fields (R273). -/
def Area.hdrCtx (a : Area) : Nat := (a.word 0xF8).bits 9 0
def Area.hdrHalf (a : Area) : Bool := (a.word 0xF8).bit 16

/-- R275: a general register: POISON where its chunk is poisoned, and where its code is reserved (R41). -/
def Area.reg (a : Area) (o code : Nat) : TVal :=
  if a.poison o then ⟨a.word o, .poison⟩ else ⟨a.word o, tagOfCode code⟩

/-- R275: a poisoned PC, STATUS, TAGS or HDR word of a lower area. -/
def Area.lowerBad (a : Area) : Bool := a.poison 0x08 || a.poison 0x10 || a.poison 0x90 || a.poison 0xF8

/-- R275: a poisoned TAGS or HDR word, or system register other than scratch, of an upper area. -/
def Area.upperBad (a : Area) : Bool :=
  a.poison 0x88 || a.poison 0xF8 ||
  [0x90, 0x98, 0xA0, 0xA8, 0xB0, 0xC0, 0xC8, 0xD0, 0xD8, 0xE0, 0xE8, 0xF0].any a.poison

/-- The registers `first` to `first + n - 1` loaded from offset `o`, with their tags from `tags`. -/
def Area.loadRegs (a : Area) (t : Stall) (first o : Nat) (tags : Word) : (n : Nat) → Stall
  | 0 => t
  | n + 1 => (a.loadRegs t first o tags n).setReg (first + n) (a.reg (o + 8 * n) (tags.bits (4 * n + 3) (4 * n)))

/-- R275: the stall after CTXLD.L. -/
def Area.loadLower (a : Area) (t : Stall) : Stall :=
  a.loadRegs { t with pc := a.word 0x08 &&& ~~~3, status := Word.ofNat ((a.word 0x10).bits 3 0) } 1 0x18 (a.word 0x90) 15

/-- R275: the stall after CTXLD.U. The reserved bits of each register stay 0. -/
def Area.loadUpper (a : Area) (t : Stall) : Stall :=
  let t1 := a.loadRegs t 16 0x08 (a.word 0x88) 16
  { t1 with
    cause := a.word 0x90 &&& causeMask, epc := a.word 0x98 &&& ~~~3, tval := a.word 0xA0, tvec := a.word 0xA8 &&& ~~~3,
    tsp := a.word 0xB0, scratch := a.reg 0xB8 ((a.word 0xF8).bits 23 20), asid := a.word 0xC0 &&& 0xFFFF,
    ptbase := a.word 0xC8 &&& 0xFFFFFFFFFE003, keyrl := a.word 0xD0, keyrh := a.word 0xD8,
    bbase := a.word 0xE0 &&& 0xFFFFF000, bbound := a.word 0xE8 &&& 0x1FFFFFFFF, bwlimit := a.word 0xF0 &&& 0xFFFFFFFF }

/-- An area read at its physical address (R277). -/
def State.readArea (s : State) (pa : Nat) (c : Option Nat) : Area × State :=
  (List.range 16).foldl (fun r i =>
    let (bs, bad, s1) := r.2.unitRead (pa + 16 * i) 16 c
    (⟨r.1.bytes ++ bs, r.1.bad ++ [bad]⟩, s1)) (⟨[], []⟩, s)

/-- A word of the upper area of a context that is not resident (R273). -/
def State.savedWord (s : State) (c o : Nat) : Word := Word.ofNat (leNat (s.mem.store.read ((s.ctx c).saveHi + o) 8))

/-- R301: the in-use copies are loaded. -/
def Stall.loadInUse (t : Stall) : Stall :=
  { t with useAsid := BitVec.ofNat 16 (t.asid.bits 15 0), useRoot := t.ptbase.bits 51 13 }

/-- R301: the in-use copies of context `b`, resident in stall `k`, are loaded: an SSYNC or a dispatch. -/
def State.loadInUse (s : State) (b k : Nat) : State :=
  let s1 := s.modStall k Stall.loadInUse
  s1.modCtx b fun e => { e with useAsid := (s1.stall k).useAsid, useRoot := (s1.stall k).useRoot }

/-- R301: the contents of a stall into which context `c` is filled, with the in-use copies that the context had. -/
def State.bindInUse (s : State) (c : Nat) (t : Stall) : Stall :=
  { t with useAsid := (s.ctx c).useAsid, useRoot := (s.ctx c).useRoot }

/-- R301: the in-use ASID of a context, resident or not. -/
def State.asidOf (s : State) (c : Nat) : BitVec 16 :=
  (s.ctx c).useAsid

/-- The translation context of a context, resident or not, in its own mode (R239, R301). -/
def State.xctxOf (s : State) (c : Nat) : XCtx :=
  match (s.ctx c).stall with
  | some k => (s.stall k).xctx
  | none =>
    { asid := (s.ctx c).useAsid, root := (s.ctx c).useRoot,
      keyrl := s.savedWord c 0xD0, keyrh := s.savedWord c 0xD8,
      sys := (Word.ofNat (leNat (s.mem.store.read ((s.ctx c).saveLo + 0x10) 8))).bit 0 }

end Sys2Proof.Machine
end

