-- ==== Sys2Proof/Machine/Sched.lean ====
section
/-! DEFINITION. The scheduler: decisions, switches, alerts, fills, overflows, slices and timers (R256 to R279). -/

namespace Sys2Proof.Machine

/-- The context's EN field (R261). -/
def Ctx.en (c : Ctx) : BitVec 8 := BitVec.ofNat 8 (c.evmask.bits 6 0)

/-- R263: the pending bits that are enabled move to WOKE. -/
def Ctx.consume (c : Ctx) : Ctx := { c with woke := c.pend &&& c.en, pend := c.pend &&& ~~~c.en }

/-- R265: the READY contexts, by number. -/
def State.readyCtxs (s : State) : List Nat := (s.core.ctxs.filter fun p => p.2.mode = .ready).map (·.1)

/-- R265: the lowest-stamp context of a list; the lowest-numbered among equals (DEDUCED, log entry 24). -/
def State.leastRecent (s : State) : List Nat → Option Nat
  | [] => none
  | c :: cs =>
    match s.leastRecent cs with
    | none => some c
    | some b => if (s.ctx b).stamp < (s.ctx c).stamp then some b else some c

/-- R265: the context that a decision chooses. A slice that has expired, or a YIELD, puts the running context behind every
READY one of its priority (R264, R267). -/
def State.best (s : State) : Option Nat :=
  let ready := s.readyCtxs
  let run := match s.curCtx with
    | some n => if (s.ctx n).mode = .running then [n] else []
    | none => []
  match (ready ++ run).map fun c => (s.ctx c).prio.toNat with
  | [] => none
  | p :: ps =>
    let lo := ps.foldl min p
    let rdy := s.leastRecent (ready.filter fun c => (s.ctx c).prio.toNat = lo)
    match run.filter fun c => (s.ctx c).prio.toNat = lo with
    | r :: _ => if s.core.sliceExpired then some (rdy.getD r) else some r
    | [] => rdy

/-- R265, R274: a stall of 0 to 30 is free when no context is resident in it, it is not held and no fill is under way. -/
def State.stallFree (s : State) (k : Nat) : Bool :=
  (s.resident k).isNone && !(s.core.reserve.holds.any fun p => p.1 = k) && !(s.core.fills.any fun f => f.2 = k)

/-- The lowest-numbered free stall. -/
def State.freeStall (s : State) : Option Nat := firstFrom s.stallFree 0 31

/-- R265, R271: a context asks for a stall: the fill of a free one, or an overflow. -/
def State.wantStall (s : State) (c : Nat) : State :=
  if s.core.fills.any fun f => f.1 = c then s
  else match s.freeStall with
    | some k => { s with core := { s.core with fills := s.core.fills ++ [(c, k)] } }
    | none =>
      if s.core.reserve.requests.contains c then s
      else { s with core := { s.core with reserve := { s.core.reserve with requests := s.core.reserve.requests ++ [c] } } }

/-- The scheduler dispatches: not in the stand state, and not after the PWRFAIL_N sequence (R465, R504). -/
def State.dispatching (s : State) : Bool := !s.bridle.stand && !s.power.pfEnded

/-- R255, R265: a context marked LOCK is made resident by the same path, though another is dispatched next. -/
def State.wantLocked (s : State) : State :=
  match s.core.ctxs.find? fun p => p.2.lock && p.2.stall.isNone && p.2.mode = .ready with
  | some p => s.wantStall p.1
  | none => s

/-- R265: decide(). -/
def State.schedule (s : State) : State :=
  let s00 := { s with core := { s.core with decideDue := false, switchTo := none } }
  let s0 := if s.core.disp = .reserve then s00 else s00.wantLocked
  match s.core.disp, s.best with
  | .reserve, _ => s0
  | _, none => s0
  | _, some b =>
    if (s.ctx b).stall.isNone then s0.wantStall b
    else if s.curCtx = some b then { s0 with core := { s0.core with sliceExpired := false } }
    else { s0 with core := { s0.core with switchTo := some b } }

/-- The dispatched context leaves the core and becomes READY; a wait at issue is abandoned (R266, R342). -/
def State.undispatch (s : State) : State :=
  let s1 := match s.curCtx with
    | some n => (s.abandonWait n).modCtx n fun e =>
      { e with mode := if e.mode = CtxMode.running then CtxMode.ready else e.mode }
    | none => s
  { s1 with core := { s1.core with disp := .idle } }

/-- R266, R263, R301: context `b`, resident in stall `k`, is dispatched. -/
def State.dispatch (s : State) (b k : Nat) : State :=
  let s1 := s.undispatch
  let s2 := s1.modCtx b fun e =>
    let e1 := if e.inWait then e.consume else e
    { e1 with mode := .running, stamp := s.now, inWait := false }
  let s3 := s2.loadInUse b k
  ({ s3 with core := { s3.core with disp := .ctx b, switchTo := none, dispatchedAt := s.now, sliceExpired := false } }).pmcAdd 2 1

/-- R265. -/
def execSchedDecide (s : State) : Out := eventStep (s.core.decideDue && s.dispatching) State.schedule s

/-- R451, R458: an error in the entry of context `c`, or in the control registers of its stall, stops it with FILL_FAULT: the
record of the error and that of the stop. -/
def State.arrayStop (s : State) (c : Nat) (e : Ecc) : State :=
  if (s.ctx c).started then
    let stall := (s.ctx c).stall.getD 0
    (s.record (.ecc e 0x102 4 5 (some c))).stopByError c 0x83 { ErrRec.mk0 0x83 4 5 (some c) with
      unit := BitVec.ofNat 16 stall, addr := Word.ofNat (s.ctx c).saveLo }
  else s

/-- R451: what an error in the stall array or in the context state array does: a corrected one is recorded; an uncorrectable
one in a general register leaves it POISON with its data bits, for its next read to meet; one elsewhere stops the context,
or, in the reserve stall, is a fault of it (DESIGN CHOICE, log entry 92). -/
def State.stallError (s : State) : StallErr → State
  | .none => s
  | .corrected e => s.record (.ecc e 0x101 4 0 none)
  | .register k r e =>
    if r = 0 then s
    else s.modStall k.toNat fun t =>
      let t1 := t.setReg r.toNat ⟨(t.reg r.toNat).data, .poison⟩
      { t1 with upset := t1.upset.set r.toNat e }
  | .control k e =>
    if k.toNat = 31 then
      if s.core.reserve.setUp then (s.record (.ecc e 0x102 4 6 none)).reserveFault 0x83 else s
    else match s.resident k.toNat with
      | some c => s.arrayStop c e
      | none => s
  | .entry c e => s.arrayStop c.toNat e

/-- R266: the switch that the last decision chose. -/
def State.switch (s : State) : State :=
  match s.core.disp, s.core.switchTo with
  | .reserve, _ => s
  | _, none => s
  | _, some b =>
    match (s.ctx b).stall, (s.ctx b).mode with
    | some k, .ready => s.dispatch b k
    | _, _ => s

/-- R266: an instruction boundary: an error of the arrays that the block has met takes effect (R451; DESIGN CHOICE, log entry
92), and the switch that the last decision chose is made. -/
def execContextSwitch (err : StallErr) (s : State) : Out :=
  eventStep s.dispatching (fun s => (s.stallError err).switch) s

/-- R269: whether an alert is due for the dispatched context. -/
def State.alertDue (s : State) (n : Nat) : Bool := s.cur.status.bit 2 && (s.ctx n).alert.bits 3 0 ≠ 0

/-- R269. -/
def execAlertDelivery (s : State) : Out :=
  eventStep true (fun s =>
    match s.curCtx, s.curStall with
    | some n, some k =>
      if s.alertDue n then
        s.trapEntry n k 0x81 0 .none true (Word.ofNat ((s.ctx n).alert.bits 31 0)) s.cur.pc
      else s
    | _, _ => s) s

/-- R275, R277: whether the two areas may be filled for context `c`. -/
def fillOk (lo hi : Area) (c : Nat) : Bool :=
  !lo.lowerBad && !hi.upperBad && lo.hdrCtx = c && hi.hdrCtx = c && !lo.hdrHalf && hi.hdrHalf

/-- R277, R275: a fill completes: the context, which must not have become resident meanwhile, is bound to the stall, or stops
with FILL_FAULT and the stall becomes free. -/
def State.fillStall (s : State) (c k : Nat) : State :=
  let e := s.ctx c
  let (lo, s1) := s.readArea e.saveLo (some c)
  let (hi, s2) := s1.readArea e.saveHi (some c)
  let s3 := { s2 with core := { s2.core with fills := s2.core.fills.filter fun f => f ≠ (c, k) } }
  if fillOk lo hi c && e.stall.isNone then
    (((s3.setStall k (s3.bindInUse c (hi.loadUpper (lo.loadLower Stall.fresh)))).modCtx c fun e => { e with stall := some k })).trigger
  else
    s3.stopByError c 0x83 { ErrRec.mk0 0x83 0x10 5 (some c) with
      unit := BitVec.ofNat 16 k,
      addr := Word.ofNat (if lo.lowerBad || lo.hdrCtx ≠ c || lo.hdrHalf || e.stall.isSome then e.saveLo else e.saveHi) }

/-- R277: the fill that began first completes. -/
def execStallFill (s : State) : Out :=
  eventStep true (fun s => match s.core.fills with
    | (c, k) :: _ => s.fillStall c k
    | [] => s) s

/-- R272: the victim: the resident context, not marked LOCK, whose last-dispatch stamp is least recent, with its stall. -/
def State.victim (s : State) : Option (Nat × Nat) :=
  match s.leastRecent ((s.core.ctxs.filter fun p => p.2.stall.isSome && !p.2.lock).map (·.1)) with
  | some v => (s.ctx v).stall.map fun k => (v, k)
  | none => none

/-- R271: g2 and g3: the victim's stall and the victim. Where every resident context is marked LOCK there is no victim, and they
hold free values (DESIGN CHOICE, log entry 118). -/
def State.victimArgs (s : State) : (Word × Word) × State :=
  match s.victim with
  | some (v, k) => ((Word.ofNat k, Word.ofNat v), s)
  | none => ((Config.freeWord s.free, Config.freeWord (s.free + 1)), { s with free := s.free + 2 })

/-- R271: g1 to g4 of the reserve stall for the overflow of context `c`. -/
def State.overflowArgs (s : State) (c : Nat) : State :=
  let more := (s.core.ctxs.filter fun p => p.2.mode = .ready && p.2.stall.isNone && p.1 ≠ c).length
  let (a, s0) := s.victimArgs
  let s1 := s0.modStall 31 fun t =>
    (((t.setReg 1 (TVal.int (Word.ofNat c))).setReg 2 (TVal.int a.1)).setReg 3 (TVal.int a.2)).setReg 4 (TVal.int (Word.ofNat more))
  { s1 with core := { s1.core with reserve := { s1.core.reserve with current := some c } } }

/-- R250, R271, R310: the reserve stall is entered at its tvec with a cause code, in system mode. -/
def State.enterReserve (s : State) (code : Nat) : State :=
  let s1 := s.undispatch
  let s2 := s1.modStall 31 fun t =>
    ({ t with pc := t.tvec, cause := Word.ofNat code, tval := 0, status := t.status ||| 1 }).loadInUse
  { s2 with core := { s2.core with disp := .reserve, switchTo := none,
                                   reserve := { s2.core.reserve with stopped := false, holds := [] } } }

/-- R276: requests whose context became resident, or was stopped, are withdrawn. -/
def State.liveRequests (s : State) : List Nat :=
  s.core.reserve.requests.filter fun c => (s.ctx c).stall.isNone && (s.ctx c).started

/-- R271, R278: of the requests that stand the oldest is taken, whichever context is by then next to be dispatched (DESIGN CHOICE,
log entry 119). A reserve stall that an error stopped is re-entered so (DEDUCED, log entry 25). -/
def execStallOverflow (s : State) : Out :=
  eventStep (s.core.reserve.setUp && s.dispatching && s.core.disp ≠ .reserve) (fun s =>
    match s.liveRequests with
    | [] => { s with core := { s.core with reserve := { s.core.reserve with requests := [] } } }
    | c :: cs =>
      let s1 := { s with core := { s.core with reserve := { s.core.reserve with requests := cs } } }
      ((s1.enterReserve 0x80).overflowArgs c).pmcAdd 3 1) s

/-- R267: the dispatched context's slice has expired. -/
def execSliceExpiry (s : State) : Out :=
  eventStep true (fun s =>
    match s.curCtx with
    | some n =>
      let slice := (s.cfgAct 2 0).toNat
      if slice ≠ 0 ∧ slice ≤ s.now - s.core.dispatchedAt ∧
          (s.readyCtxs.any fun c => (s.ctx c).prio = (s.ctx n).prio) then
        ({ s with core := { s.core with sliceExpired := true } }).trigger
      else s
    | none => s) s

/-- R261: whether the timer condition of a context holds. -/
def State.timerDue (s : State) (c : Nat) : Bool :=
  let m := (s.ctx c).evmask
  m.bit 8 && decide ((s.gcount.bits 39 0 + 2 ^ 40 - m.bits 55 16) % 2 ^ 40 < 2 ^ 39)

/-- R261: the timer fires: TARM is cleared and TIMER is raised. -/
def execTimerFire (c : BitVec 10) (s : State) : Out :=
  eventStep (s.timerDue c.toNat && (s.ctx c.toNat).started) (fun s =>
    (s.modCtx c.toNat fun e => { e with evmask := e.evmask.putBit 8 false }).raiseEvent c.toNat 1) s

end Sys2Proof.Machine
end

