-- ==== Sys2Proof/Machine/System.lean ====
section
/-! DEFINITION. Fences, system registers, the scheduling group and TRAP (R55 to R58, R78 to R83, R263, R264, R276, R300 to
R302). -/

namespace Sys2Proof.Machine

/-! ## Fences (R78, R328) -/

/-- Whether the context's accepted tile instructions have all completed (R328, R344). -/
def State.tileIdle (s : State) (c : Option Nat) : Bool :=
  match c.bind s.sadOf with
  | some i => (s.sad i).queue.isEmpty
  | none => true

/-- A wait at issue that names no range. -/
def waitM {α : Type} (why : WaitWhy) : M α := throw (.wait why 0 .none 0)

def execFence (d a b : Reg) (s : State) : Out :=
  coreStep (.fence d a b) (do
    let s ← get
    if !s.tileIdle s.curCtx then waitM .earlier
    pure none) s

/-- R328: every earlier scalar store of a core that executes in order has been performed. -/
def execFenceSt (d a b : Reg) (s : State) : Out := coreStep (.fenceSt d a b) (pure none) s

/-- R79: the fetched word comes with each command, so nothing is held to be discarded. -/
def execIfence (d a b : Reg) (s : State) : Out := coreStep (.ifence d a b) (pure none) s

/-- R302 step 3: the entries of a TLB and of its walk cache that an invalidation leaves. -/
def Tlb.invalidate (t : Tlb) (inv : Nat) (asid : BitVec 16) : Tlb :=
  let keep : TlbEntry → Bool := fun e =>
    match inv with
    | 1 => e.global || e.asid ≠ asid
    | 2 => false
    | 3 => !e.global
    | _ => true
  { t with
    entries := t.entries.filter fun p => keep p.2
    walk := if inv = 0 then t.walk else if inv = 1 then t.walk.filter fun e => e.asid ≠ asid else [] }

/-- R302 step 4: whether a context in scope still uses a translation. -/
def State.usesTranslation (s : State) (c : Nat) : Bool :=
  (match s.sadOf c with
    | some i => !(s.sad i).queue.isEmpty
    | none => false) ||
  (match s.runOf c with
    | some i => ((s.run i).map fun r => !r.pins.isEmpty).getD false
    | none => false) ||
  (s.streams.any fun p => p.2.ctx = c && (p.2.act.isSome || p.2.shadow.isSome)) ||
  (s.windows.any fun p => s.wOwner p.1 = c && p.2.st ≠ .closed && p.2.wtgt.bit 0)

/-- R302 step 4: whether an invalidation is complete. -/
def State.invDone (s : State) (inv : Nat) (asid : BitVec 16) : Bool :=
  s.core.ctxs.all fun p =>
    p.2.mode = .free || (inv = 1 && s.asidOf p.1 ≠ asid) || !s.usesTranslation p.1

/-- R302. -/
def execSsync (d a b : Reg) (s : State) : Out :=
  coreStep (.ssync d a b) (do
    requireSystem (.ssync d a b)
    let s ← get
    if !s.tileIdle s.curCtx then waitM .earlier
    let s1 := match s.curCtx with
      | some c => s.loadInUse c (s.curStall.getD 31)
      | none => s.modCur Stall.loadInUse
    let inv := s1.cur.ptbase.bits 1 0
    let asid := s1.cur.useAsid
    set { s1 with core := { s1.core with tlb := s1.core.tlb.invalidate inv asid, ttlb := s1.core.ttlb.invalidate inv asid } }
    if inv ≠ 0 && !s1.invDone inv asid then waitM .earlier
    modify fun s => s.modCur fun t => { t with ptbase := t.ptbase &&& ~~~3 }
    pure none) s

/-! ## System registers (R55 to R58) -/

/-- What a mode may do with a register (R55). -/
inductive Access where
  | no | ro | rw
  deriving DecidableEq, Repr

/-- R55: the tag of each implemented register, with its service and system access; none for a reserved number. -/
def sysRegs (n : Nat) : Option (Tag × Access × Access) :=
  match n with
  | 0x000 => some (.int, .ro, .ro)
  | 0x001 => some (.int, .ro, .rw)
  | 0x002 => some (.int, .no, .rw)
  | 0x003 => some (.vaddr, .no, .rw)
  | 0x004 => some (.int, .no, .rw)
  | 0x005 => some (.vaddr, .no, .rw)
  | 0x006 => some (.vaddr, .no, .rw)
  | 0x007 => some (.none, .no, .rw)
  | 0x010 => some (.int, .ro, .ro)
  | 0x011 => some (.int, .ro, .ro)
  | 0x020 => some (.int, .no, .rw)
  | 0x021 => some (.int, .no, .rw)
  | 0x022 => some (.int, .ro, .rw)
  | 0x023 => some (.int, .ro, .rw)
  | 0x030 => some (.int, .no, .rw)
  | 0x031 => some (.int, .no, .rw)
  | 0x032 => some (.int, .ro, .rw)
  | 0x040 => some (.int, .ro, .rw)
  | 0x041 => some (.int, .ro, .rw)
  | 0x042 => some (.int, .ro, .rw)
  | 0x050 => some (.vaddr, .no, .rw)
  | _ => none

/-- R57: coreid. In the reserve stall, which holds no context, CTX is a free value (DESIGN CHOICE, log entry 12). -/
def State.coreid (s : State) : Word :=
  Word.ofNat (3 + (s.curStall.getD 0) * 2 ^ 8) +
    Word.ofNat ((match s.curCtx with | some n => n | none => (Config.freeWord s.free).toNat % 1024) * 2 ^ 16)

/-- R260: the prio register. -/
def Ctx.prioWord (c : Ctx) : Word :=
  Word.ofNat (c.prio.toNat + c.woke.toNat * 2 ^ 8 + c.pend.toNat * 2 ^ 16 + c.runix.toNat * 2 ^ 24)

/-- The data bits of an implemented register. The registers of the context state array are free values in the reserve
stall (DESIGN CHOICE, log entry 12). -/
def State.sysRead (s : State) (n : Nat) : TVal :=
  let t := s.cur
  let i := TVal.int
  let own := fun (f : Ctx → Word) => match s.curCtx with
    | some c => f (s.ctx c)
    | none => Config.freeWord s.free
  match n with
  | 0x000 => i s.coreid
  | 0x001 => i (s.statusWord t s.curCtx)
  | 0x002 => i t.cause
  | 0x003 => ⟨t.epc, .vaddr⟩
  | 0x004 => i t.tval
  | 0x005 => ⟨t.tvec, .vaddr⟩
  | 0x006 => ⟨t.tsp, .vaddr⟩
  | 0x007 => t.scratch
  | 0x010 => i (Word.ofNat s.now)
  | 0x011 => i s.gcount
  | 0x020 => i t.asid
  | 0x021 => i t.ptbase
  | 0x022 => i t.keyrl
  | 0x023 => i t.keyrh
  | 0x030 => i t.bbase
  | 0x031 => i t.bbound
  | 0x032 => i t.bwlimit
  | 0x040 => i (own Ctx.prioWord)
  | 0x041 => i (own fun c => c.evmask)
  | 0x042 => i (own fun c => c.alert)
  | 0x050 => ⟨own fun c => c.tsave, .vaddr⟩
  | _ => i 0

/-- Whether a register lies in the context state array or is coreid, which the reserve stall does not have. -/
def ownReg (n : Nat) : Bool := n = 0 || 0x40 ≤ n

/-- R57: a write of a register of the stall; bits that a layout reserves keep reading 0. -/
def Stall.sysWrite (t : Stall) (n : Nat) (v : TVal) : Stall :=
  let w := v.data
  match n with
  | 0x001 => { t with status := (t.status &&& 1) ||| (w &&& 0xE) }
  | 0x002 => { t with cause := w &&& causeMask }
  | 0x003 => { t with epc := w &&& ~~~3 }
  | 0x004 => { t with tval := w }
  | 0x005 => { t with tvec := w &&& ~~~3 }
  | 0x006 => { t with tsp := w }
  | 0x007 => { t with scratch := v }
  | 0x020 => { t with asid := w &&& 0xFFFF }
  | 0x021 => { t with ptbase := w &&& 0xFFFFFFFFFE003 }
  | 0x022 => { t with keyrl := w }
  | 0x023 => { t with keyrh := w }
  | 0x030 => { t with bbase := w &&& 0xFFFFF000 }
  | 0x031 => { t with bbound := w &&& 0x1FFFFFFFF }
  | 0x032 => { t with bwlimit := w &&& 0xFFFFFFFF }
  | _ => t

/-- R260 to R262, R280: a write of a register of the context state array. -/
def Ctx.sysWrite (c : Ctx) (n : Nat) (w : Word) : Ctx :=
  match n with
  | 0x040 => { c with prio := BitVec.ofNat 3 w.toNat }
  | 0x041 => { c with evmask := w &&& 0x00FFFFFFFFFF017F }
  | 0x042 => { c with alert := c.alert &&& ~~~(w &&& 0xF) }
  | 0x050 => { c with tsave := w &&& 0x01FFFFFFFFFFFFFF }
  | _ => c

/-- R56: SYSREG_UNDEF, then SYSREG_PRIV. -/
def checkSysReg (n : Nat) (write : Bool) : M Unit := do
  match sysRegs n with
  | none => trapM 0x44 (Word.ofNat n)
  | some (_, svc, sys) =>
    let acc := if (← get).cur.sysMode then sys else svc
    if acc = .no || (write && acc = .ro) then trapM 0x43 (Word.ofNat n)

/-- R81. -/
def execSrd (d a : Reg) (n : BitVec 15) (s : State) : Out :=
  coreStep (.srd d a n) (do
    checkSysReg n.toNat false
    let s ← get
    let v := s.sysRead n.toNat
    let s1 := if s.curCtx.isNone && ownReg n.toNat then { s with free := s.free + 1 } else s
    set (s1.setReg d v)
    pure none) s

/-- R56: the tags that SWR of a register accepts: its own; any but NONE for scratch; any but NONE and POISON for a
reserved number. -/
def swrAccepts (n : Nat) : Tag → Bool :=
  match sysRegs n with
  | none => fun t => t ≠ .none && t ≠ .poison
  | some (t, _, _) => if n = 7 then fun u => u ≠ .none else only t

/-- R81, R57: SWR takes effect from the next instruction; a write of PRIO triggers a decision (R260). The reserve stall holds
no context: a write there of prio, evmask, alert or tsave has no effect (DESIGN CHOICE, log entry 12). -/
def execSwr (d a : Reg) (n : BitVec 15) (s : State) : Out :=
  coreStep (.swr d a n) (do
    let v := (← get).reg a
    checkTags [⟨2, v, swrAccepts n.toNat⟩]
    checkSysReg n.toNat true
    if n.toNat < 0x40 then modify fun s => s.modCur fun t => t.sysWrite n.toNat v
    else
      let s ← get
      match s.curCtx with
      | some c => do
        set (s.modCtx c fun e => e.sysWrite n.toNat v.data)
        if n.toNat = 0x40 then modify State.trigger
      | none => pure ()
    pure none) s

/-- R300: the rights of 16 keys replaced in one step. -/
def Stall.keysw (t : Stall) (w : Word) : Stall :=
  let r := w.bits 63 32
  match w.bits 1 0 with
  | 0 => { t with keyrl := t.keyrl.putBits 31 0 r }
  | 1 => { t with keyrl := t.keyrl.putBits 63 32 r }
  | 2 => { t with keyrh := t.keyrh.putBits 31 0 r }
  | _ => { t with keyrh := t.keyrh.putBits 63 32 r }

/-- R300. An operand of any other tag than NONE and INT, POISON among them, takes TAG_MISMATCH (R43; DEDUCED, log entry 27). -/
def execKeysw (d a b : Reg) (s : State) : Out :=
  coreStep (.keysw d a b) (do
    let v := (← get).reg a
    checkNone [⟨2, v, only .int⟩]
    checkAccepted [⟨2, v, only .int⟩]
    modify fun s => s.modCur fun t => t.keysw v.data
    pure none) s

/-! ## Traps and scheduling (R82, R83, R91, R263, R264, R276) -/

/-- R83: TRAP takes the synchronous trap TRAP with tval = imm zero-extended. With a fetched word that no row spells it takes
ILLEGAL at issue (R61); a word that a row spells is that row's command, and not this one's. -/
def execTrap (d a : Reg) (imm : BitVec 15) (word : Option Half) (s : State) : Out :=
  if (Instr.trap d a imm word).spells then coreStep (.trap d a imm word) (trapM 4 (imm.zeroExtend 64)) s else .next s

/-- R91. -/
def execTret (d a b : Reg) (s : State) : Out :=
  coreStep (.tret d a b) (do
    requireSystem (.tret d a b)
    trapReturn) s

/-- R263: WAIT of a context. -/
def waitContext (i : Instr) (c : Nat) : M (Option Word) := do
  let s ← get
  let e := s.ctx c
  if (e.pend &&& e.en) ≠ 0 then set (s.modCtx c Ctx.consume)
  else if e.en = 0 && !e.evmask.bit 8 then trapM 0x82 (insnWord i)
  else
    let s1 := s.modCtx c fun e => { e with mode := .waiting, inWait := true }
    set ({ s1 with core := { s1.core with disp := .idle } }).trigger
  pure none

/-- R276: WAIT of the reserve stall ends the overflow. The handler goes on with another context that is next to be
dispatched and not resident; otherwise the reserve stall is no longer dispatched. -/
def waitReserve : M (Option Word) := do
  let s ← get
  let st := s.core.reserve.holds.foldl (fun t p => if (s.resident p.1).isNone then Tbl.del t p.1 else t) s.core.stalls
  let s1 := { s with core := { s.core with stalls := st, reserve := { s.core.reserve with holds := [], current := none } } }
  let s2 := { s1 with core := { s1.core with reserve := { s1.core.reserve with requests := s1.liveRequests } } }
  let next := match s2.best with
    | some b => if (s2.ctx b).stall.isNone then some b else none
    | none => none
  match next with
  | some c =>
    let s3 := { s2 with core := { s2.core with reserve := { s2.core.reserve with
      requests := s2.core.reserve.requests.filter (· ≠ c) } } }
    set ((s3.overflowArgs c).pmcAdd 3 1)
  | none => set ({ s2 with core := { s2.core with disp := .idle } }).trigger
  pure none

def execWait (d a b : Reg) (s : State) : Out :=
  coreStep (.wait d a b) (do
    match (← get).curCtx with
    | some c => waitContext (.wait d a b) c
    | none => waitReserve) s

/-- R264: the context goes behind every READY context of its priority, and a decision follows. -/
def execYieldOp (d a b : Reg) (s : State) : Out :=
  coreStep (.yieldOp d a b) (do
    let s ← get
    match s.curCtx with
    | some c =>
      let s1 := s.modCtx c fun e => { e with stamp := s.now }
      set ({ s1 with core := { s1.core with sliceExpired := true } }).trigger
    | none => pure ()
    pure none) s

end Sys2Proof.Machine
end

