-- ==== Sys2Proof/Machine/Stream.lean ====
section
/-! DEFINITION. Declared ranges, stream instructions, and what the stream engines and the range-check port report (R333 to
R359). -/

namespace Sys2Proof.Machine

/-! ## Declared ranges (R341, R344, R346) -/

/-- Two intervals share a byte. -/
def overlaps (lo1 hi1 lo2 hi2 : Nat) : Bool := decide (lo1 < hi2) && decide (lo2 < hi1)

/-- R341: the new range is a write range over any entry, or a read range over a write entry. -/
def Ctx.rangeClash (e : Ctx) (off n : Nat) (write : Bool) : Bool :=
  e.ranges.any fun p => overlaps off (off + n) p.2.off (p.2.off + p.2.len) && (write || p.2.write)

/-- R341: the lowest free entry of the 64. -/
def Ctx.freeRange (e : Ctx) : Option Nat := firstFrom (fun i => !(e.ranges.any fun p => p.1 = i)) 0 64

/-- R341: the range is recorded in entry `i` and its acquire is sent. -/
def State.declare (s : State) (c i off n : Nat) (baddr : Nat) (write consume : Bool) : State :=
  let (g, tag, b) := s.buf.acquire off (off + n) write (.entry c i)
  let r : RangeEntry :=
    { off := off, len := n, baddr := baddr, write := write, consume := consume, granted := g, tag := tag }
  ({ s with buf := b }).modCtx c fun e => { e with ranges := e.ranges.set i r }

/-- R341: BDECL. The reserve stall has no context and no range entries (DEDUCED, log entry 30). -/
def execBdecl (d a b : Reg) (s : State) : Out :=
  coreStep (.bdecl d a b) (do
    let s ← get
    let x := s.reg a
    let y := s.reg b
    checkTags [⟨2, x, only .baddr⟩, ⟨3, y, only .int⟩]
    let n := y.data.bits 31 0
    let write := y.data.bit 32
    let consume := y.data.bit 33
    if y.data.bits 63 34 ≠ 0 || n = 0 || (write && consume) then throw (.trap 0x35 3 .int y.data)
    if x.data.bits 3 0 ≠ 0 then throw (.trap 0x31 2 .baddr x.data)
    if n % 16 ≠ 0 then throw (.trap 0x31 3 .int (Word.ofNat n))
    if !s.cur.baddrOk x.data n then throw (.trap 0x30 2 .baddr x.data)
    match s.curCtx with
    | none => set (s.setReg d (TVal.int 0x120))
    | some c =>
      let off := s.cur.relocate x.data
      if (s.ctx c).rangeClash off n write then set (s.setReg d (TVal.int 0x121))
      else
        match (s.ctx c).freeRange with
        | none => set (s.setReg d (TVal.int 0x120))
        | some i => set ((s.declare c i off n x.data.toNat write consume).setReg d (TVal.int (Word.ofNat i)))
    pure none) s

/-- R346: the entry number of BREL and BQRY. -/
def entryOperand (a : Reg) : M Nat := do
  let x := (← get).reg a
  checkTags [⟨2, x, only .int⟩]
  if 63 < x.data.toNat then throw (.trap 0x35 2 .int x.data)
  pure x.data.toNat

/-- Range entry `i` of a context. -/
def Ctx.range (e : Ctx) (i : Nat) : Option RangeEntry := (e.ranges.find? fun p => p.1 = i).map (·.2)

/-- R344: the release of an entry. -/
def State.releaseEntry (s : State) (c i : Nat) : State :=
  match (s.ctx c).range i with
  | none => s
  | some r =>
    ({ s with buf := s.buf.drop r.off (r.off + r.len) r.write r.granted r.consume false r.tag }).modCtx c
      fun e => { e with ranges := e.ranges.del i }

/-- R344: BREL waits for the context's accepted tile instructions. -/
def execBrel (d a b : Reg) (s : State) : Out :=
  coreStep (.brel d a b) (do
    let i ← entryOperand a
    let s ← get
    match s.curCtx with
    | none => pure ()
    | some c => do
      if ((s.ctx c).range i).isSome && !s.tileIdle (some c) then waitM .release
      set (s.releaseEntry c i)
    pure none) s

/-- R346: the word of BQRY. -/
def RangeEntry.word (r : Option RangeEntry) : Word :=
  match r with
  | none => 0
  | some r => Word.ofNat ((if r.granted then 2 else 1) + r.write.toNat * 4 + r.consume.toNat * 8)

def execBqry (d a b : Reg) (s : State) : Out :=
  coreStep (.bqry d a b) (do
    let i ← entryOperand a
    let s ← get
    let w := match s.curCtx with
      | some c => RangeEntry.word ((s.ctx c).range i)
      | none => 0
    set (s.setReg d (TVal.int w))
    pure none) s

/-! ## Descriptors (R349, R350) -/

/-- The low `n` bytes from offset `o` of a descriptor, as a number. -/
def desc (bs : List Byte) (o n : Nat) : Nat := leNat ((bs.drop o).take n)

/-- R349, R350 step 2: a reserved value or a range violation in the fields. -/
def descBad (bs : List Byte) : Bool :=
  let kind := desc bs 0 4 % 8
  let gs := kind = 2 || kind = 3
  let tl := desc bs 4 1
  decide (3 < kind) || decide (64 ≤ desc bs 0 4) || desc bs 5 3 ≠ 0 ||
  (desc bs 0 4 / 32 % 2 = 1 && kind ≠ 1 && kind ≠ 3) ||
  (if gs then decide (tl < 12) || decide (56 < tl) else tl ≠ 0) ||
  decide (desc bs 0x18 4 < 16) || decide (2 ^ 24 < desc bs 0x18 4) ||
  decide (desc bs 0x1C 4 < 1) || decide (2 ^ 24 < desc bs 0x1C 4) || (!gs && desc bs 0x28 8 ≠ 0)

/-- R350 step 3: the fields that must be multiples of 16, in the order of the rule. -/
def descAligned (bs : List Byte) : List Nat :=
  [desc bs 0x10 4, desc bs 0x14 4, desc bs 0x18 4, desc bs 0x20 8, desc bs 0x08 8, desc bs 0x28 8, desc bs 0x30 8]

/-- R350 step 5: a memory footprint of `n` bytes from `va` is translated through the tile TLB and lies in one MEMORY page.
Answers the physical address of its first byte. -/
def streamFoot (kind : Kind) (va : Int) (n : Nat) : M Nat := do
  let w : Word := BitVec.ofInt 64 va
  let (e, pa) ← translateCur kind true w
  let v := w.bits 56 0
  if v % 2 ^ e.size + n > 2 ^ e.size then
    trapM 0x27 (xlateTval (Word.ofNat ((v / 2 ^ e.size + 1) * 2 ^ e.size)) e.level kind true)
  if !(← get).allMemory pa n then trapM 0x27 (xlateTval w e.level kind true)
  pure pa

/-- The descriptor at the address in `a`, checked and translated (R348, R350). -/
def readDescriptor (av : Word) : M StreamD := do
  if av.bits 5 0 ≠ 0 then throw (.trap 0x31 2 .vaddr av)
  let ps ← translateParts 1 av [(0, 64)]
  let s ← get
  if s.anyDevice ps then trapM 6 av
  let (g, s1) := readParts s.curCtx ps s
  set (s1.poisonIn g.port.1 g.port.2 g.portChunks s.curCtx)
  let bs := g.bytes
  if descBad bs then throw (.trap 0x35 2 .vaddr av)
  match (descAligned bs).find? fun v => v % 16 ≠ 0 with
  | some v => throw (.trap 0x31 2 .vaddr (Word.ofNat v))
  | none => pure ()
  let kind := desc bs 0 4 % 8
  let rows := desc bs 0x1C 4
  let n := desc bs 0x18 4
  let bstride := (BitVec.ofNat 32 (desc bs 0x14 4)).toInt
  let mstride := (BitVec.ofNat 64 (desc bs 0x20 8)).toInt
  let bspan : Int := (rows - 1 : Nat) * bstride
  let blo : Int := desc bs 0x10 4 + min 0 bspan
  let blen := bspan.natAbs + n
  if blo < 0 || !s1.cur.baddrOk (BitVec.ofInt 64 blo) blen then throw (.trap 0x30 2 .vaddr (BitVec.ofInt 64 blo))
  let tbl := kind = 2 || kind = 3
  let mspan : Int := (rows - 1 : Nat) * mstride
  let memva : Int := desc bs 0x08 8
  let mlo : Int := if tbl then memva else memva + min 0 mspan
  let mlen := if tbl then 2 ^ desc bs 4 1 else mspan.natAbs + n
  let mpa ← streamFoot (if kind = 0 || kind = 2 then 1 else 2) mlo mlen
  let ipa ← if tbl then streamFoot 1 (desc bs 0x28 8) (4 * rows) else pure 0
  let statva := desc bs 0x30 8
  let spa ← if statva = 0 then pure none else do
    let p ← streamFoot 2 statva 16
    pure (some p)
  pure { kind := BitVec.ofNat 3 kind, flow := desc bs 0 4 / 8 % 2 = 1, notify := desc bs 0 4 / 16 % 2 = 1,
         consume := desc bs 0 4 / 32 % 2 = 1, bufOff := s1.cur.bbase.bits 31 12 * 4096 + desc bs 0x10 4,
         bstride := bstride, rowLen := n, rows := rows, memPa := mpa + (memva - mlo).toNat, mstride := mstride,
         tlog2 := desc bs 4 1, idxPa := ipa, statPa := spa, statVa := Word.ofNat statva,
         user := Word.ofNat (desc bs 0x38 8), granted := false, rowsDone := 0, pchunks := 0, firstBad := 0,
         badRows := 0, cancel := false }

/-! ## Stream instructions (R346 to R348, R353 to R355) -/

/-- R347: the handle of a slot's descriptor. -/
def handleWord (eng slot : Nat) (gen : BitVec 8) (c : Nat) : Word :=
  Word.ofNat (eng + slot * 16 + gen.toNat * 256 + c * 65536)

/-- R348: whether an engine is present. -/
def State.enginePresent (s : State) (eng : Nat) : Bool := s.boot.straps.stePresent.getLsbD eng

/-- R348: a slot is free when it holds neither an active descriptor nor a shadow. -/
def StreamSlot.free (t : StreamSlot) : Bool := t.act.isNone && t.shadow.isNone

/-- R348: the lowest free slot of an engine. -/
def State.freeSlot (s : State) (eng : Nat) : Option Nat := firstFrom (fun i => (s.stream (eng * 8 + i)).free) 0 6

/-- R352: whether a context has a flow-mode descriptor active. -/
def State.flowActive (s : State) (c : Nat) : Bool :=
  s.streams.any fun p => p.2.ctx = c && (p.2.act.map (·.flow)).getD false

/-- R352: a flow-mode descriptor becomes active: the count of a context without one goes on from now. -/
def State.flowStarts (s : State) (c : Nat) (d : StreamD) : State :=
  if d.flow && !s.flowActive c then s.modCtx c fun e => { e with flowSince := s.now } else s

/-- R352: the count of a context, in ACLK, while a flow-mode descriptor of it is active. -/
def State.flowTime (s : State) (c : Nat) : Nat := (s.ctx c).flowCount + (aclkOf s.now - aclkOf (s.ctx c).flowSince)

/-- R352: a flow-mode descriptor of a context has ended; with none left active, the count stands still. -/
def State.flowEnds (s : State) (c : Nat) (d : StreamD) : State :=
  if d.flow && !s.flowActive c then s.modCtx c fun e => { e with flowCount := s.flowTime c } else s

/-- R348: the slot is allocated for context `c` and the descriptor is sent. -/
def State.armSlot (s : State) (c eng slot : Nat) (d : StreamD) : Word × State :=
  let k := eng * 8 + slot
  let gen := (s.stream k).gen + 1
  (handleWord eng slot gen c,
   ((s.flowStarts c d).setStream k { gen := gen, ctx := c, act := some d, shadow := none }).engineAcquire k)

/-- R348. In the reserve stall, which is no context, no slot can be allocated (DEDUCED, log entry 30). -/
def execSarm (d a b : Reg) (s : State) : Out :=
  coreStep (.sarm d a b) (do
    let s ← get
    let x := s.reg a
    let y := s.reg b
    checkTags [⟨2, x, only .vaddr⟩, ⟨3, y, only .int⟩]
    if 15 < y.data.toNat then throw (.trap 0x35 3 .int y.data)
    let ds ← readDescriptor x.data
    let s ← get
    let eng := y.data.toNat
    if !s.enginePresent eng then set (s.setReg d (TVal.int 0x102))
    else
      match s.curCtx, s.freeSlot eng with
      | some c, some slot =>
        let (h, s1) := s.armSlot c eng slot ds
        set (s1.setReg d ⟨h, .sdesc⟩)
      | _, _ => set (s.setReg d (TVal.int 0x101))
    pure none) s

/-- R347: a handle that names a slot of the issuing context. -/
def State.handleOk (s : State) (h : Word) : Bool :=
  s.curCtx = some (h.bits 25 16) && s.enginePresent (h.bits 3 0) && decide (h.bits 6 4 < 6) && !h.bit 7 && h.bits 63 26 = 0

/-- The slot key of a handle. -/
def handleKey (h : Word) : Nat := h.bits 3 0 * 8 + h.bits 6 4

/-- R347: the slot still holds the descriptor that a valid handle named. -/
def State.handleLive (s : State) (h : Word) : Bool :=
  let t := s.stream (handleKey h)
  t.act.isSome && t.gen.toNat = h.bits 15 8 && t.ctx = h.bits 25 16

/-- The handle operand, checked (R346, R347). -/
def handleOperand (b : Reg) (before : List Opd) : M Word := do
  let s ← get
  let y := s.reg b
  checkTags (before ++ [⟨3, y, only .sdesc⟩])
  if !s.handleOk y.data then throw (.trap 0x34 3 .sdesc y.data)
  pure y.data

/-- R354. -/
def execSrearm (d a b : Reg) (s : State) : Out :=
  coreStep (.srearm d a b) (do
    let x := (← get).reg a
    let h ← handleOperand b [⟨2, x, only .vaddr⟩]
    let ds ← readDescriptor x.data
    let s ← get
    let t := s.stream (handleKey h)
    if !s.handleLive h then set (s.setReg d (TVal.int 0x112))
    else if t.shadow.isSome then set (s.setReg d (TVal.int 0x111))
    else set ((s.setStream (handleKey h) { t with shadow := some ds }).setReg d (TVal.int 0))
    pure none) s

/-- R355: the word of SSTAT. A descriptor that has completed no row and holds nothing waits for its reservation or its first
row. -/
def StreamSlot.statWord (t : StreamSlot) : Word :=
  match t.act with
  | none => 0
  | some d => Word.ofNat ((if d.rowsDone = 0 && !d.granted then 1 else 2) + t.shadow.isSome.toNat * 4 + d.rowsDone % 2 ^ 32 * 256)

/-- R355. -/
def execSstat (d a b : Reg) (s : State) : Out :=
  coreStep (.sstat d a b) (do
    let h ← handleOperand b []
    let s ← get
    if s.handleLive h then
      let s1 := s.engineAcquire (handleKey h)
      set (s1.setReg d (TVal.int (s1.stream (handleKey h)).statWord))
    else set (s.setReg d (TVal.int 0))
    pure none) s

/-- R355. -/
def execScancel (d a b : Reg) (s : State) : Out :=
  coreStep (.scancel d a b) (do
    let h ← handleOperand b []
    let s ← get
    if s.handleLive h then set ((s.cancelSlot (handleKey h)).setReg d (TVal.int 0))
    else set (s.setReg d (TVal.int 0x112))
    pure none) s

/-! ## What the engines do (R349, R351, R352, R356) -/

/-- Marks of consecutive chunks, copied from one store to another. -/
def copyMarks (src dst : Store) (a b : Nat) : (n : Nat) → Store
  | 0 => dst
  | n + 1 => (copyMarks src dst a b n).putMark (b / 16 + n) (src.mark (a / 16 + n))

/-- R358: `n` bytes moved between stores with their poison marks. -/
def Store.move (src dst : Store) (a b n : Nat) : Store := copyMarks src (dst.putBytes b (src.read a n)) a b (n / 16)

/-- R349: the physical address of the memory side of row `r`, or none where a table row lies beyond the table. -/
def State.rowPa (s : State) (d : StreamD) (r : Nat) : Option Nat :=
  if d.indexed then
    let idx := leNat (s.mem.store.read (d.idxPa + 4 * r) 4)
    let o : Int := idx * d.mstride
    if o < 0 || o + d.rowLen > 2 ^ d.tlog2 then none else some (d.memPa + o.toNat)
  else some ((d.memPa : Int) + r * d.mstride).toNat

/-- R319, R356: whether the memory side of the row, or of its index, has no target. -/
def State.rowLost (s : State) (d : StreamD) (r : Nat) : Bool :=
  (d.indexed && s.mem.lost ((d.idxPa + 4 * r) / 128)) ||
  match s.rowPa d r with
  | none => false
  | some pa => (linesOf pa d.rowLen).any fun l => if d.fills then s.mem.lost l else s.mem.noTarget.get false l

/-- R349, R358: the bytes of row `r` are moved. A row placed beyond its table is filled with poisoned zeros by a GATHER and
left out by a SCATTER. Answers whether its index was out of range and how many poisoned chunks moved. -/
def State.moveRow (s : State) (d : StreamD) (r : Nat) : (Bool × Nat × Nat) × State :=
  let off := d.rowOff r
  match s.rowPa d r with
  | none =>
    if d.fills then
      ((true, 0, 0), { s with buf := { s.buf with
        store := (s.buf.store.putBytes off (List.replicate d.rowLen 0)).putMarks true (chunksOf off d.rowLen) } })
    else ((true, 0, 0), s)
  | some pa =>
    if d.fills then
      let bad := (chunksOf pa d.rowLen).filter s.mem.store.mark
      ((false, bad.length, 16 * bad.headD 0),
       { s with buf := { s.buf with store := s.mem.store.move s.buf.store pa off d.rowLen } })
    else
      let bad := (chunksOf off d.rowLen).filter s.buf.store.mark
      ((false, bad.length, 16 * bad.headD 0),
       if windowSpace (pa / 128) then s
       else { s with mem := { s.mem with store := s.buf.store.move s.mem.store off pa d.rowLen } })

/-- R351, R352, R355: whether the engine gives up what it holds after a row: a row of flow mode, the last row, and the row at
which a cancelled descriptor ends. -/
def StreamD.lastHold (d : StreamD) : Bool := d.flow || d.cancel || decide (d.rows ≤ d.rowsDone + 1)

/-- One row of the active descriptor, whose bytes are held, is performed: the move, what is released with it, and its
pulse. A write reservation that ends short of its rows is released with REL_WP. -/
def State.streamRow (s : State) (k : Nat) (t : StreamSlot) (d : StreamD) : State :=
  let r := d.rowsDone
  let ((ix, n, first), s1) := s.moveRow d r
  let d1 := { d with
    granted := !d.lastHold, rowsDone := r + 1, pchunks := d.pchunks + n,
    firstBad := if d.pchunks = 0 then first else d.firstBad, badRows := d.badRows + ix.toNat }
  let s2 := if d.lastHold then { s1 with buf := d.release (!d.flow && decide (r + 1 < d.rows)) s1.buf } else s1
  let s3 := s2.setStream k { t with act := some d1 }
  let s4 := if d.flow then s3.modCtx t.ctx fun e => { e with flowCount := 0, flowSince := s.now } else s3
  s4.engineAcquire k

/-- R349 to R352, R355, R357: an engine completes a row and pulses SEn_ROW. Nothing happens where no row can move: none is
left, the row's bytes cannot be acquired, a cancelled descriptor has no row in progress, or the row's memory has no target. -/
def execStreamRowDone (eng : BitVec 4) (slot : BitVec 3) (s : State) : Out :=
  let k := eng.toNat * 8 + slot.toNat
  eventStep true (fun s =>
    match (s.stream k).act with
    | none => s
    | some d =>
      if d.rowsDone < d.rows ∧ !s.rowLost d d.rowsDone then
        match d.acquire s.buf with
        | (d1, b) => if d1.granted then State.streamRow { s with buf := b } k (s.stream k) d1 else s
      else s) s

/-- R356, R458, R459: the records of a completion that an engine reports: STREAM_REFUSED for STREAM_ERROR, and POISON_IN
where poisoned chunks were moved. -/
def State.streamRecords (s : State) (c eng : Nat) (d : StreamD) (status : BitVec 8) (pchunks : Nat) : State :=
  let s1 := if status.toNat % 64 = 5 then
      s.record { ErrRec.mk0 0x109 0xB 8 (some c) with
        unit := BitVec.ofNat 16 eng, addr := d.statVa, info := Word.ofNat (status.toNat / 64) }
    else s
  if pchunks = 0 then s1
  else s1.record { ErrRec.mk0 0x105 0xB 1 (some c) with
    unit := BitVec.ofNat 16 eng, addr := Word.ofNat d.firstBad, info := Word.ofNat (max pchunks d.pchunks) }

/-- R354: the shadow becomes active at once in the same slot; after a stall or a cancel it ends with the same status. -/
def State.nextShadow (s : State) (k : Nat) (code : Nat) : State :=
  let t := s.stream k
  match t.shadow with
  | none => s
  | some d =>
    if code = 3 ∨ code = 4 then (s.completeDesc t.ctx d code).setStream k { t with shadow := none }
    else ((s.flowStarts t.ctx d).setStream k { t with act := some d, shadow := none }).engineAcquire k

/-- R356: the active descriptor `held` of slot `k` ends with a status, `rows` rows and `pchunks` poisoned chunks: what it
holds is released, with REL_WP if not all rows were written, and its record is written. -/
def State.endStream (s : State) (k : Nat) (held : StreamD) (code rows pchunks : Nat) : State :=
  let t := s.stream k
  let s1 := { s with buf := held.release (decide (rows < held.rows)) s.buf }
  let s2 := (s1.setStream k { t with act := none }).flowEnds t.ctx held
  (s2.completeDesc t.ctx { held with granted := false, rowsDone := rows, pchunks := pchunks } code).nextShadow k code

/-- R356, R357: an engine reports a completion: SEn_STATUS (the code of R356 in bits [5:0]), SEn_ROWS and SEn_PCHUNKS. -/
def execStreamDone (eng : BitVec 4) (slot : BitVec 3) (status : BitVec 8) (rows : BitVec 25) (pchunks : BitVec 16) (s : State) :
    Out :=
  let k := eng.toNat * 8 + slot.toNat
  eventStep (status.toNat % 64 ≤ 5) (fun s =>
    match (s.stream k).act with
    | none => s
    | some d =>
      let s1 := s.endStream k d (status.toNat % 64) rows.toNat pchunks.toNat
      s1.streamRecords (s.stream k).ctx eng.toNat d status pchunks.toNat) s

/-- R352: whether the watchdog of a context has counted to STREAM_WDOG. -/
def State.streamStalled (s : State) (c : Nat) : Bool :=
  s.flowActive c && decide ((s.cfgAct 3 0).toNat ≤ s.flowTime c)

/-- R352, R459: one slot's descriptors end with STREAM_STALL. -/
def State.stallSlot (s : State) (k : Nat) : State :=
  let t := s.stream k
  let s1 := match t.shadow with
    | some d => (s.completeDesc t.ctx d 3).setStream k { t with shadow := none }
    | none => s
  match t.act with
  | some d => (s1.endStream k d 3 d.rowsDone d.pchunks).streamRecords t.ctx (k / 8) d 3 d.pchunks
  | none => s1

/-- R352: every descriptor of the context completes with STREAM_STALL. -/
def execStreamWatchdog (c : BitVec 10) (s : State) : Out :=
  eventStep (s.streamStalled c.toNat) (fun s =>
    (s.streams.filter fun p => p.2.ctx = c.toNat).foldl (fun s p => s.stallSlot p.1) s) s

/-! ## The range-check port (R340) -/

/-- The owner of a granted acquire learns of it. -/
def State.granted (s : State) (tag : Nat) (o : AcqOwner) : State :=
  let mark := fun (h : HeldRange) => if h.tag = tag && !h.granted then { h with granted := true } else h
  match o with
  | .entry c i => s.modCtx c fun e => { e with ranges := e.ranges.mapVals fun j r => if j = i then { r with granted := true } else r }
  | .admission c _ => s.modCtx c fun e => { e with askedRanges := e.askedRanges.map mark }
  | .window w => s.modWindow w fun v => { v with granted := true }

/-- R340: the unsolicited response of a pending acquire, whose condition has come to hold. -/
def execRcResponse (tag : BitVec 16) (s : State) : Out :=
  eventStep true (fun s =>
    match s.buf.pend.find? fun a => a.tag = tag.toNat with
    | none => s
    | some a =>
      match (s.buf.cancel a.tag).tryAcquire a.lo a.hi a.write with
      | (true, b) => ({ s with buf := b }).granted a.tag a.owner
      | (false, _) => s) s

end Sys2Proof.Machine
end

