-- ==== Sys2Proof/Machine/TilePort.lean ====
section
/-! DEFINITION. The transfers of the tile unit with memory and buffer memory, a 16-byte chunk at a time (R116 to R121, R319,
R335 to R338). -/

namespace Sys2Proof.Machine

/-- A 16-byte chunk, or the written part of one from its first byte, with its poison mark. -/
abbrev Chunk := List Byte × Bool

/-- Bytes cut into chunks, with the poison mark of each. -/
def toChunks (bs : List Byte) (ms : List Bool) : List Chunk :=
  ms.zipIdx.map fun p => ((bs.drop (16 * p.2)).take 16, p.1)

/-- The bytes of chunks. -/
def chunkBytes (cs : List Chunk) : List Byte := cs.flatMap (·.1)

/-- R336, R182: a chunk written: a poisoned one is marked, a whole clean one cleared. -/
def Store.putChunk (m : Store) (a : Nat) (ch : Chunk) : Store :=
  let m1 := m.putBytes a ch.1
  if ch.2 then m1.putMark (a / 16) true else if ch.1.length = 16 then m1.putMark (a / 16) false else m1

/-- Chunks written at ascending addresses. -/
def Store.putChunks (m : Store) (a : Nat) : List Chunk → Store
  | [] => m
  | ch :: cs => (m.putChunk a ch).putChunks (a + 16) cs

/-- `n` chunks as a store holds them. -/
def Store.getChunks (m : Store) (a n : Nat) : List Chunk :=
  (List.range n).map fun i => (m.read (a + 16 * i) 16, m.mark (a / 16 + i))

/-- R319: `n` chunks of memory, where those of a line without a target read as 0 and poisoned, and the first address of each
request that is answered NOTARGET. -/
def HostMem.getChunks (m : HostMem) (a n : Nat) : List Chunk × List Nat :=
  ((List.range n).map fun i =>
      if m.lost ((a + 16 * i) / 128) then (List.replicate 16 0, true) else (m.store.read (a + 16 * i) 16, m.store.mark (a / 16 + i)),
   lostRequests m.lost a (16 * n))

/-- R319, R372: chunks written to memory; a NOTARGET line discards them, and one of window space sends them elsewhere. -/
def HostMem.putChunks (m : HostMem) (a : Nat) (cs : List Chunk) : HostMem × List Nat :=
  (cs.zipIdx.foldl (fun m p =>
      if m.lost ((a + 16 * p.2) / 128) then m else { m with store := m.store.putChunk (a + 16 * p.2) p.1 }) m,
   lostRequests (m.noTarget.get false) a (16 * cs.length))

/-! ## Errors of a tile operation -/

/-- An error record of the tile unit with its place; the outcome is set where it is written (R458). -/
def tileErr (code src unit addr info : Nat) : ErrRec :=
  { ErrRec.mk0 code src 1 none with unit := BitVec.ofNat 16 unit, addr := Word.ofNat addr, info := Word.ofNat info }

/-- A tile operation as it runs: the state, the errors detected, and the poisoned chunks that ports delivered, as SRC, UNIT
and address (R448, R459). -/
structure Perf where
  s : State
  errs : List ErrRec
  bad : List (Nat × Nat × Nat)
  deriving DecidableEq, Repr

/-- R319: the errors of requests that are answered NOTARGET. -/
def Perf.lostLines (p : Perf) (as : List Nat) : Perf :=
  { p with errs := p.errs ++ as.map fun a => tileErr 0x106 9 (a / 256 % 8) a 0 }

/-- R337: a port of a read that rotates over `n` ports from `first`: which one is a free value (DESIGN CHOICE, log entry 12). -/
def Perf.anyPort (p : Perf) (first n : Nat) : Nat × Perf :=
  (first + (Config.freeWord p.s.free).toNat % n, { p with s := { p.s with free := p.s.free + 1 } })

/-- The poisoned chunks among those read at `a`. -/
def badChunks (a : Nat) (cs : List Chunk) : List Nat := (cs.zipIdx.filter (·.1.2)).map fun q => a + 16 * q.2

/-- One request of a buffer read port (R111, R335, R337, R338): beyond the size of buffer memory the whole beat fails. -/
def Perf.readBuf (p : Perf) (first n : Nat) (q : Nat × Nat) : List Chunk × Perf :=
  if p.s.buf.size < q.1 + q.2 then
    let (u, p1) := p.anyPort first n
    ((List.range (ceilDiv q.2 16)).map fun _ => (List.replicate 16 0, true),
     { p1 with errs := p1.errs ++ [tileErr 0x107 0xA u q.1 0] })
  else
    let cs := p.s.buf.store.getChunks q.1 (ceilDiv q.2 16)
    match badChunks q.1 cs with
    | [] => (cs, p)
    | got =>
      let (u, p1) := p.anyPort first n
      (cs, { p1 with bad := p1.bad ++ got.map fun a => (0xA, u, a) })

/-- One piece of a row read (R116, R319, R335, R338). `first` and `n` name the buffer read ports it may use (R111, R337). -/
def Perf.readPiece (p : Perf) (loc : Loc) (first n : Nat) (q : Nat × Nat) : List Chunk × Perf :=
  match loc with
  | .mem =>
    let (cs, lost) := p.s.mem.getChunks q.1 (q.2 / 16)
    let s1 := (byBlock (linesOf q.1 q.2)).foldl State.tileBlockRead p.s
    let got := (badChunks q.1 cs).filter fun a => !p.s.mem.lost (a / 128)
    (cs, { ({ p with s := s1 } : Perf).lostLines lost with bad := p.bad ++ got.map fun a => (9, a / 256 % 8, a) })
  | .buf =>
    (bufRequests (q.2 / 512 + 2) q.1 q.2).foldl (fun r o => let (cs, p1) := r.2.readBuf first n o; (r.1 ++ cs, p1)) ([], p)

/-- One row read. -/
def Perf.readRow (p : Perf) (first n : Nat) (row : Row) : List Chunk × Perf :=
  row.pieces.foldl (fun r q => let (cs, p1) := r.2.readPiece row.loc first n q; (r.1 ++ cs, p1)) ([], p)

/-- One request of a buffer write port (R336 to R338): beyond the size of buffer memory it fails, and the chunks that it
enabled and that buffer memory has are marked poisoned. -/
def Perf.writeBuf (p : Perf) (q : Nat × Nat) (cs : List Chunk) : Perf :=
  let store := p.s.buf.store
  if p.s.buf.size < q.1 + q.2 then
    let at' := ((List.range cs.length).map fun i => q.1 / 16 + i).filter fun k => decide (16 * k < p.s.buf.size)
    { p with
      s := { p.s with buf := { p.s.buf with store := at'.foldl (fun m k => m.putMark k true) store } },
      errs := p.errs ++ [tileErr 0x108 0xA (q.1 / 512 % 4) q.1 0] }
  else { p with s := { p.s with buf := { p.s.buf with store := store.putChunks q.1 cs } } }

/-- R314, R509: the requests of chunks written to memory from `a`, one a block, of its lines that no cache holds dirty (R312).
`fuel` bounds the blocks. -/
def chunkRequests : (fuel a : Nat) → List Chunk → State → State
  | 0, _, _, s => s
  | _, _, [], s => s
  | fuel + 1, a, cs, s =>
    let k := 16 - a / 16 % 16
    let o := a % 256
    let mine := cs.take k
    let out := fun (x : Nat) => !s.caches.dirtyLine (a / 256 * 2 + x / 128)
    chunkRequests fuel (a + 16 * k) (cs.drop k)
      (s.maLines 1 ((linesOf a (16 * mine.length)).filter fun l => !s.caches.dirtyLine l)
        (((chunkBytes mine).zipIdx.map fun b => (o + b.2, b.1)).filter fun b => out b.1)
        (((mine.zipIdx.filter (·.1.2)).map fun p => o / 16 + p.2).filter fun k => out (16 * k)))

/-- One piece of a row written (R319, R336, R338). -/
def Perf.writePiece (p : Perf) (loc : Loc) (q : Nat × Nat) (cs : List Chunk) : Perf :=
  match loc with
  | .mem =>
    let (m, lost) := p.s.mem.putChunks q.1 cs
    ({ p with s := { chunkRequests cs.length q.1 cs p.s with mem := m } } : Perf).lostLines lost
  | .buf =>
    ((bufRequests (q.2 / 512 + 2) q.1 q.2).foldl (fun (r : List Chunk × Perf) o =>
      (r.1.drop (ceilDiv o.2 16), r.2.writeBuf o (r.1.take (ceilDiv o.2 16)))) (cs, p)).2

/-- One row written. -/
def Perf.writeRow (p : Perf) (row : Row) (cs : List Chunk) : Perf :=
  (row.pieces.foldl (fun (r : List Chunk × Perf) q =>
    (r.1.drop (ceilDiv q.2 16), r.2.writePiece row.loc q (r.1.take (ceilDiv q.2 16)))) (cs, p)).2

end Sys2Proof.Machine
end

