-- ==== Sys2Proof/Machine/TileState.lean ====
section
/-! DEFINITION. Taking a saddle: the save area's checks and pin, the spill, the restore, and the release of tile state (R122
to R133). -/

namespace Sys2Proof.Machine

/-! ## Save area offsets (R129) -/

def valuesPa (pin b : Nat) : Nat := pin + b * 0x100000
def sidePa (pin b : Nat) : Nat := pin + 0x1000000 + b * 0x40000
def sumsPa (pin b : Nat) : Nat := pin + 0x1400000 + b * 0x4000
def tilePa (pin t : Nat) : Nat := pin + 0x1440000 + t * 0x20000
def scalePa (pin t : Nat) : Nat := pin + 0x1640000 + t * 0x2000
def mapPa (pin t : Nat) : Nat := pin + 0x1660000 + t * 0x800

/-! ## Images of blocks, tiles and the record (R129 to R131) -/

/-- Cell `k` of block `b`, in row order (R129). -/
def Saddle.blockCell (d : Saddle) (b k : Nat) : Cell := d.cell (b / 4 * 256 + k / 256) (b % 4 * 256 + k % 256)

/-- R130: a side word. -/
def Cell.side (c : Cell) : Nat := c.cnt % 2 ^ 25 + c.range.toNat * 2 ^ 25 + c.count.toNat * 2 ^ 26 + c.poison.toNat * 2 ^ 27

/-- R129, R449: the value chunks of a block; a cell that fails its parity is written marked poisoned. -/
def Saddle.valueChunks (d : Saddle) (b : Nat) : List Chunk :=
  (List.range 65536).map fun k => (leBytes 16 (d.blockCell b k).s.toNat, (d.blockCell b k).perr ≠ 0)

def Saddle.sideChunks (d : Saddle) (b : Nat) : List Chunk :=
  (List.range 16384).map fun k => ((List.range 4).flatMap fun m => leBytes 4 (d.blockCell b (4 * k + m)).side, false)

/-- R129: the checksum entries of a block, sign-extended to 256 bits. -/
def Saddle.sumChunks (d : Saddle) (b : Nat) : List Chunk :=
  let r0 := b / 4 * 256
  let c0 := b % 4 * 256
  let entry := fun (v : BitVec 136) => leBytes 32 (v.signExtend 256).toNat
  let bs := ((List.range 256).flatMap fun j => entry (d.colSum r0 (c0 + j))) ++
            ((List.range 256).flatMap fun i => entry (d.rowSum (r0 + i) c0))
  toChunks bs (List.replicate 1024 false)

/-- Bits as bytes, bit 0 first. -/
def packBits : (n : Nat) → (List Bool) → List Byte
  | 0, _ => []
  | n + 1, bs => BitVec.ofNat 8 ((bs.take 8).zipIdx.foldl (fun a p => a + p.1.toNat * 2 ^ p.2) 0) :: packBits n (bs.drop 8)

/-- R129: the poison map of a tile, 2,048 bytes. -/
def Tile.mapBytes (t : Tile) : List Byte := packBits 2048 (t.marks false 0 8192 ++ t.marks true 0 512)

/-- R131: the 208 bytes of a record. -/
def TileRec.bytes (t : TileRec) : List Byte :=
  ([t.tstat, t.dseq, t.seedLo, t.seedHi, t.bstate, t.ostate].flatMap fun w => leBytes 8 w.toNat) ++
  (t.rstate ++ List.replicate 160 0).take 160

/-! ## Spill (R125, R449) -/

/-- Chunks written to memory, with the records of requests that are answered NOTARGET. -/
def State.putMem (s : State) (pa : Nat) (cs : List Chunk) (c : Option Nat) : State :=
  let (m, lost) := s.mem.putChunks pa cs
  lost.foldl (fun s a => s.noTargetRecord a c) { chunkRequests cs.length pa cs s with mem := m }

/-- R449: the record of a cell that fails its parity when it is read. -/
def parityErr (d : Saddle) (p : Nat × Nat) : ErrRec :=
  tileErr 0x103 6 (engineOf p.1 p.2) (p.1 * 65536 + p.2) (d.cell p.1 p.2).perr.toNat

/-- R125: a DIRTY block. -/
def State.spillBlock (s : State) (d : Saddle) (pin o b : Nat) : State :=
  let s1 := s.putMem (valuesPa pin b) (d.valueChunks b) (some o)
  let s2 := s1.putMem (sidePa pin b) (d.sideChunks b) (some o)
  let s3 := s2.putMem (sumsPa pin b) (d.sumChunks b) (some o)
  ((region (b / 4 * 256) (b % 4 * 256) 256 256).filter fun p => (d.cell p.1 p.2).perr ≠ 0).foldl
    (fun s p => s.record { parityErr d p with ctx := BitVec.ofNat 16 o }) s3

/-- R125: a DIRTY tile. -/
def State.spillTile (s : State) (d : Saddle) (pin o t : Nat) : State :=
  let x := d.tile t
  let s1 := s.putMem (tilePa pin t) (toChunks (x.read false 0 131072) (List.replicate 8192 false)) (some o)
  let s2 := s1.putMem (mapPa pin t) (toChunks x.mapBytes (List.replicate 128 false)) (some o)
  if d.status.scl t then s2.putMem (scalePa pin t) (toChunks (x.read true 0 8192) (List.replicate 512 false)) (some o) else s2

/-- R125: the record after every DIRTY item has been marked SAVED. -/
def TileRec.saved (t : TileRec) : TileRec :=
  let t1 := (List.range 16).foldl (fun t b => if t.blockState b = 2 then t.setBlock b 1 else t) t
  (List.range 16).foldl (fun t n => if t.tileState n = 2 then t.setTile n 1 else t) t1

/-- R125, R132: the record is written to its home, with FLAGS.TILE_VALID and recf. -/
def State.writeRecord (s : State) (o pin : Nat) (t : TileRec) : State :=
  if (s.ctx o).fpv then
    let s1 := s.putMem ((s.ctx o).framePa + 0x30) (toChunks t.bytes (List.replicate 13 false)) (some o)
    (s1.writeFlags o 1).modCtx o fun e => { e with recf := true }
  else
    let s1 := s.putMem (headerPa pin) (toChunks (t.bytes ++ List.replicate 3888 0) (List.replicate 256 false)) (some o)
    s1.modCtx o fun e => { e with recf := false }

/-- R125: the owner of saddle `i` is spilled; `rstate` is the RUNSTATE of a park (R238). -/
def State.spill (s : State) (i : Nat) (rstate : List Byte) : State :=
  let d := s.sad i
  match d.owner with
  | none => s
  | some o =>
    match (s.ctx o).pin with
    | none => s
    | some pin =>
      let s1 := ((List.range 16).filter fun b => d.status.blockState b = 2).foldl (fun s b => s.spillBlock d pin o b) s
      let s2 := ((List.range 16).filter fun t => d.status.tileState t = 2).foldl (fun s t => s.spillTile d pin o t) s1
      ((s2.writeRecord o pin { d.status.saved with rstate := rstate }).setSad i Saddle.empty).clearReins

/-! ## Restore (R126, R128) -/

/-- Chunks read from memory, with the requests of the lines that the L2 does not hold (R314) and the records of requests
that are answered NOTARGET. -/
def State.getMem (s : State) (pa n : Nat) (c : Option Nat) : List Chunk × State :=
  let (cs, lost) := s.mem.getChunks pa n
  (cs, lost.foldl (fun s a => s.noTargetRecord a c) (if n = 0 then s else s.readRequests (linesOf pa (16 * n))))

/-- A chunk of a list; nothing beyond its end. -/
def chunkAt (cs : List Chunk) (i : Nat) : Chunk := cs.getD i ([], false)

/-- R128, R130: cell `k` of a block from its value, side-word and checksum chunks. -/
def restoredCell (vals sides sums : List Chunk) (k : Nat) : Cell :=
  let v := chunkAt vals k
  let w := chunkAt sides (k / 4)
  let sw := leNat ((w.1.drop (k % 4 * 4)).take 4)
  let j := k % 256
  let i := k / 256
  { s := BitVec.ofNat 128 (leNat v.1), range := sw.testBit 25, count := sw.testBit 26,
    poison := sw.testBit 27 || v.2 || w.2 || (chunkAt sums (2 * j)).2 || (chunkAt sums (2 * j + 1)).2 ||
      (chunkAt sums (512 + 2 * i)).2 || (chunkAt sums (512 + 2 * i + 1)).2,
    cnt := sw % 2 ^ 25, perr := 0 }

/-- R129: checksum entry `e`, of which 136 bits are read. -/
def restoredSum (sums : List Chunk) (e : Nat) : BitVec 136 :=
  BitVec.ofNat 136 (leNat ((chunkAt sums (2 * e)).1 ++ (chunkAt sums (2 * e + 1)).1))

/-- R126: a SAVED block. -/
def Saddle.loadBlock (d : Saddle) (b : Nat) (vals sides sums : List Chunk) : Saddle :=
  let r0 := b / 4 * 256
  let c0 := b % 4 * 256
  let cells := (List.range 65536).foldl (fun t k =>
    Tbl.put Cell.zero t (cellKey (r0 + k / 256) (c0 + k % 256)) (restoredCell vals sides sums k)) d.cells
  let live := (List.range 256).foldl (fun t i => Tbl.set t (rowKey (r0 + i) c0) true) d.live
  let crow := (List.range 256).foldl (fun t j => Tbl.put 0 t (colKey r0 (c0 + j)) (restoredSum sums j)) d.crow
  let ccol := (List.range 256).foldl (fun t i => Tbl.put 0 t (rowKey (r0 + i) c0) (restoredSum sums (256 + i))) d.ccol
  { d with cells := cells, live := live, crow := crow, ccol := ccol }

/-- R126: every SAVED block is read from the save area. -/
def State.loadBlocks (s : State) (pin c : Nat) (d : Saddle) : Saddle × State :=
  ((List.range 16).filter fun b => d.status.blockState b = 1).foldl (fun (r : Saddle × State) b =>
    let (vals, s1) := r.2.getMem (valuesPa pin b) 65536 (some c)
    let (sides, s2) := s1.getMem (sidePa pin b) 16384 (some c)
    let (sums, s3) := s2.getMem (sumsPa pin b) 1024 (some c)
    (r.1.loadBlock b vals sides sums, s3)) (d, s)

/-- R128: bit `n` of a tile's poison map as it is restored: set in the map, in a poisoned chunk of it, or for a poisoned
tile chunk. -/
def restoredMark (map : List Chunk) (n : Nat) (bad : Bool) : Bool :=
  bad || (chunkAt map (n / 128)).2 || (((chunkAt map (n / 128)).1.getD (n % 128 / 8) 0).getLsbD (n % 8))

/-- R126: a SAVED tile. -/
def Saddle.loadTile (d : Saddle) (t : Nat) (elems map scales : List Chunk) : Saddle :=
  let marks := fun (cs : List Chunk) (n0 : Nat) => cs.zipIdx.map fun p => (p.2, restoredMark map (n0 + p.2) p.1.2)
  let x := (Tile.zero.write false 0 (chunkBytes elems) (marks elems 0)).write true 0 (chunkBytes scales) (marks scales 8192)
  { d with tiles := d.tiles.set t x }

/-- R126: every SAVED tile is read; its scale store only with SCL set. -/
def State.loadTiles (s : State) (pin c : Nat) (d : Saddle) : Saddle × State :=
  ((List.range 16).filter fun t => d.status.tileState t = 1).foldl (fun (r : Saddle × State) t =>
    let (elems, s1) := r.2.getMem (tilePa pin t) 8192 (some c)
    let (map, s2) := s1.getMem (mapPa pin t) 128 (some c)
    let (scales, s3) := s2.getMem (scalePa pin t) (if d.status.scl t then 512 else 0) (some c)
    let none' : List Chunk := List.replicate 512 (List.replicate 16 0, false)
    (r.1.loadTile t elems map (if d.status.scl t then scales else none'), s3)) (d, s)

/-- The record that 13 chunks hold. -/
def recordOf (cs : List Chunk) : TileRec :=
  let w := fun i => Word.ofNat (leNat (((chunkBytes cs).drop (8 * i)).take 8))
  let r := (chunkBytes cs).drop 48
  { tstat := w 0, dseq := w 1, seedLo := w 2, seedHi := w 3, bstate := w 4, ostate := w 5,
    rstate := if r.all (· = 0) then [] else r }

/-- R126: whether a record holds a code or bit that no spill writes: the offset of the field that does. -/
def TileRec.unspilled (t : TileRec) : Option Nat :=
  if t.tstat.bits 63 3 ≠ 0 then some 0
  else if t.bstate.bits 63 32 ≠ 0 || (List.range 16).any fun b => decide (2 ≤ t.blockState b) then some 0x20
  else if (List.range 16).any fun n => decide (2 ≤ t.tileState n) then some 0x28
  else none

/-- The place from which a restore reads the record (R132). -/
def Ctx.recordPa (e : Ctx) (pin : Nat) : Nat := if e.recf then e.framePa + 0x30 else headerPa pin

/-- R133: the release of a context's tile state. -/
def State.releaseTile (s : State) (c : Nat) : State :=
  let s1 := match s.sadOf c with
    | some i => s.setSad i Saddle.empty
    | none => s
  let s2 := if (s1.ctx c).recf then s1.writeFlags c 0 else s1
  s2.modCtx c fun e => { e with pin := none, recf := false }

/-- R128: the restore fails at the chunk of address `a`: the tile state is released and a record is written. -/
def State.restoreFails (s : State) (c a : Nat) : State :=
  (s.releaseTile c).record { ErrRec.mk0 0x51 6 4 (some c) with addr := Word.ofNat a }

/-- R126: context `c` is restored into saddle `i`, which has no owner. `fresh`: it starts with everything ZERO. Answers
whether the restore succeeded. -/
def State.restore (s : State) (c i pin : Nat) (fresh : Bool) : Bool × State :=
  let s := s.clearReins
  if fresh then (true, s.setSad i { Saddle.empty with owner := some c })
  else
    let pa := (s.ctx c).recordPa pin
    let (cs, s1) := s.getMem pa 13 (some c)
    match (cs.zipIdx.find? fun p => p.1.2).map (fun p => 16 * p.2) <|> (recordOf cs).unspilled with
    | some o => (false, s1.restoreFails c ((pa + o) / 16 * 16))
    | none =>
      let (d1, s2) := s1.loadBlocks pin c { Saddle.empty with owner := some c, status := recordOf cs }
      let (d2, s3) := s2.loadTiles pin c d1
      let s4 := if (s3.ctx c).recf then (s3.writeFlags c 0).modCtx c fun e => { e with recf := false } else s3
      (true, s4.setSad i d2)

/-! ## The take (R123, R124) -/

/-- R124: the checks of a save area, of whose page every byte must be MEMORY: its physical address. -/
def saveAreaPa (x : XCtx) (c : Nat) : M (Option Nat) := do
  let s ← get
  let w := (s.ctx c).tsave
  if w.toNat % 2 ^ 25 ≠ 0 then pure none
  else
    match (translate { x with sys := true } 2 true w (some c)) s with
    | .error _ s1 => do
      set s1
      pure none
    | .ok (e, pa) s1 => do
      set s1
      let page := pa / 2 ^ e.size * 2 ^ e.size
      if e.size < 25 || !s1.allMemory page (2 ^ e.size) then pure none else pure (some pa)

/-- SAVE_AREA (R169). -/
def saveAreaTrap {α : Type} (c : Nat) : M α := do trapM 0x51 ((← get).ctx c).tsave

/-- R123: the saddle that a take uses: one without an owner, or that of the owner without an admitted image whose last tile
instruction issued least recently. -/
def State.takeFrom (s : State) : Option Nat :=
  let idle := fun i => match (s.sad i).owner with
    | none => true
    | some o => (s.admitted o).isNone
  if s.tile.sad0.owner.isNone then some 0
  else if s.tile.sad1.owner.isNone then some 1
  else if idle 0 && (!idle 1 || decide (s.tile.sad0.lastIssue ≤ s.tile.sad1.lastIssue)) then some 0
  else if idle 1 then some 1
  else none

/-- R123: a take for context `c` with the rights of `x`: its saddle. The pin of the first step is recorded when the take goes
through: an instruction that waits for a saddle checks tsave again each time it is presented, and one that is abandoned
leaves no pin (DESIGN CHOICE, log entry 107). -/
def takeSaddle (x : XCtx) (c : Nat) : M Nat := do
  let s ← get
  match s.sadOf c with
  | some i => pure i
  | none =>
    let fresh := (s.ctx c).pin.isNone
    let pin ← match (s.ctx c).pin with
      | some p => pure p
      | none => do
        match (← saveAreaPa x c) with
        | some p => pure p
        | none => saveAreaTrap c
    let s ← get
    match s.takeFrom with
    | none => waitM .saddle
    | some i =>
      if (s.sad i).owner.isSome && !(s.sad i).queue.isEmpty then waitM .saddle
      let s1 := (s.spill i []).modCtx c fun e => { e with pin := some pin }
      let (ok, s2) := s1.restore c i pin fresh
      set s2
      if ok then pure i else saveAreaTrap c

end Sys2Proof.Machine
end

