-- ==== Sys2Proof/Machine/TilePerf.lean ====
section
/-! DEFINITION. What each tile instruction does to the tile state and to memory, inline and in a run alike (R135, R157 to
R159, R175 to R191, R449, R450). -/

namespace Sys2Proof.Machine

/-- What an operation works on: its kind and operands, the places of its rows, whether it belongs to an admitted image, the
error that it meets, and the rows that an abandoned transfer has moved (R119). -/
structure TileRun where
  k : TK
  shape : Word
  left : TVal
  right : TVal
  rows : List Row
  rows2 : List Row
  inRun : Bool
  hw : HwFault
  cut : CutRows
  deriving DecidableEq, Repr

def TileRun.m (t : TileRun) : Nat := shM t.shape
def TileRun.n (t : TileRun) : Nat := shN t.shape
def TileRun.r0 (t : TileRun) : Nat := shR t.shape
def TileRun.c0 (t : TileRun) : Nat := shC t.shape

/-- The cells of the region. -/
def TileRun.cells (t : TileRun) : List (Nat × Nat) := region t.r0 t.c0 t.m t.n

/-- Saddle `i` as an operation runs. -/
def Perf.sad (p : Perf) (i : Nat) : Saddle := p.s.sad i

def Perf.modSad (p : Perf) (i : Nat) (f : Saddle → Saddle) : Perf := { p with s := p.s.modSad i f }

def Perf.err (p : Perf) (r : ErrRec) : Perf := { p with errs := p.errs ++ [r] }

/-! ## Parity and residue (R449, R450) -/

/-- An upset that the operation meets. -/
def Perf.upset (p : Perf) (i : Nat) (hw : HwFault) : Perf :=
  match hw with
  | .cellUpset r c v l => p.modSad i fun d => d.upset r.toNat c.toNat v l
  | _ => p

/-- R449: the parity of the region's cells is checked as they are read. Outside a run a failing cell gets POISON. -/
def Perf.parity (p : Perf) (i : Nat) (t : TileRun) : Perf :=
  (t.cells.filter fun q => ((p.sad i).cell q.1 q.2).perr ≠ 0).foldl (fun p q =>
    let p1 := p.err (parityErr (p.sad i) q)
    if t.inRun then p1 else p1.modSad i fun d => d.setCell q.1 q.2 { d.cell q.1 q.2 with poison := true }) p

/-- R450: the region row and the group whose residue check fails. -/
def TileRun.residue (t : TileRun) : Option (Nat × Nat) :=
  match t.hw with
  | .residue row g _ => if row.toNat < t.m && g.toNat < groupsOf t.n then some (row.toNat, g.toNat) else none
  | _ => none

/-- R450, R458: the record of a residue failure. -/
def Perf.residueErr (p : Perf) (t : TileRun) : Perf :=
  match t.hw, t.residue with
  | .residue _ _ stage, some (row, g) =>
    p.err (tileErr 0x104 7 0 ((t.r0 + row) * 65536 + (t.c0 + 64 * g)) stage.toNat)
  | _, _ => p

/-- R450: whether the residue check spoils the output of column `j` of row `i`, outside a run. -/
def TileRun.spoils (t : TileRun) (i g : Nat) : Bool := !t.inRun && t.residue = some (i, g)

/-! ## Outer products (R175 to R177) -/

/-- The vector pairs of an outer product from operand tiles. -/
def TileRun.tileVecs (t : TileRun) (d : Saddle) (k : Nat) : List (List Elem × List Elem) :=
  (List.range k).map fun n =>
    (d.vector (shL t.shape) (t.shape.bit 48) (t.left.data.bits 3 0) (t.left.data.bits 13 4 + n) t.m,
     d.vector (shRf t.shape) (t.shape.bit 49) (t.right.data.bits 3 0) (t.right.data.bits 13 4 + n) t.n)

/-- Rows read one after the other. -/
def Perf.readRows (p : Perf) (first n : Nat) (rows : List Row) : List Chunk × Perf :=
  rows.foldl (fun r row => let (cs, p1) := r.2.readRow first n row; (r.1 ++ cs, p1)) ([], p)

/-- The vector pairs of an outer product from buffer memory, through the reins' ports (R111, R177). -/
def TileRun.bufVecs (t : TileRun) (p : Perf) (k : Nat) : List (List Elem × List Elem) × Perf :=
  let (a, p1) := p.readRows 0 4 t.rows
  let (b, p2) := p1.readRows 4 4 t.rows2
  ((List.range k).map fun n =>
    (bufVector (shL t.shape) (chunkBytes a) (a.map (·.2)) n t.m, bufVector (shRf t.shape) (chunkBytes b) (b.map (·.2)) n t.n), p2)

/-- R115: the elements that a pair of vectors presents are latched in the engine rows and columns of its region. -/
def TileUnit.latch (u : TileUnit) (r0 c0 : Nat) (a b : List Elem) : TileUnit :=
  let cols := (List.range 4).filter fun e => decide (c0 / 256 ≤ e) && decide (e ≤ (c0 + b.length - 1) / 256)
  let rows := (List.range 4).filter fun e => decide (r0 / 256 ≤ e) && decide (e ≤ (r0 + a.length - 1) / 256)
  { u with
    rowLatch := a.zipIdx.foldl (fun t p => cols.foldl (fun t e => Tbl.put 0 t (rowKey (r0 + p.2) (256 * e)) p.1.raw) t) u.rowLatch,
    colLatch := b.zipIdx.foldl (fun t p => rows.foldl (fun t e => Tbl.put 0 t (colKey (256 * e) (c0 + p.2)) p.1.raw) t) u.colLatch }

/-- R115: the pairs of an instruction, in order: the latches end with what the last pair presents. -/
def TileUnit.latchPairs (u : TileUnit) (r0 c0 : Nat) (vs : List (List Elem × List Elem)) : TileUnit :=
  match vs.getLast? with
  | some p => u.latch r0 c0 p.1 p.2
  | none => u

/-- R114: an entry of a rein cache is used or allocated; the eighth oldest goes. -/
def reinTouch (l : List ReinEntry) (e : ReinEntry) : List ReinEntry := (e :: l.filter (· ≠ e)).take 8

/-- R114: vector `k` of `n` elements is read from operand tiles: a vector longer than 2,048 bytes takes two entries. -/
def reinUse (l : List ReinEntry) (i : Nat) (sel : Word) (f : Nat) (col : Bool) (k n : Nat) : List ReinEntry :=
  (List.range (ceilDiv (n * elemBits f) 16384)).foldl (fun l part =>
    reinTouch l { sad := BitVec.ofNat 1 i, first := sel.bits 3 0, span := spanOf f col n, col := col, k := k, fmt := f, len := n,
                  part := part }) l

/-- R114: the vectors of an outer product from operand tiles. -/
def TileRun.reins (t : TileRun) (u : TileUnit) (i k : Nat) : TileUnit :=
  (List.range k).foldl (fun u n =>
    { u with
      reinL := reinUse u.reinL i t.left.data (shL t.shape) (t.shape.bit 48) (t.left.data.bits 13 4 + n) t.m,
      reinR := reinUse u.reinR i t.right.data (shRf t.shape) (t.shape.bit 49) (t.right.data.bits 13 4 + n) t.n }) u

/-- R114: a row of a tile in an entry's span is written: all entries are invalidated. -/
def TileUnit.dropReins (u : TileUnit) (i : Nat) (wr : List (Nat × Nat)) : TileUnit :=
  if (u.reinL ++ u.reinR).any fun e => e.sad.toNat = i && spansMeet [(e.first * 512, (e.first + e.span) * 512 - 1)] wr then
    u.clearReins
  else u

def Perf.modTile (p : Perf) (f : TileUnit → TileUnit) : Perf := { p with s := { p.s with tile := f p.s.tile } }

/-- R175 to R177: the products, with the rein caches and the reuse latches (R114, R115). -/
def Perf.outer (p : Perf) (i : Nat) (t : TileRun) (mem : Bool) (k : Nat) : Perf :=
  let p1 := p.parity i t
  let (vs, p2) := if mem then t.bufVecs p1 k else (t.tileVecs (p1.sad i) k, p1.modTile fun u => t.reins u i k)
  (p2.modTile fun u => u.latchPairs t.r0 t.c0 vs).modSad i fun d => d.outer t.r0 t.c0 t.m t.n (shAnchor t.shape) vs

/-! ## TLD, TST, TZF (R116 to R121, R178, R179) -/

/-- R119: the rows that a transfer moves, with their numbers: every one, or those that an abandoned one has moved. A TST writes
its rows in ascending order (R120): those before the first that it has not written. -/
def TileRun.moved (t : TileRun) : List (Row × Nat) :=
  match t.cut with
  | none => t.rows.zipIdx
  | some m =>
    let has := fun (q : Row × Nat) => m.getLsbD q.2
    match t.k with
    | .tst _ => t.rows.zipIdx.takeWhile has
    | _ => t.rows.zipIdx.filter has

/-- R116, R118, R121, R178: TLD. -/
def Perf.load (p : Perf) (i : Nat) (t : TileRun) (scale : Bool) : Perf :=
  let w := t.right.data
  let p1 := t.moved.foldl (fun (p : Perf) q =>
    let (cs, p1) := p.readRow 0 8 q.1
    p1.modSad i fun d => d.setTileRow (twTile w) scale (twFirst w + q.2) (chunkBytes cs) (cs.map (·.2))) p
  if scale && t.cut.isNone then p1.modSad i fun d => d.setScale (twTile w) (t.shape.bit 48) else p1

/-- R116, R121, R178: TST. -/
def Perf.store (p : Perf) (i : Nat) (t : TileRun) (scale : Bool) : Perf :=
  let w := t.right.data
  t.moved.foldl (fun (p : Perf) q =>
    let d := p.sad i
    let (bs, ms) := if scale && !d.status.scl (twTile w) then (List.replicate 512 0, List.replicate 32 false)
                    else d.tileRow (twTile w) scale (twFirst w + q.2)
    p.writeRow q.1 (toChunks bs ms)) p

def Perf.zero (p : Perf) (i : Nat) (t : TileRun) : Perf :=
  p.modSad i fun d =>
    ((List.range 16).filter fun n => t.left.data.bit n).foldl Saddle.zeroTile (d.zeroRegion t.r0 t.c0 t.m t.n)

/-! ## Drains (R145, R157, R158, R181 to R186) -/

/-- R183: a parameter: its number and whether its chunk is poisoned. -/
structure Params where
  bytes : List Byte
  marks : List Bool
  deriving DecidableEq, Repr

def Params.at (p : Params) (o n : Nat) : Nat × Bool := (leNat ((p.bytes.drop o).take n), p.marks.getD (o / 16) false)

/-- R183: the parameter block at the drain word's PT and PR. -/
def paramBlock (d : Saddle) (w : Word) : Params :=
  let o := w.bits 43 36
  let t := d.tile (w.bits 35 32)
  { bytes := t.read false (o * 512) 8704, marks := t.marks false (o * 32) 544 }

/-- What a drain collects for one cell: its output, whether it is the poison output, and the sticky flags it raises. -/
structure Drained where
  v : Nat
  bad : Bool
  range : Bool
  count : Bool
  poison : Bool
  deriving DecidableEq, Repr

/-- R146, R183: the optional operands of region cell (`i`, `j`), with a non-finite and a poisoned parameter told. -/
def drainArgs (act : Nat) (bias xr xc : Bool) (pb : Params) (i j : Nat) : DrainArgs × Bool × Bool :=
  let lo := pb.at 0 4
  let hi := pb.at 4 4
  let beta := pb.at (512 + 4 * j) 4
  let c := pb.at (4608 + 2 * j) 2
  let r := pb.at (6656 + 2 * i) 2
  let s16 := fun (n : Nat) => (BitVec.ofNat 16 n).toInt
  let clamp := decide (act = 2)
  ({ xr := if xr then s16 r.1 else 0, xc := if xc then s16 c.1 else 0,
     beta := if bias then some (paramValue beta.1).1 else none, lo := (paramValue lo.1).1, hi := (paramValue hi.1).1 },
   (clamp && ((paramValue lo.1).2 || (paramValue hi.1).2)) || (bias && (paramValue beta.1).2),
   (clamp && (lo.2 || hi.2)) || (bias && beta.2) || (xc && c.2) || (xr && r.2))

/-- R145: the output of region cell (`i`, `j`). -/
def TileRun.drainCell (t : TileRun) (d : Saddle) (dfmt act : Nat) (bias xr xc : Bool) (pb : Params) (i j : Nat) : Drained :=
  let cell := d.cell (t.r0 + i) (t.c0 + j)
  let (a, nonfin, pois) := drainArgs act bias xr xc pb i j
  let bad := cell.poison || pois || t.spoils i (j / 64)
  let u := (gen d.status.seedLo d.status.seedHi (t.r0 + i) (t.c0 + j) d.status.dseq).bits 31 0
  { v := if bad then poisonOut dfmt
         else drainOut dfmt (DMode.of (shRnd t.shape) u) (drainValue cell.s (shAnchor t.shape) a act),
    bad := bad, range := cell.range || nonfin, count := cell.count, poison := cell.poison || pois || t.spoils i (j / 64) }

/-- R185: the sticky flags after a drain. -/
def TileRec.stick (t : TileRec) (range count poison : Bool) : TileRec :=
  { t with tstat := t.tstat ||| Word.ofNat (range.toNat + count.toNat * 2 + poison.toNat * 4) }

def Saddle.stick (d : Saddle) (range count poison : Bool) : Saddle := { d with status := d.status.stick range count poison }

/-- The chunks of an output row: a chunk that holds a poison output is marked (R182). -/
def outChunks (size : Nat) (os : List Drained) : List Chunk :=
  let bs := os.flatMap fun o => leBytes size o.v
  toChunks bs ((List.range (ceilDiv bs.length 16)).map fun q => os.zipIdx.any fun p => p.1.bad && p.2 * size / 16 = q)

/-- R184: one segment of an output row in one tile: a chunk's mark is set by a poison output, cleared where the whole chunk is
clean, and kept otherwise. -/
def Saddle.putOut (d : Saddle) (t row : Nat) (cs : List Chunk) : Saddle :=
  let ms := (cs.zipIdx.filter fun p => p.1.2 || p.1.1.length = 16).map fun p => (row * 32 + p.2, p.1.2)
  d.writeTile t false (row * 512) (chunkBytes cs) ms

/-- R184: an output row in operand tiles. -/
def Saddle.putOutRow (d : Saddle) (t row : Nat) : (n : Nat) → List Chunk → Saddle
  | 0, _ => d
  | n + 1, cs => (d.putOut t row (cs.take 32)).putOutRow (t + 1) row n (cs.drop 32)

/-- R182, R184: the outputs are written, row by row. -/
def Perf.writeOut (p : Perf) (i : Nat) (t : TileRun) (dfmt : Nat) (outs : List (List Drained)) : Perf :=
  let chunks := outs.map (outChunks (outSize dfmt))
  if t.left.tag = .int then
    p.modSad i fun d => chunks.zipIdx.foldl (fun d q =>
      d.putOutRow (t.left.data.bits 3 0) (t.left.data.bits 11 4 + q.2) (ceilDiv (t.n * outSize dfmt * 8) 4096) q.1) d
  else (t.rows.zip chunks).foldl (fun p q => p.writeRow q.1 q.2) p

/-- R181, R185, R450: CLR zeroes the region, but for the cells of a group whose residue check fails outside a run, which stay
as they are: the region above, below, to the left and to the right of the group is zeroed. -/
def TileRun.clear (t : TileRun) (d : Saddle) : Saddle :=
  match if t.inRun then none else t.residue with
  | none => d.zeroRegion t.r0 t.c0 t.m t.n
  | some (i, g) =>
    let n := min 64 (t.n - 64 * g)
    let d1 := (d.zeroRegion t.r0 t.c0 i t.n).zeroRegion (t.r0 + i + 1) t.c0 (t.m - i - 1) t.n
    let d2 := (d1.zeroRegion (t.r0 + i) t.c0 1 (64 * g)).zeroRegion (t.r0 + i) (t.c0 + 64 * g + n) 1 (t.n - 64 * g - n)
    let holds := [engineOf (t.r0 + i) (t.c0 + 64 * g), engineOf (t.r0 + i) (t.c0 + 64 * g + n - 1)]
    ((wholeBlocks t.r0 t.c0 t.m t.n).filter fun b => !holds.contains b).foldl Saddle.zeroBlock d2

/-- R181 to R185, R151: TDR. -/
def Perf.drain (p : Perf) (i : Nat) (t : TileRun) (dfmt act : Nat) (clr bias xr xc : Bool) : Perf :=
  let p1 := (p.parity i t).residueErr t
  let d := p1.sad i
  let pb := if usesParams act bias xr xc then paramBlock d t.right.data else { bytes := [], marks := [] }
  let outs := (List.range t.m).map fun a => (List.range t.n).map fun b => t.drainCell d dfmt act bias xr xc pb a b
  let all := outs.flatMap id
  let p2 := p1.writeOut i t dfmt outs
  p2.modSad i fun d =>
    let d1 := d.stick (all.any (·.range)) (all.any (·.count)) (all.any (·.poison))
    let d2 := { d1 with status := { d1.status with dseq := d1.status.dseq + 1 } }
    if clr then t.clear d2 else d2

/-- The valid cells of group `g` of region row `i` (R157). -/
def TileRun.groupCells (t : TileRun) (d : Saddle) (i g : Nat) : List Cell :=
  (List.range (min 64 (t.n - 64 * g))).map fun m => d.cell (t.r0 + i) (t.c0 + 64 * g + m)

/-- R158: a group word. -/
def groupWord (anchor : Nat) (cs : List Cell) : Nat :=
  cs.foldl (fun a c => max a c.cnt) 0 % 2 ^ 25 + (cs.any (·.range)).toNat * 2 ^ 25 + (cs.any (·.count)).toNat * 2 ^ 26 +
  (cs.any (·.poison)).toNat * 2 ^ 27 + anchor * 2 ^ 32 + cs.length * 2 ^ 48 +
  (cs.foldl (fun (a : BitVec 64) c => a + c.s.truncate 64) 0).toNat * 2 ^ 64

/-- R157, R158: the 65 chunks of a group. -/
def TileRun.groupChunks (t : TileRun) (d : Saddle) (i g : Nat) : List Chunk :=
  let cs := t.groupCells d i g
  let bad := t.spoils i g
  (leBytes 16 (groupWord (t.shape.bits 63 52) cs), bad || cs.any (·.poison)) ::
  (List.range 64).map fun m => match cs[m]? with
    | some c => (leBytes 16 c.s.toNat, bad || c.poison)
    | none => (List.replicate 16 0, bad)

/-- R185, R186: TDW. -/
def Perf.wide (p : Perf) (i : Nat) (t : TileRun) (clr : Bool) : Perf :=
  let p1 := (p.parity i t).residueErr t
  let d := p1.sad i
  let images := (List.range t.m).map fun a => (List.range (groupsOf t.n)).flatMap fun g => t.groupChunks d a g
  let p2 := (t.rows.zip images).foldl (fun p q => p.writeRow q.1 q.2) p1
  let cells := t.cells.map fun q => d.cell q.1 q.2
  p2.modSad i fun d =>
    let d1 := d.stick (cells.any (·.range)) (cells.any (·.count)) (cells.any (·.poison) || (!t.inRun && t.residue.isSome))
    if clr then t.clear d1 else d1

/-! ## TAW (R159, R187) -/

/-- What TAW does to the valid cells of a group: the case of R159, with GCNT and the group's flags. -/
inductive TawCase where
  | spoiled | otherAnchor | add (gcnt : Nat) (range count poison : Bool)
  deriving DecidableEq, Repr

/-- R159: the case of a group of `nv` valid cells from its 65 chunks. -/
def tawCase (anchor nv : Nat) (cs : List Chunk) : TawCase :=
  let w := leNat (chunkAt cs 0).1
  let sum := (List.range nv).foldl (fun a m => a + leNat (chunkAt cs (m + 1)).1) 0
  if cs.any (·.2) || w / 2 ^ 48 % 128 ≠ nv || w / 2 ^ 64 ≠ sum % 2 ^ 64 then .spoiled
  else if w / 2 ^ 32 % 4096 ≠ anchor then .otherAnchor
  else .add (w % 2 ^ 25) (w.testBit 25) (w.testBit 26) (w.testBit 27)

/-- R159: the effect on a valid cell with the group's value `v`. -/
def Cell.taw (c : Cell) (k : TawCase) (v : Nat) : Cell :=
  match k with
  | .spoiled => { c with poison := true }
  | .otherAnchor => { c with range := true }
  | .add g r n p =>
    let cnt := min (c.cnt + g) (2 ^ 24 + 1)
    { c with s := c.s + BitVec.ofNat 128 v, cnt := cnt, range := c.range || r,
             count := c.count || n || decide (2 ^ 24 < cnt), poison := c.poison || p }

/-- R159: one group. -/
def TileRun.tawGroup (t : TileRun) (d : Saddle) (i g : Nat) (cs : List Chunk) : Saddle :=
  let nv := min 64 (t.n - 64 * g)
  let k := tawCase (t.shape.bits 63 52) nv cs
  (List.range nv).foldl (fun d m =>
    let r := t.r0 + i
    let c := t.c0 + 64 * g + m
    d.setCell r c ((d.cell r c).taw k (leNat (chunkAt cs (m + 1)).1))) d

/-- R187. -/
def Perf.addWide (p : Perf) (i : Nat) (t : TileRun) : Perf :=
  t.rows.zipIdx.foldl (fun (p : Perf) q =>
    let (cs, p1) := p.readRow 0 8 q.1
    p1.modSad i fun d => (List.range (groupsOf t.n)).foldl (fun d g =>
      t.tawGroup d q.2 g ((cs.drop (65 * g)).take 65)) d) (p.parity i t)

/-! ## Control words and TCHK (R188 to R191) -/

/-- R190: a control word. -/
def TileRec.control (t : TileRec) (n : Nat) : Word :=
  match n with
  | 0 => t.tstat
  | 1 => t.dseq
  | 2 => t.seedLo
  | _ => t.seedHi

/-- R190: the effect of a write. -/
def TileRec.setControl (t : TileRec) (n : Nat) (v : Word) : TileRec :=
  match n with
  | 0 => { t with tstat := (t.tstat &&& ~~~7) ||| (v &&& 7) }
  | 1 => { t with dseq := v }
  | 2 => { t with seedLo := v }
  | _ => { t with seedHi := v }

/-- R188: a TCHK reads a cell, of a block that its region reaches, whose parity fails. -/
def TileRun.readsBad (t : TileRun) (i : Nat) (s : State) : Bool :=
  let d := (Perf.upset ⟨s, [], []⟩ i t.hw).sad i
  (reachedBlocks t.r0 t.c0 t.m t.n).any fun b =>
    (region (b / 4 * 256) (b % 4 * 256) 256 256).any fun p => (d.cell p.1 p.2).perr ≠ 0

/-- R188, R189: the failing engines of a TCHK, with its record. -/
def Perf.check (p : Perf) (i : Nat) (t : TileRun) : Perf :=
  match (p.sad i).checkRegion t.r0 t.c0 t.m t.n with
  | 0 => p
  | m => p.err (tileErr 0x55 6 0 0 m)

/-- The effect of a tile instruction on saddle `i` (R175 to R191), but for the rein caches' invalidation. -/
def TileRun.act (t : TileRun) (i : Nat) (s : State) : Perf :=
  let p := (⟨s, [], []⟩ : Perf).upset i t.hw
  match t.k with
  | .op mem k => p.outer i t mem k
  | .tld scale => p.load i t scale
  | .tst scale => p.store i t scale
  | .tzf => p.zero i t
  | .tdr dfmt act clr bias xr xc => p.drain i t dfmt act clr bias xr xc
  | .tdw clr => p.wide i t clr
  | .taw => p.addWide i t
  | .tchk => p.check i t
  | .tewQ w | .tewD w => p.modSad i fun d => { d with status := d.status.setControl w t.left.data }
  | _ => p

/-- The effect of a tile instruction on saddle `i`: what R175 to R191 give, and R114's invalidation for the tile rows that it
writes. -/
def TileRun.perform (t : TileRun) (i : Nat) (s : State) : Perf :=
  (t.act i s).modTile fun u => u.dropReins i (t.k.tileWrites t.shape t.left t.right)

end Sys2Proof.Machine
end

