-- ==== Sys2Proof/Machine/Sequence.lean ====
section
/-! DEFINITION. The dynamic sequence of an image (R210, R211, R226, R227) and its cycle model (R173, R174, R223, R224). -/

namespace Sys2Proof.Machine

/-! ## The sequence -/

/-- The loop indices at the entry of a run. -/
def iters0 : List Nat := [0, 0, 0, 0]

/-- Words `a` to `b - 1` of run `r`; no part where there are none. -/
def partOf (r a b : Nat) : List Part :=
  if a < b then [{ run := r, first := a, last := b - 1, iters := iters0, fresh := false }] else []

def RunDesc.prologue (d : RunDesc) (r : Nat) : List Part := partOf r d.first d.pro
def RunDesc.body (d : RunDesc) (r : Nat) : List Part := partOf r d.pro d.epi
def RunDesc.epilogue (d : RunDesc) (r : Nat) : List Part := partOf r d.epi (d.last + 1)

/-- R226, R227: the sequence of the runs from run `r` on: a chained run's prologue goes before the epilogue of the run
before it. -/
def partsFrom : (r : Nat) → List RunDesc → List Part
  | _, [] => []
  | r, d :: ds =>
    (if d.chain then [] else d.prologue r) ++ d.body r ++
    (match ds with
      | e :: _ => if e.chain then e.prologue (r + 1) else []
      | [] => []) ++
    d.epilogue r ++ partsFrom (r + 1) ds

/-- The whole image. -/
def Image.parts (m : Image) : List Part := partsFrom 0 m.runs

/-- R235: run `r` alone, timed afresh from its first instruction. -/
def Image.alone (m : Image) (r : Nat) : List Part :=
  let d := m.desc r
  match d.prologue r ++ d.body r ++ d.epilogue r with
  | [] => []
  | p :: ps => { p with fresh := true } :: ps

/-- R211: where the sequence goes after word `w` of run `d`, by the loops that end there, the inner ones first: the word and
the loop indices. `none` goes on to the next word. -/
def loopBack (w : Nat) : List (Nat × Loop) → List Nat → Option Nat × List Nat
  | [], is => (none, is)
  | p :: ps, is =>
    if p.2.last = w then
      if is.getD p.1 0 + 1 < p.2.trips then (some p.2.first, is.set p.1 (is.getD p.1 0 + 1))
      else loopBack w ps (is.set p.1 0)
    else loopBack w ps is

/-- The cursor at the start of a part. -/
def Part.enter (p : Part) : Cursor := { part := p.run, word := p.first, iters := p.iters }

/-- The cursor and the parts after the instruction at the cursor. -/
def Image.advance (m : Image) (c : Cursor) (todo : List Part) : Cursor × List Part :=
  match todo with
  | [] => (c, [])
  | p :: ps =>
    match loopBack c.word (m.desc p.run).present.reverse c.iters with
    | (some w, is) => ({ c with word := w, iters := is }, { p with fresh := false } :: ps)
    | (none, is) =>
      if c.word < p.last then ({ c with word := c.word + 1, iters := is }, { p with fresh := false } :: ps)
      else match ps with
        | [] => ({ c with word := c.word + 1, iters := is }, [])
        | q :: _ => (q.enter, ps)

/-- The loop indices around the instruction at a cursor (R212). -/
def Image.indices (m : Image) (c : Cursor) : List (Nat × Nat) :=
  (m.around c.word).map fun p => (p.1, c.iters.getD p.1 0)

/-! ## The cycle model (R223) -/

/-- An instruction as the cycle model sees it. -/
structure Timed where
  run : Nat
  k : TK
  cost : Nat
  latency : Nat
  foot : Foot
  deriving DecidableEq, Repr

/-- The instruction at a cursor, with its operand values. -/
structure Ready where
  k : TK
  sh : Word
  l : TVal
  r : TVal
  deriving DecidableEq, Repr

def Image.ready (m : Image) (c : Cursor) : Ready :=
  let x := m.insn c.word
  let v := m.vals x (m.indices c)
  { k := x.k, sh := v.1.data, l := v.2.1, r := v.2.2 }

def Ready.timed (q : Ready) (run : Nat) : Timed :=
  let cost := q.k.cost q.sh q.l q.r
  { run := run, k := q.k, cost := cost, latency := cost + q.k.extra q.l, foot := q.k.foot q.sh q.l q.r }

/-- The state of the cycle model: the issue slot, the largest latency end and the started instructions that may still delay a
later one. -/
structure Clock where
  slot : Nat
  lastEnd : Nat
  started : List Started
  deriving DecidableEq, Repr

/-- The clock with which a part begins. -/
def Clock.at (k : Clock) (p : Part) : Clock :=
  if p.fresh then { slot := max k.slot k.lastEnd, lastEnd := max k.slot k.lastEnd, started := [] } else k

/-- R174, R192, R223: the start of an instruction. A TSYNC waits for the latency of every earlier one. -/
def Clock.start (k : Clock) (t : Timed) : Nat :=
  (k.started.filter fun x => t.k = .tsync || x.foot.waits t.foot).foldl (fun s x => max s (x.start + x.latency)) k.slot

/-- The clock after the start of an instruction. Those whose latency has ended by the new slot delay nothing any more. -/
def Clock.go (k : Clock) (t : Timed) : Clock :=
  let s := k.start t
  let x : Started := { run := t.run, start := s, latency := t.latency, foot := t.foot }
  { slot := s + t.cost, lastEnd := max k.lastEnd (s + t.latency),
    started := (k.started ++ [x]).filter fun y => decide (s + t.cost < y.start + y.latency) }

/-- The cycle count of a sequence, from `fuel` instructions of it (R223). -/
def Image.count (m : Image) : (fuel : Nat) → Clock → Cursor → List Part → Nat
  | 0, k, _, _ => k.lastEnd
  | fuel + 1, k, c, todo =>
    match todo with
    | [] => k.lastEnd
    | p :: _ =>
      let k1 := (k.at p).go ((m.ready c).timed p.run)
      let (c1, todo1) := m.advance c todo
      m.count fuel k1 c1 todo1

/-- How many instructions the sequence of run `r` executes. -/
def Image.length (m : Image) (r : Nat) : Nat :=
  let d := m.desc r
  ((List.range (d.last + 1 - d.first)).map fun i => ((d.around (d.first + i)).map (·.2)).foldl (· * ·) 1).sum

/-- R223: the cycle count of run `r` alone. -/
def Image.aloneCycles (m : Image) (r : Nat) : Nat :=
  match m.alone r with
  | [] => 0
  | p :: ps => m.count (m.length r) { slot := 0, lastEnd := 0, started := [] } p.enter (p :: ps)

/-! ## The cycle model of an admitted image -/

def Run.clock (r : Run) : Clock := { slot := r.slot, lastEnd := r.lastEnd, started := r.started }

/-- The instruction at the cursor. -/
def Run.ready (r : Run) : Ready := r.image.ready r.cursor

/-- The start cycle of the instruction at the cursor; the end of the image where none is left (R224). -/
def Run.boundary (r : Run) : Nat :=
  match r.todo with
  | [] => r.lastEnd
  | p :: _ => (r.clock.at p).start (r.ready.timed p.run)

/-- The charged error that was detected first (R453, R454). -/
def firstCharge : List (Nat × Nat × BitVec 8) → Option (Nat × Nat × BitVec 8)
  | [] => none
  | c :: cs =>
    match firstCharge cs with
    | none => some c
    | some d => if d.2.1 < c.2.1 ∨ (d.2.1 = c.2.1 ∧ d.1 < c.1) then some d else some c

/-- R235, R226: whether the next instruction is of a run after run `n`, and not of the prologue that run `n`'s epilogue waits
for. -/
def Run.beyond (r : Run) (n : Nat) : Bool :=
  match r.todo with
  | [] => false
  | p :: _ =>
    let d := r.image.desc p.run
    decide (n < p.run) && !(p.run = n + 1 && d.chain && decide (p.last < d.pro))

/-- The charged error that comes before the next boundary: no instruction starts from its cycle on. R235 speaks of a next
run's prologue only. An instruction of a later run outside that prologue, whose start would come before the cycle in which
an error of an earlier run that asks for a replay is detected, is withheld until after the replay as well, so that the
replay reads nothing that it has written and it reads what the replay leaves (R245; DESIGN CHOICE, log entry 112). -/
def Run.due (r : Run) : Option (Nat × Nat × BitVec 8) :=
  (firstCharge (r.charged.filter fun c => decide (c.2.1 ≤ r.boundary) || (c.2.2 = 0 && r.beyond c.1)))

/-- R225: a run of an exact image that has begun and takes longer than its CYCLES: the run and the cycle of its end. -/
def Run.overrun (r : Run) : Option (Nat × Nat) :=
  if r.image.namesVaddr then none
  else (r.runStart.map fun p => (p.1, p.2 + (r.image.desc p.1).cycles)).find? fun p =>
    decide (p.2 ≤ r.boundary) && decide ((r.image.desc p.1).cycles < r.image.aloneCycles p.1)

/-- What ends or replays the image before it reaches its next boundary. -/
inductive Halt where
  | charge (run tau : Nat) (result : BitVec 8)
  | limit (run : Nat)
  deriving DecidableEq, Repr

/-- The first of them. -/
def Run.halt (r : Run) : Option Halt :=
  match r.due, r.overrun with
  | some c, some o => if o.2 < c.2.1 then some (.limit o.1) else some (.charge c.1 c.2.1 c.2.2)
  | some c, none => some (.charge c.1 c.2.1 c.2.2)
  | none, some o => some (.limit o.1)
  | none, none => none

end Sys2Proof.Machine
end

