-- ==== Sys2Proof/Machine/Tile.lean ====
section
/-! DEFINITION. Inline tile instructions: their issue and its waits, their acceptance into the tile queue and their completion
(R171, R172, R197 to R204, R342, R501), the active saddle (R100), and the expiry of range waits (R342, R343). -/

namespace Sys2Proof.Machine

/-! ## The governor (R500, R501) -/

/-- R497, R500: twice the budget B, in milliwatts; L is the lesser of LIMIT and 430 W. -/
def State.budget2 (s : State) : Nat :=
  let b := min ((s.cfgAct 0x40 0).bits 18 0) 430000 - 55000
  match s.power.therm with
  | .normal => 2 * b
  | .throttle => b
  | .emergency => 0

/-- R501: inline issue is held back: in EMERGENCY, and once the window's energy reaches B × 1,024 ÷ 1.4 GHz. -/
def State.paced (s : State) (c : Nat) : Bool :=
  (s.admitted c).isNone && (s.power.therm = .emergency || decide (s.budget2 * 204800 ≤ s.tile.winEnergy * 28))

/-! ## Places of rows (R117, R172, R334, R342) -/

/-- The physical pieces of `n` bytes at `va`, each in one page and one granule of the attribute map; `fuel` bounds them. -/
def translateSpan (kind : Kind) : (fuel : Nat) → (va : Word) → (n : Nat) → M (List (Nat × Nat))
  | 0, _, _ => pure []
  | fuel + 1, va, n => do
    if n = 0 then return []
    let (e, pa) ← translateCur kind true va
    let v := va.bits 56 0
    let k := min n (min (2 ^ e.size - v % 2 ^ e.size) (65536 - pa % 65536))
    let rest ← translateSpan kind fuel (va + Word.ofNat k) (n - k)
    return (pa, k) :: rest

/-- R172: the rows of a VADDR operand. -/
def memRows (kind : Kind) : List (Word × Nat) → M (List Row)
  | [] => pure []
  | r :: rs => do
    let ps ← translateSpan kind (r.2 / 4096 + 2) r.1 r.2
    let rest ← memRows kind rs
    pure ({ loc := .mem, pieces := ps } :: rest)

/-- R334: the BADDR check of every interval. -/
def checkBounds (field : Nat) (rows : List (Word × Nat)) : M Unit := do
  let t := (← get).cur
  match rows.find? fun r => !t.baddrOk r.1 r.2 with
  | some r => throw (.trap 0x30 field .baddr r.1)
  | none => pure ()

/-- R342: the entries that cover an interval at relocated offsets, with their numbers. -/
def Ctx.covering (e : Ctx) (write : Bool) (lo n : Nat) : List (Nat × RangeEntry) :=
  e.ranges.filter fun p => p.2.write = write && decide (p.2.off ≤ lo) && decide (lo + n ≤ p.2.off + p.2.len)

/-- R342: RANGE_UNDECL for the first interval that no entry covers. -/
def checkDeclared (field : Nat) (c : Nat) (write : Bool) (rows : List (Word × Nat)) : M Unit := do
  let s ← get
  match rows.find? fun r => ((s.ctx c).covering write (s.cur.relocate r.1) r.2).isEmpty with
  | some r => throw (.trap 0x32 field .baddr r.1)
  | none => pure ()

/-- R342: the entries that the intervals of an operand still wait for. -/
def State.waitsFor (s : State) (c : Nat) (write : Bool) (rows : List (Word × Nat)) : List (Nat × RangeEntry) :=
  rows.filterMap fun r =>
    let es := (s.ctx c).covering write (s.cur.relocate r.1) r.2
    if es.any (·.2.granted) then none else es.head?

/-- R343, R360: whether a range overlaps, with a conflicting kind, an entry that the context holds granted. -/
def Ctx.blocks (e : Ctx) (off len : Nat) (write : Bool) : Bool :=
  e.ranges.any fun p => p.2.granted && overlaps off (off + len) p.2.off (p.2.off + p.2.len) && (write || p.2.write)

/-- R360: tval of BUFWAIT for a range. -/
def Ctx.bufwaitVal (e : Ctx) (baddr off len : Nat) (write : Bool) : Word :=
  Word.ofNat (baddr + (e.blocks off len write).toNat * 2 ^ 63)

/-- R342, R360: the first entry, in entry order, that a tile instruction waits for: the operand that needs it, and tval. -/
def State.rangeWait (s : State) (c : Nat) (k : TK) (sh : Word) (l r : TVal) : Option (Nat × Word) :=
  let asks := (s.waitsFor c k.writes (k.leftRows sh l r)).map (fun p => (5, p)) ++
    (s.waitsFor c k.writes (k.rightRows sh r)).map (fun p => (6, p))
  let first := asks.foldl (fun (b : Option (Nat × Nat × RangeEntry)) q =>
    match b with
    | none => some q
    | some p => if q.2.1 < p.2.1 then some q else some p) none
  first.map fun q => (q.1, (s.ctx c).bufwaitVal q.2.2.baddr q.2.2.off q.2.2.len q.2.2.write)

/-- R342, R343: the range wait, or BUFWAIT at once with a limit of 0. -/
def waitRange (field : Nat) (tag : Tag) (v : Word) : M Unit := do
  if (← get).cur.bwlimit.bits 31 0 = 0 then throw (.trap 0x33 field tag v) else throw (.wait .range field tag v)

/-- R342: the waits of an instruction's intervals. -/
def checkGranted (c : Nat) (k : TK) (sh : Word) (l r : TVal) : M Unit := do
  match (← get).rangeWait c k sh l r with
  | some (field, v) => waitRange field .baddr v
  | none => pure ()

/-- R333: the rows of a BADDR operand. -/
def State.bufRows (s : State) (rows : List (Word × Nat)) : List Row :=
  rows.map fun r => { loc := .buf, pieces := [(s.cur.relocate r.1, r.2)] }

/-- R172: the places of an instruction's rows, with the faults and waits of steps 6 to 8 of R87 in their order. -/
def placeRows (c : Nat) (k : TK) (sh : Word) (l r : TVal) : M (List Row × List Row) := do
  let left := k.leftRows sh l r
  let right := k.rightRows sh r
  if l.tag = .vaddr then
    let rows ← memRows (if k.writes then 2 else 1) left
    return (rows, [])
  checkBounds 5 left
  checkBounds 6 right
  checkDeclared 5 c k.writes left
  checkDeclared 6 c k.writes right
  checkGranted c k sh l r
  let s ← get
  return (s.bufRows left, s.bufRows right)

/-! ## Issue (R162 to R172) -/

/-- An instruction that has passed the checks of issue: its context, its kind and its operand values. -/
structure Issued where
  c : Nat
  k : TK
  shape : Word
  left : TVal
  right : TVal
  dest : Nat
  deriving DecidableEq, Repr

/-- R169: the trap of an operand. -/
def opTrap {α : Type} (code field : Nat) (sh l r : TVal) (v : Word) : M α :=
  throw (.trap code field (if field = 4 then sh.tag else if field = 5 then l.tag else r.tag) v)

/-- R162 to R171: the checks before the saddle take. The reserve stall holds no context, so it has no save area (DEDUCED,
log entry 35). -/
def issueTile (i : Instr) : M Issued := do
  let s ← get
  let (k, a, b, d) := (tileKind i).getD (.tsync, 0, 0, 0)
  let sh := s.cur.reg a
  let l := s.cur.reg b
  let r := s.cur.reg d
  checkTags (k.opds sh l r)
  match s.curCtx with
  | none => trapM 0x51 0
  | some c => do
    if k ≠ .tsync && k ≠ .stat && (s.admitted c).isSome then trapM 0x52 (insnWord i)
    match leastFault (k.faults sh.data l r) with
    | some (reason, field) => opTrap 0x50 field sh l r (Word.ofNat reason)
    | none => pure ()
    match (k.aligned l r).find? fun p => p.2.toNat % 16 ≠ 0 with
    | some (field, v) => opTrap 0x53 field sh l r v
    | none => pure ()
    return { c := c, k := k, shape := sh.data, left := l, right := r, dest := a }

/-- R107: the tiles that an accepted instruction puts in ZERO state: those of a TZF's tile mask. -/
def TileOp.zeroes (o : TileOp) : Word :=
  match ((tileKind o.insn).map (·.1)).getD .tsync with
  | .tzf => o.left.data &&& 0xFFFF
  | _ => 0

/-- R107, R198: a saddle with SCL and SAX as its accepted instructions will leave them. -/
def Saddle.scalesAhead (d : Saddle) : Saddle :=
  let z : Word := d.queue.foldl (fun z o => z ||| o.zeroes) 0
  { d with status := { d.status with ostate := d.status.ostate &&& ~~~((z <<< 32) ||| (z <<< 48)) } }

/-- R123, R171: the saddle take, then SHAPE_FAULT reason 0x06, judged in program order (R198): by the SCL and SAX that the
accepted instructions of the saddle leave (DEDUCED, log entry 108). -/
def issueSaddle (i : Instr) (q : Issued) : M Nat := do
  let n ← takeSaddle (← get).cur.xctx q.c
  match q.k.saxFault ((← get).sad n).scalesAhead q.shape q.left q.right with
  | some 5 => throw (.trap 0x50 5 q.left.tag 6)
  | some _ => throw (.trap 0x50 6 q.right.tag 6)
  | none => pure ()
  let _ := i
  return n

/-- R501: the governor holds the instruction back. -/
def issuePaced (q : Issued) : M Unit := do
  if (← get).paced q.c then waitM .pacing

/-- R501, R511, R123: an instruction has issued on saddle `n`: its energy, its count and its place in the issue order. -/
def State.countIssue (s : State) (n : Nat) (q : Issued) : State :=
  let t := s.tile
  let s1 := { s with tile := { t with issueSeq := t.issueSeq + 1, winEnergy := t.winEnergy + q.k.energy q.shape q.right } }
  (s1.modSad n fun d => { d with lastIssue := t.issueSeq + 1 }).pmcAdd 4 1

/-- R197 to R201: an instruction is accepted into its saddle's queue. TEW.Q, which R201 lets wait only as R199 gives, waits at
issue as the others do (R123, R501; DEDUCED, log entry 70). -/
def acceptTile (i : Instr) : M (Option Word) := do
  let q ← issueTile i
  let n ← issueSaddle i q
  let (rows, rows2) ← placeRows q.c q.k q.shape q.left q.right
  issuePaced q
  let s ← get
  if 64 ≤ (s.sad n).queue.length then waitM .queueFull
  let op : TileOp := { insn := i, shape := q.shape, left := q.left, right := q.right, rows := rows, rows2 := rows2 }
  set ((s.countIssue n q).modSad n fun d => { d with queue := d.queue ++ [op] })
  return none

/-- R117, R198, R202: the waits of an instruction that completes before it retires: for the earlier ones of its context, and
for its saddle to be active where it uses the engines. -/
def waitTurn (q : Issued) (n : Nat) (engines : Bool) : M Unit := do
  issuePaced q
  let s ← get
  if !(s.sad n).queue.isEmpty then waitM .earlier
  if engines && s.tile.active.toNat ≠ n then waitM .inactive

/-- R449, R458, R459: the records of an inline operation. -/
def Perf.inline (p : Perf) (c outcome : Nat) : State :=
  let s1 := p.errs.foldl (fun s r => s.record { r with ctx := BitVec.ofNat 16 c, outcome := BitVec.ofNat 8 outcome }) p.s
  match p.bad with
  | [] => s1
  | (src, unit, addr) :: _ => s1.record { ErrRec.mk0 0x105 src 1 (some c) with
      unit := BitVec.ofNat 16 unit, addr := Word.ofNat addr, info := Word.ofNat (min p.bad.length 0xFFFFFFFF) }

/-- The operation of an issued instruction. -/
def Issued.run (q : Issued) (rows : List Row) : TileRun :=
  { k := q.k, shape := q.shape, left := q.left, right := q.right, rows := rows, rows2 := [], inRun := false, hw := .none,
    cut := none }

/-- R117, R178, R202: an inline TLD or TST. R119: one with `cut` has moved those rows when its context takes a trap or an
alert or is switched out: they stay moved and the instruction is presented again; it counts as issued when it completes
(DESIGN CHOICE, log entry 94). -/
def transferTile (i : Instr) (cut : CutRows) : M (Option Word) := do
  let q ← issueTile i
  let n ← issueSaddle i q
  let (rows, _) ← placeRows q.c q.k q.shape q.left q.right
  waitTurn q n true
  match cut with
  | none => modify fun s => ((q.run rows).perform n (s.countIssue n q)).inline q.c 1
  | some m => do
    modify fun s => (({ q.run rows with cut := some m } : TileRun).perform n s).inline q.c 1
    waitM .transfer
  return none

/-! ## The instructions -/

def execOpaT (sh l r : Reg) (s : State) : Out := coreStep (.opaT sh l r) (acceptTile (.opaT sh l r)) s
def execOpaM (sh l r : Reg) (s : State) : Out := coreStep (.opaM sh l r) (acceptTile (.opaM sh l r)) s
def execOpkT (sh l r : Reg) (k : BitVec 6) (s : State) : Out := coreStep (.opkT sh l r k) (acceptTile (.opkT sh l r k)) s
def execOpkM (sh l r : Reg) (k : BitVec 6) (s : State) : Out := coreStep (.opkM sh l r k) (acceptTile (.opkM sh l r k)) s
def execTld (sh l r : Reg) (cut : CutRows) (s : State) : Out :=
  coreStep (.tld sh l r cut) (transferTile (.tld sh l r cut) cut) s
def execTldScale (sh l r : Reg) (cut : CutRows) (s : State) : Out :=
  coreStep (.tldScale sh l r cut) (transferTile (.tldScale sh l r cut) cut) s
def execTst (sh l r : Reg) (cut : CutRows) (s : State) : Out :=
  coreStep (.tst sh l r cut) (transferTile (.tst sh l r cut) cut) s
def execTstScale (sh l r : Reg) (cut : CutRows) (s : State) : Out :=
  coreStep (.tstScale sh l r cut) (transferTile (.tstScale sh l r cut) cut) s
def execTzf (sh l r : Reg) (s : State) : Out := coreStep (.tzf sh l r) (acceptTile (.tzf sh l r)) s
def execTdr (sh l r : Reg) (dfmt act : BitVec 3) (clr bias xr xc : Bool) (s : State) : Out :=
  coreStep (.tdr sh l r dfmt act clr bias xr xc) (acceptTile (.tdr sh l r dfmt act clr bias xr xc)) s
def execTdw (sh l r : Reg) (clr : Bool) (s : State) : Out := coreStep (.tdw sh l r clr) (acceptTile (.tdw sh l r clr)) s
def execTaw (sh l r : Reg) (s : State) : Out := coreStep (.taw sh l r) (acceptTile (.taw sh l r)) s
def execTewQ (sh l r : Reg) (w : BitVec 6) (s : State) : Out := coreStep (.tewQ sh l r w) (acceptTile (.tewQ sh l r w)) s

/-- R133, R180, R202: a release takes no saddle. The reserve stall holds no context and has none to release: there it retires
with no effect (DESIGN CHOICE, log entry 123). -/
def execTzfRelease (sh l r : Reg) (s : State) : Out :=
  coreStep (.tzfRelease sh l r) (do
    match (← get).curCtx with
    | none => pure ()
    | some _ => do
      let q ← issueTile (.tzfRelease sh l r)
      issuePaced q
      if !(← get).tileIdle (some q.c) then waitM .earlier
      modify fun s => (s.releaseTile q.c).pmcAdd 4 1
    pure none) s

/-- R188, R189. -/
def execTchk (sh l r : Reg) (s : State) : Out :=
  coreStep (.tchk sh l r) (do
    let q ← issueTile (.tchk sh l r)
    let n ← issueSaddle (.tchk sh l r) q
    waitTurn q n true
    let p := (q.run []).perform n ((← get).countIssue n q)
    set (p.inline q.c 4)
    match p.errs with
    | [] => pure none
    | e :: _ => trapM 0x55 e.info) s

/-- R192, R204. -/
def execTsync (sh l r : Reg) (s : State) : Out :=
  coreStep (.tsync sh l r) (do
    let q ← issueTile (.tsync sh l r)
    let n ← issueSaddle (.tsync sh l r) q
    waitTurn q n false
    if ((← get).admitted q.c).isSome then waitM .runEnd
    modify fun s => s.countIssue n q
    pure none) s

/-- R191. -/
def execTewR (sh l r : Reg) (w : BitVec 6) (s : State) : Out :=
  coreStep (.tewR sh l r w) (do
    let q ← issueTile (.tewR sh l r w)
    let n ← issueSaddle (.tewR sh l r w) q
    waitTurn q n false
    modify fun s => (s.countIssue n q).setReg sh (TVal.int ((s.sad n).status.control w.toNat))
    pure none) s

/-- R203: TEW.D takes BUSY while an accepted instruction has not completed. -/
def execTewD (sh l r : Reg) (w : BitVec 6) (s : State) : Out :=
  coreStep (.tewD sh l r w) (do
    let q ← issueTile (.tewD sh l r w)
    let n ← issueSaddle (.tewD sh l r w) q
    issuePaced q
    let s ← get
    if !(s.sad n).queue.isEmpty then trapM 0x54 (insnWord (.tewD sh l r w))
    set ((q.run []).perform n (s.countIssue n q)).s
    pure none) s

/-! ## Events of the tile unit -/

/-- The operation of an accepted instruction. -/
def TileOp.run (o : TileOp) (hw : HwFault) : TileRun :=
  { k := ((tileKind o.insn).map (·.1)).getD .tsync, shape := o.shape, left := o.left, right := o.right, rows := o.rows,
    rows2 := o.rows2, inRun := false, hw := hw, cut := none }

/-- R200: the oldest accepted instruction of the active saddle takes effect. -/
def execTileInsnComplete (sad : BitVec 1) (hw : HwFault) (s : State) : Out :=
  eventStep (s.tile.active = sad) (fun s =>
    match (s.sad sad.toNat).queue, (s.sad sad.toNat).owner with
    | o :: rest, some c =>
      ((o.run hw).perform sad.toNat (s.modSad sad.toNat fun d => { d with queue := rest })).inline c 1
    | _, _ => s) s

/-- R219: whether every start condition but the active saddle holds. -/
def State.runReady (s : State) (i : Nat) : Bool :=
  match s.run i with
  | none => false
  | some r =>
    r.phase = .armed && !r.pauseReq && (s.sad i).queue.isEmpty && (!r.gated || r.released) &&
    (match r.goAt with
      | some v => decide (v ≤ s.gcount)
      | none => true)

/-- R100, R230: the owner of a saddle has a tile instruction waiting at issue. -/
def State.waitsAtIssue (s : State) (i : Nat) : Bool :=
  match (s.sad i).owner with
  | some c => (((s.ctx c).waitAt).map (·.tile)).getD false
  | none => false

/-- R100: the owner of a saddle has work for the engines. -/
def State.tileWants (s : State) (i : Nat) : Bool := !(s.sad i).queue.isEmpty || s.waitsAtIssue i || s.runReady i

/-- The scheduler priority of a saddle's owner; 8 where it has none. -/
def State.sadPrio (s : State) (i : Nat) : Nat :=
  match (s.sad i).owner with
  | some c => (s.ctx c).prio.toNat
  | none => 8

/-- The phase of the image admitted on a saddle. -/
def State.runPhase (s : State) (i : Nat) : Option RunPhase := (s.run i).map (·.phase)

/-- R100, R230: whether the active saddle may change to saddle `i`. -/
def State.mayActivate (s : State) (i : Nat) : Bool :=
  s.tile.active.toNat ≠ i && s.tileWants i && s.runPhase i ≠ some .preempted && s.runPhase (1 - i) ≠ some .running &&
  (!s.tileWants (1 - i) || decide (s.sadPrio i < s.sadPrio (1 - i)))

/-- R100. -/
def execSaddleSwitch (sad : BitVec 1) (s : State) : Out :=
  eventStep (s.mayActivate sad.toNat) (fun s => s.setActive sad.toNat) s

/-- R343, R360: the first range, in image order, that an admission waits for: tval of its BUFWAIT. -/
def Ctx.askedWait (e : Ctx) : Option Word :=
  (e.askedRanges.find? fun g => !g.granted).map fun g => e.bufwaitVal g.baddr g.off g.len g.write

/-- R342, R343, R360: OPFIELD, OPTAG and tval of the BUFWAIT that a waiting instruction would take now, if it still waits for
a range. -/
def State.bufwait (s : State) (c : Nat) (w : Wait) : Option (Nat × Tag × Word) :=
  match tileKind w.insn with
  | some (.go _, _) | some (.goAt, _) => (s.ctx c).askedWait.map fun v => (0, .none, v)
  | some (k, a, b, d) => (s.rangeWait c k (s.cur.reg a).data (s.cur.reg b) (s.cur.reg d)).map fun p => (p.1, .baddr, p.2)
  | none => none

/-- R342, R343: whether the ranges that a waiting instruction waits for are still not granted. -/
def State.rangeWaits (s : State) (c : Nat) (w : Wait) : Bool := (s.bufwait c w).isSome

/-- R342, R343: the range wait of the dispatched context has passed bwlimit, and the instruction takes BUFWAIT. -/
def execBufwaitExpiry (s : State) : Out :=
  eventStep true (fun s =>
    match s.curCtx, s.curStall with
    | some c, some k =>
      match (s.ctx c).waitAt with
      | some w =>
        match s.bufwait c w with
        | some (field, tag, v) =>
          if w.why = .range ∧ aclkOf w.since + s.cur.bwlimit.bits 31 0 ≤ aclkOf s.now then
            s.abort w.insn k (some c) s.cur.pc (.trap 0x33 field tag v)
          else s
        | none => s
      | none => s
    | _, _ => s) s

end Sys2Proof.Machine
end

