-- ==== Sys2Proof/Machine/RunLoad.lean ====
section
/-! DEFINITION. The TRUN group: TRUN.LOAD (R193, R206, R207, R214), the admission of an image (R194, R195, R217, R306, R343,
R435, R500) and TRUN.STAT (R195). -/

namespace Sys2Proof.Machine

/-- R195: the code of STATE. -/
def RunSt.code : RunSt → Nat
  | .empty => 0 | .loaded => 1 | .armed => 2 | .running => 3 | .preempted => 4 | .done => 5 | .failed => 6

/-- R195: the run status word. -/
def State.runWord (s : State) (c : Nat) : Word :=
  let e := s.ctx c
  Word.ofNat (e.runSt.code + e.runLate.toNat * 8 + (if (s.admitted c).isSome then 0 else e.runResult.toNat) * 256)

/-! ## TRUN.LOAD -/

/-- RUN_IMAGE (R214). -/
def refuseImage {α : Type} (reason : Nat) : M α := trapM 0x56 (Word.ofNat reason)

/-- The chunks of `n` bytes at the image's base, which is a multiple of 256 (R193). -/
def imageRows (base : TVal) (n : Nat) : M (List Row) := do
  if base.tag = .vaddr then memRows 1 [(base.data, 16 * ceilDiv n 16)]
  else
    checkBounds 5 [(base.data, n)]
    let s ← get
    return [{ loc := .buf, pieces := [(s.cur.relocate base.data, 16 * ceilDiv n 16)] }]

/-- The bytes of `n` bytes of the image, with the errors and poisoned chunks that the ports report. -/
def readImage (c : Nat) (base : TVal) (n : Nat) : M (List Byte) := do
  let rows ← imageRows base n
  let s ← get
  let (cs, p) := (⟨s, [], []⟩ : Perf).readRows 0 8 rows
  set (p.inline c 1)
  return (chunkBytes cs).take n

/-- R206: the segments that an image occupies. -/
def Image.segments (m : Image) : Nat := ceilDiv m.words.length 256

/-- R207: the loaded image of another context that goes first: the least recently loaded one without an admitted run. -/
def State.evictable (s : State) (c : Nat) (t : Tbl Image) : Option Nat :=
  (t.foldl (fun (b : Option (Nat × Nat)) p =>
    if p.1 = c ∨ (s.admitted p.1).isSome then b
    else match b with
      | some q => if q.2 ≤ p.2.loadedAt then b else some (p.1, p.2.loadedAt)
      | none => some (p.1, p.2.loadedAt)) none).map (·.1)

/-- R206, R207: images are evicted until one of `need` segments has room: what stays, and the contexts that lose theirs;
`fuel` bounds the evictions. -/
def State.makeRoom (s : State) (c need : Nat) : (fuel : Nat) → Tbl Image → Option (Tbl Image × List Nat)
  | 0, _ => none
  | fuel + 1, t =>
    if t.length < 8 ∧ (t.map fun p => p.2.segments).sum + need ≤ 256 then some (t, [])
    else match s.evictable c t with
      | none => none
      | some v => (s.makeRoom c need fuel (t.del v)).map fun r => (r.1, v :: r.2)

/-- R193, R207: the image becomes the context's loaded image. -/
def State.setImage (s : State) (c : Nat) (t : Tbl Image) (gone : List Nat) (m : Image) : State :=
  let s1 := gone.foldl (fun s v => s.modCtx v fun e => { e with runSt := .empty }) s
  let s2 := { s1 with runs := { s1.runs with images := t.set c m, loadSeq := s1.runs.loadSeq + 1 } }
  s2.modCtx c fun e => { e with runSt := .loaded }

/-! ### R105 at load -/

/-- Loops of more than 16 trips go round twice: at their first and their last index. A tile number moves in none of them (R213). -/
def Image.short (m : Image) : Image :=
  { m with runs := m.runs.map fun d => { d with loops := d.loops.map fun l => { l with trips := if 16 < l.trips then 2 else l.trips } } }

/-- The loop indices of the image that those of its short form stand for. -/
def Image.stretch (m : Image) (w : Nat) (is : List (Nat × Nat)) : List (Nat × Nat) :=
  is.map fun p => match (m.around w).find? fun q => q.1 = p.1 with
    | some q => if 16 < q.2 ∧ p.2 ≠ 0 then (p.1, q.2 - 1) else p
    | none => p

/-- R104, R107: SCL and SAX after an instruction. -/
def Saddle.scaleStep (d : Saddle) (k : TK) (sh : Word) (l r : TVal) : Saddle :=
  match k with
  | .tld true => d.setScale (twTile r.data) (sh.bit 48)
  | .tzf => ((List.range 16).filter fun n => l.data.bit n).foldl Saddle.zeroTile d
  | _ => d

/-- R105: the image's instructions in their order, `short` being its short form; `fuel` bounds them. -/
def Image.scaleWalk (m short : Image) : (fuel : Nat) → Saddle → Cursor → List Part → Bool
  | 0, _, _, _ => true
  | fuel + 1, d, c, todo =>
    match todo with
    | [] => true
    | _ :: _ =>
      let x := m.insn c.word
      let v := m.vals x (m.stretch c.word (short.indices c))
      let (c1, todo1) := short.advance c todo
      (x.k.saxFault d v.1.data v.2.1 v.2.2).isNone && m.scaleWalk short fuel (d.scaleStep x.k v.1.data v.2.1 v.2.2) c1 todo1

/-- R105, R110, R214, R222: no MXFP4 product of the image reads a tile in an orientation other than its SAX while SCL is 1, with
the tile state that TRUN.LOAD finds (DEDUCED, log entry 105). -/
def Image.scalesOk (m : Image) (d : Saddle) : Bool :=
  let short := m.short
  match short.parts with
  | [] => true
  | p :: ps => m.scaleWalk short (((List.range m.runs.length).map short.length).sum) d p.enter (p :: ps)

/-- R193, R214: the checks of an image in their order, and its loading. -/
def loadImage (c : Nat) (base : TVal) : M Unit := do
  if base.data.toNat % 256 ≠ 0 then refuseImage 1
  let h ← readImage c base 64
  if le h 0 4 ≠ 0x4E555254 || le h 4 2 ≠ 3 then refuseImage 1
  let n := Counts.of h
  if !n.ok then refuseImage 3
  let bs ← readImage c base (n.crcAt + 4)
  let s ← get
  let m := Image.parse bs s.runs.loadSeq
  match m.refusedEarly bs (((s.sadOf c).map fun i => m.scalesOk (s.sad i)).getD true) with
  | some r => refuseImage r
  | none => pure ()
  match s.makeRoom c m.segments 9 (s.runs.images.del c) with
  | none => refuseImage 0xC
  | some (t, gone) => do
    if m.total = 0 then set { s with free := s.free + 1 }
    match m.refusedLate (Config.freeWord s.free).toNat with
    | some r => refuseImage r
    | none => modify fun s => s.setImage c t gone m

def execTrunLoad (sh l r : Reg) (s : State) : Out :=
  coreStep (.trunLoad sh l r) (do
    let q ← issueTile (.trunLoad sh l r)
    let n ← issueSaddle (.trunLoad sh l r) q
    waitTurn q n false
    loadImage q.c q.left
    modify fun s => s.countIssue n q
    pure none) s

/-! ## Admission (R217) -/

/-- R306: the access kind of a pin as tval gives it (R295). -/
def Pin.kind (p : Pin) : Nat := p.rd.toNat + 2 * p.wr.toNat

/-- R306: whether a leaf serves a pin: its mode, its rights and its keys, and the whole range. -/
def Pin.served (p : Pin) (x : XCtx) (e : TlbEntry) : Bool :=
  let k := x.rights e.key
  (x.sys || e.svc) && (!p.rd || (e.rd && decide (k < 2))) && (!p.wr || (e.wr && k = 0)) &&
  decide (e.base ≤ p.va) && decide (p.va + 2 ^ p.size ≤ e.base + 2 ^ e.size)

/-- R217 step 3, R306: one pin. -/
def takePin (x : XCtx) (c : Nat) (p : Pin) : M HeldPin := do
  let va := Word.ofNat p.va
  let e ← lookup x p.kind true va c
  if !p.served x e then trapM 0x28 (xlateTval va e.level p.kind true)
  let pa := e.pa p.va
  if !(← get).allMemory pa (2 ^ p.size) then trapM 0x27 (xlateTval va e.level p.kind true)
  pure { va := p.va, size := p.size, pa := pa, rd := p.rd, wr := p.wr }

/-- R217 step 3: every pin. -/
def takePins (x : XCtx) (c : Nat) : List Pin → M (List HeldPin)
  | [] => pure []
  | p :: ps => do
    let h ← takePin x c p
    let hs ← takePins x c ps
    pure (h :: hs)

/-- R343: every image range is checked, then acquired. -/
def State.askRange (s : State) (c i : Nat) (g : BufRange) : State :=
  let off := s.cur.relocate (Word.ofNat g.base)
  let (ok, tag, b) := s.buf.acquire off (off + g.len) g.write (.admission c i)
  let r : HeldRange := { off := off, len := g.len, baddr := g.base, write := g.write, granted := ok, tag := tag }
  ({ s with buf := b }).modCtx c fun e => { e with askedRanges := e.askedRanges ++ [r] }

/-- R217 step 4, R343: the ranges of the image, asked for once, and the wait for them. -/
def takeRanges (c : Nat) (gs : List BufRange) : M Unit := do
  let s ← get
  match gs.find? fun g => !s.cur.baddrOk (Word.ofNat g.base) g.len with
  | some g => throw (.trap 0x30 0 .none (Word.ofNat g.base))
  | none => pure ()
  if (s.ctx c).askedRanges.isEmpty then set (gs.zipIdx.foldl (fun s p => s.askRange c p.2 p.1) s)
  match ((← get).ctx c).askedWait with
  | none => pure ()
  | some v => waitRange 0 .none v

/-- The control words of a record (R242). -/
def snapOf (t : TileRec) : Snap := { tstat := t.tstat, dseq := t.dseq, seedLo := t.seedLo, seedHi := t.seedHi }

/-- R217 step 6: the image is admitted on saddle `n`. -/
def State.admitRun (s : State) (c n : Nat) (m : Image) (pins : List HeldPin) (gate : Bool) (at' : Option Word) : State :=
  -- R380: a release that is due comes before the arrival of a gated one, which belongs to the next epoch
  let s := if gate && s.releaseDue then s.releaseGate else s
  let reached := match at' with
    | some v => decide (v ≤ s.gcount)
    | none => false
  let parts := m.parts
  let r : Run :=
    { ctx := c, image := m, phase := .armed, pins := pins, ranges := (s.ctx c).askedRanges, gated := gate, released := false,
      goAt := at', metAt := if reached then some s.now else none, late := reached,
      cursor := match parts with
        | p :: _ => p.enter
        | [] => { part := 0, word := 0, iters := iters0 }
      todo := parts, slot := 0, lastEnd := 0, started := [], runStart := [], snaps := [(0, snapOf (s.sad n).status)], ends := [],
      replayed := [], charged := [], poisonIn := none, abandon := none, pauseReq := false, parkReq := false,
      holdBack := false, preempts := 0, goCount := 0, dropImage := false }
  (s.setRun n (some r)).modCtx c fun e => { e with askedRanges := [], runSt := .armed, runResult := 0 }

/-- R435, R504: admissions are held between steps 2 and 3. -/
def State.admissionHeld (s : State) : Bool := s.power.pfail || s.bridle.commit.any fun c => c.hold && s.stagedAll c

/-- R500: whether the governor admits an image of class `e`. -/
def State.governorAdmits (s : State) (e : Nat) : Bool := decide (50000 * e ≤ s.budget2)

/-- R498, R500: the context's waiting instruction `i` has come to step 5 of R217. -/
def State.inStep5 (s : State) (c : Nat) (i : Instr) : Bool :=
  ((s.ctx c).waitAt.map fun w => (w.insn, w.why)) = some (i, .governor)

/-- R217: the steps of an admission after those of issue. `i` is the instruction. The admission of a gated one is an
arrival (R380). -/
def admitImage (i : Instr) (q : Issued) (gate : Bool) (at' : Option Word) : M Unit := do
  let s ← get
  match s.runs.images.find? fun p => p.1 = q.c with
  | none => trapM 0x57 (s.runWord q.c)
  | some (_, m) => do
    let n ← issueSaddle i q
    let s ← get
    if !s.inStep5 q.c i then do
      issuePaced q
      if s.admissionHeld then waitM .hold
    let pins ← takePins (← get).cur.xctx q.c m.pins
    if ((← get).ctx q.c).waitAt.map (·.insn) ≠ some i then modify fun s => s.abandonWait q.c
    takeRanges q.c m.ranges
    let s ← get
    if s.power.pfail || !s.governorAdmits (m.energy % 16) then waitM .governor
    modify fun s => (s.admitRun q.c n m pins gate at').countIssue n q
    if gate then modify fun s => s.arrive q.c

def execTrunGo (sh l r : Reg) (gate : Bool) (s : State) : Out :=
  coreStep (.trunGo sh l r gate) (do
    let q ← issueTile (.trunGo sh l r gate)
    admitImage (.trunGo sh l r gate) q gate none
    pure none) s

def execTrunGoAt (sh l r : Reg) (s : State) : Out :=
  coreStep (.trunGoAt sh l r) (do
    let q ← issueTile (.trunGoAt sh l r)
    admitImage (.trunGoAt sh l r) q false (some q.right.data)
    pure none) s

/-- R195. -/
def execTrunStat (sh l r : Reg) (s : State) : Out :=
  coreStep (.trunStat sh l r) (do
    let q ← issueTile (.trunStat sh l r)
    let n ← issueSaddle (.trunStat sh l r) q
    issuePaced q
    modify fun s => (s.countIssue n q).setReg sh (TVal.int (s.runWord q.c))
    pure none) s

end Sys2Proof.Machine
end

