-- ==== Sys2Proof/Machine/RunEvent.lean ====
section
/-! DEFINITION. The events of a sealed run: its start, its instructions, replay, completion, the timing limit, preemption,
pause, park, resume and abandonment (R219 to R244, R452 to R455). -/

namespace Sys2Proof.Machine

/-! ## Start (R219) -/

/-- R219: LATE: cycle 0 falls after the first ACLK that follows the counter value or the gate release. -/
def Run.startsLate (r : Run) (now : Nat) : Bool :=
  r.late || match r.metAt with
    | some t => decide (aclkOf t + 1 < aclkOf now)
    | none => false

/-- R219: cycle 0 of the image admitted on saddle `i`. The snapshot of its first run holds what the context's earlier
instructions, which have all completed (R198), left in the control words (R242, R245). -/
def State.startRun (s : State) (i : Nat) : State :=
  match s.run i with
  | none => s
  | some r =>
    let snaps := r.snaps.set 0 (snapOf (s.sad i).status)
    (s.setRun i (some { r with phase := .running, goCount := s.gcount, snaps := snaps })).modCtx r.ctx fun e =>
      { e with runSt := .running, runLate := if r.gated || r.goAt.isSome then r.startsLate s.now else e.runLate }

def execRunStart (sad : BitVec 1) (s : State) : Out :=
  eventStep (s.tile.active = sad && s.runReady sad.toNat) (fun s => s.startRun sad.toNat) s

/-! ## Boundaries (R224, R230) -/

/-- R230: a preemption of the image on saddle `i` is due. -/
def State.preemptDue (s : State) (i : Nat) : Bool :=
  s.sadPrio i ≠ 0 && s.sadPrio (1 - i) = 0 && (s.waitsAtIssue (1 - i) || s.runReady (1 - i))

/-- The image on saddle `i` is running and its saddle is active. -/
def State.runsNow (s : State) (i : Nat) : Option Run :=
  (s.run i).filter fun r => r.phase = .running && s.tile.active.toNat = i

/-- Whether the sequencer starts the next instruction of the image on saddle `i`: nothing has to be done at the boundary. -/
def State.mayStart (s : State) (i : Nat) : Bool :=
  match s.runsNow i with
  | none => false
  | some r => r.halt.isNone && r.abandon.isNone && !r.pauseReq && !s.preemptDue i && !r.todo.isEmpty

/-! ## Instructions (R222, R223, R452) -/

/-- R220: the place of a row through the pins. -/
def Run.memRow (r : Run) (write : Bool) (p : Word × Nat) : Row :=
  let a := p.1.toNat
  match r.pins.find? fun h => decide (h.va ≤ a) && decide (a + p.2 ≤ h.va + 2 ^ h.size) && (if write then h.wr else h.rd) with
  | some h => { loc := .mem, pieces := [(h.pa + (a - h.va), p.2)] }
  | none => { loc := .mem, pieces := [] }

/-- R221, R343: the place of a row in the ranges, relocated as at admission. -/
def Run.bufRow (r : Run) (write : Bool) (p : Word × Nat) : Row :=
  let a := p.1.toNat
  match r.ranges.find? fun h => decide (h.baddr ≤ a) && decide (a + p.2 ≤ h.baddr + h.len) && h.write = write with
  | some h => { loc := .buf, pieces := [(h.off + (a - h.baddr), p.2)] }
  | none => { loc := .buf, pieces := [] }

/-- The operation of the instruction at the cursor. -/
def Run.operation (r : Run) (hw : HwFault) : TileRun :=
  let q := r.ready
  let place := if q.l.tag = .vaddr then r.memRow q.k.writes else r.bufRow q.k.writes
  { k := q.k, shape := q.sh, left := q.l, right := q.r, rows := (q.k.leftRows q.sh q.l q.r).map place,
    rows2 := (q.k.rightRows q.sh q.r).map place, inRun := true, hw := hw, cut := none }

/-- R453: what an error with record code `code` charged to run `n` asks for: 0 a replay, else the RESULT that ends the image. -/
def Run.verdict (r : Run) (n code : Nat) : BitVec 8 :=
  if code = 0x106 || code = 0x102 || !(r.image.desc n).replayable then 3 else if r.replayed.contains n then 4 else 0

/-- R456, R458: the record of an error charged to run `n` at image cycle `tau`. -/
def Run.errorRecord (r : Run) (n tau : Nat) (verdict : BitVec 8) (e : ErrRec) : ErrRec :=
  { e with
    ctx := BitVec.ofNat 16 r.ctx, outcome := if verdict = 0 then 2 else 3,
    rflags := if r.replayed.contains n then 6 else 4, imgcrc := r.image.crc, runix := BitVec.ofNat 8 n,
    tau := BitVec.ofNat 32 (tau - Tbl.get 0 r.runStart n), items := if verdict = 0 then 0 else 1 }

/-- R452 to R454: errors detected by the instruction that starts at `start`, `after` cycles later and by its latency end.
When an instruction detects an error is not given by the spec but for a TCHK's sums: `after` comes with the command (DESIGN
CHOICE, log entry 109). -/
def State.chargeErrors (s : State) (r : Run) (n start latency after : Nat) (es : List ErrRec) : State × Run :=
  es.foldl (fun (a : State × Run) e =>
    let tau := start + min after latency
    let v := a.2.verdict n e.code.toNat
    (a.1.record (a.2.errorRecord n tau v e), { a.2 with charged := a.2.charged ++ [(n, tau, v)] })) (s, r)

/-- R459: poisoned chunks that the image receives. -/
def Run.addPoison (r : Run) (bad : List (Nat × Nat × Nat)) : Run :=
  match bad with
  | [] => r
  | (src, unit, a) :: _ =>
    match r.poisonIn with
    | none => { r with poisonIn := some (src, unit, a, bad.length) }
    | some (u, v, b, n) => { r with poisonIn := some (u, v, b, n + bad.length) }

/-- A snapshot after an instruction of another run that changed the control words from `old` to `new`: the bits of TSTAT that
it changed, its advance of DSEQ, and a seed word that it wrote. -/
def Snap.follow (v : Snap) (old new : TileRec) : Snap :=
  let changed := old.tstat ^^^ new.tstat
  { tstat := (v.tstat &&& ~~~changed) ||| (new.tstat &&& changed), dseq := v.dseq + (new.dseq - old.dseq),
    seedLo := if new.seedLo = old.seedLo then v.seedLo else new.seedLo,
    seedHi := if new.seedHi = old.seedHi then v.seedHi else new.seedHi }

/-- R242, R245, R235: the snapshots of the other runs that have begun follow the control words that an instruction of run `n`
changes: a replay undoes only what its own run has done (DEDUCED, log entry 37). -/
def Run.followSnaps (r : Run) (n : Nat) (old new : TileRec) : Run :=
  { r with snaps := r.snaps.mapVals fun k v => if k ≠ n then v.follow old new else v }

/-- R242: run `n` begins at cycle `start`. -/
def Run.beginRun (r : Run) (n start : Nat) (t : TileRec) : Run :=
  if r.runStart.any fun p => p.1 = n then r
  else { r with runStart := r.runStart.set n start,
                snaps := if r.snaps.any fun p => p.1 = n then r.snaps else r.snaps.set n (snapOf t) }

/-- R455: the run buffer delivers an uncorrectable word: the instruction does not start. Where in the array the error lies
and its syndrome are free values (DESIGN CHOICE, log entry 38). -/
def State.runBufError (s : State) (i : Nat) (r : Run) (n start : Nat) : State :=
  let e := { ErrRec.mk0 0x102 8 3 (some r.ctx) with
    unit := (Config.freeWord s.free).truncate 16, addr := Config.freeWord (s.free + 1),
    info := Word.ofNat ((Config.freeWord (s.free + 2)).bits 15 0) }
  let (s1, r1) := { s with free := s.free + 3 }.chargeErrors r n start 0 0 [e]
  s1.setRun i (some { r1 with dropImage := true })

/-- R453: a corrected word of the run buffer has no effect beyond its record. -/
def State.runBufCorrected (s : State) (r : Run) (n start : Nat) (hw : HwFault) : State :=
  if hw = .runBufCe then
    let e := { ErrRec.mk0 0x101 8 0 (some r.ctx) with
      unit := (Config.freeWord s.free).truncate 16, addr := Config.freeWord (s.free + 1),
      info := Word.ofNat ((Config.freeWord (s.free + 2)).bits 15 0), rflags := if r.replayed.contains n then 6 else 4,
      imgcrc := r.image.crc, runix := BitVec.ofNat 8 n, tau := BitVec.ofNat 32 (start - Tbl.get start r.runStart n) }
    { s with free := s.free + 3 }.record e
  else s

/-- R235: an instruction of run `n` has started: the run is not quiet before its latency end. -/
def Run.endsBy (r : Run) (n tau : Nat) : Run := { r with ends := r.ends.set n (max (Tbl.get 0 r.ends n) tau) }

/-- R188, R453: when an instruction detects its errors, counted from its start: a TCHK that reads no cell with a failing parity
finds a mismatch of its sums at its latency end. -/
def TileRun.detects (t : TileRun) (i : Nat) (s : State) (latency after : Nat) : Nat :=
  match t.k with
  | .tchk => if t.readsBad i s then after else latency
  | _ => after

/-- R223, R459: the instruction at the cursor starts on saddle `i` and takes effect; an error that it detects is detected
`after` cycles after its start. Records of one ACLK are written in the order of SRC: that of a corrected word of the run
buffer (8) follows those of the cells and drains detected as the instruction starts. -/
def State.startInsn (s : State) (i : Nat) (hw : HwFault) (after : Nat) : State :=
  match s.run i with
  | none => s
  | some r =>
    match r.todo with
    | [] => s
    | p :: _ =>
      let k := r.clock.at p
      let t := r.ready.timed p.run
      let start := k.start t
      let old := (s.sad i).status
      let r1 := r.beginRun p.run start old
      if hw = .runBufUe then s.runBufError i r1 p.run start
      else
        let op := r1.operation hw
        let pf := op.perform i s
        let det := op.detects i s t.latency after
        let first := fun (e : ErrRec) => min det t.latency = 0 && decide (e.src.toNat < 8)
        let c := r1.image.advance r1.cursor r1.todo
        let k1 := k.go t
        let r2 := { r1 with cursor := c.1, todo := c.2, slot := k1.slot, lastEnd := k1.lastEnd, started := k1.started }
        let r3 := ((r2.addPoison pf.bad).followSnaps p.run old (pf.s.sad i).status).endsBy p.run (start + t.latency)
        let (s1, r4) := pf.s.chargeErrors r3 p.run start t.latency det (pf.errs.filter first)
        let (s2, r5) := (s1.runBufCorrected r1 p.run start hw).chargeErrors r4 p.run start t.latency det
          (pf.errs.filter fun e => !first e)
        s2.setRun i (some r5)

def execRunInsnStart (sad : BitVec 1) (hw : HwFault) (after : BitVec 32) (s : State) : Out :=
  eventStep (s.mayStart sad.toNat) (fun s => s.startInsn sad.toNat hw after.toNat) s

/-! ## Replay (R235) -/

/-- R235 step 2: the cycle by which every started instruction of run `n` has completed. -/
def Run.quiet (r : Run) (n tau : Nat) : Nat := max tau (Tbl.get 0 r.ends n)

/-- The parts that have not started, the first of them from the cursor on. -/
def Run.rest (r : Run) : List Part :=
  match r.todo with
  | [] => []
  | p :: ps => { p with first := r.cursor.word, iters := r.cursor.iters } :: ps

/-- Parts that are timed afresh: every earlier instruction is complete when the first of them begins. -/
def freshParts : List Part → List Part
  | [] => []
  | p :: ps => { p with fresh := true } :: ps

/-- R235: the parts up to the end of the replay of run `n`. What is left of earlier runs, an epilogue that the run's own
prologue has overtaken, comes before it, as in the plain order (R228). -/
def Run.replayHead (r : Run) (n : Nat) : List Part :=
  freshParts (r.rest.filter fun p => decide (p.run < n)) ++ r.image.alone n

/-- R235: the replay, and after it what is left of later runs, each part timed afresh from the end of what precedes. -/
def Run.replayParts (r : Run) (n : Nat) : List Part := r.replayHead n ++ freshParts (r.rest.filter fun p => decide (n < p.run))

/-- R235 step 4: the cycle at which a replay of run `n` whose first part begins at `slot` ends. -/
def Run.replayEnd (r : Run) (n slot : Nat) : Nat :=
  match r.replayHead n with
  | [] => slot
  | p :: ps =>
    r.image.count (((List.range (n + 1)).map r.image.length).sum) { slot := slot, lastEnd := slot, started := [] } p.enter (p :: ps)

/-- R235, R454: run `n` is executed again after an error detected at `tau`. R225: the active cycles of a later run whose
prologue has begun do not count the replay. R235, R236: a replay of a later run comes after this one. -/
def Run.replay (r : Run) (n tau : Nat) : Run :=
  let quiet := r.quiet n tau
  let slot := quiet + 64
  let fin := r.replayEnd n slot
  let todo := r.replayParts n
  { r with
    cursor := match todo with
      | p :: _ => p.enter
      | [] => r.cursor
    todo := todo, slot := slot, lastEnd := slot, started := [],
    runStart := (r.runStart.del n).mapVals fun k t => if n < k then t + (fin - quiet) else t,
    replayed := r.replayed ++ [n],
    charged := (r.charged.filter fun c => c.1 ≠ n).map fun c => if n < c.1 ∧ c.2.2 = 0 then (c.1, max c.2.1 fin, c.2.2) else c }

/-- R242: the control words of a snapshot. -/
def Snap.restore (v : Snap) (t : TileRec) : TileRec :=
  { t with tstat := v.tstat, dseq := v.dseq, seedLo := v.seedLo, seedHi := v.seedHi }

def Run.snap (r : Run) (n : Nat) (t : TileRec) : Snap := Tbl.get (snapOf t) r.snaps n

/-- R235 steps 2 to 4. -/
def State.replayRun (s : State) (i : Nat) : State :=
  match s.run i with
  | none => s
  | some r =>
    match r.halt with
    | some (.charge n tau v) =>
      if v = 0 ∧ r.abandon.isNone then
        ((s.modSad i fun d => { d with status := (r.snap n d.status).restore d.status }).setRun i (some (r.replay n tau))).pmcAdd 6 1
      else s
    | _ => s

def execRunReplay (sad : BitVec 1) (s : State) : Out :=
  eventStep (s.runsNow sad.toNat).isSome (fun s => s.replayRun sad.toNat) s

/-! ## The end of an image (R223, R225, R243, R244, R453) -/

/-- R243: RESULT and the index of the run that sets it, when every run ended well. -/
def Run.goodEnd (r : Run) : BitVec 8 × Nat :=
  match r.replayed with
  | [] => (1, r.image.runs.length - 1)
  | n :: ns => (2, ns.foldl max n)

/-- R223, R453: the end of an image whose last instruction has completed, or that fails on a charged error. R243: the run that
the error is charged to is reported, though the epilogue of the run before it may be pending (DESIGN CHOICE, log entry 117). -/
def State.completeRun (s : State) (i : Nat) : State :=
  match s.run i with
  | none => s
  | some r =>
    match r.halt with
    | some (.charge n _ v) => if v ≠ 0 then s.endRun i v n else s
    | some (.limit _) => s
    | none => if r.todo.isEmpty ∧ r.abandon.isNone then s.endRun i r.goodEnd.1 r.goodEnd.2 else s

def execRunEnd (sad : BitVec 1) (s : State) : Out :=
  eventStep (s.runsNow sad.toNat).isSome (fun s => s.completeRun sad.toNat) s

/-- R225: the limit of an exact run is a matter of its cycle model; that of a memory-timed one is reached when its ports have
taken that long, which only the event tells. -/
def State.limitRun (s : State) (i : Nat) : State :=
  match s.run i with
  | none => s
  | some r =>
    match r.halt with
    | some (.limit n) => s.endRun i 5 n
    | some (.charge ..) => s
    | none => if r.image.namesVaddr then s.endRun i 5 r.firstOpen else s

def execRunTimingLimit (sad : BitVec 1) (s : State) : Out :=
  eventStep (s.runsNow sad.toNat).isSome (fun s => s.limitRun sad.toNat) s

/-- R244: an abandonment takes effect, unless the image fails on an error detected before the boundary. -/
def State.takeAbandon (s : State) (i : Nat) : State :=
  match s.run i with
  | none => s
  | some r =>
    match r.abandon, r.halt with
    | some v, none => s.endRun i v r.firstOpen
    | some v, some (.charge _ _ w) => if w = 0 then s.endRun i v r.firstOpen else s
    | _, _ => s

def execRunAbandon (sad : BitVec 1) (s : State) : Out := eventStep true (fun s => s.takeAbandon sad.toNat) s

/-! ## Preemption (R230, R231) -/

/-- R231: the switch-out of the image on saddle `i`. -/
def State.switchOut (s : State) (i : Nat) : State :=
  match s.runsNow i with
  | none => s
  | some r =>
    if r.halt.isNone && r.abandon.isNone && !r.pauseReq && !r.todo.isEmpty && s.preemptDue i then
      let s1 := s.setRun i (some { r with phase := .preempted, preempts := r.preempts + 1 })
      (s1.setActive (1 - i)).modCtx r.ctx fun e => { e with runSt := .preempted }
    else s

def execPreemptSwitchOut (sad : BitVec 1) (s : State) : Out := eventStep true (fun s => s.switchOut sad.toNat) s

/-- R231: the saddle other than `i` has no work: no tile instruction waits, and no image runs or is ready to start. -/
def State.otherQuiet (s : State) (i : Nat) : Bool :=
  !s.tileWants (1 - i) && s.runPhase (1 - i) ≠ some .running

/-- R231, R443: the switch back. -/
def State.switchBack (s : State) (i : Nat) : State :=
  match s.run i with
  | none => s
  | some r =>
    if r.phase = .preempted && !r.holdBack && s.otherQuiet i then
      let s1 := s.setRun i (some { r with phase := .running })
      (s1.setActive i).modCtx r.ctx fun e => { e with runSt := .running }
    else s

def execPreemptSwitchBack (sad : BitVec 1) (s : State) : Out := eventStep true (fun s => s.switchBack sad.toNat) s

/-! ## Pause (R237) -/

/-- R237: at the boundary the started instructions complete, and the rest is timed with each of them complete. -/
def Run.pause (r : Run) : Run :=
  let b := r.boundary
  { r with
    phase := .paused, pauseReq := false, holdBack := false, slot := b, lastEnd := b, started := [],
    todo := match r.todo with
      | [] => []
      | p :: ps => { p with fresh := false } :: ps }

/-- R237: a requested pause is taken. -/
def State.takePause (s : State) (i : Nat) : State :=
  match s.runsNow i with
  | none => s
  | some r =>
    if r.pauseReq && r.halt.isNone && r.abandon.isNone && !r.todo.isEmpty then
      (s.setRun i (some r.pause)).modCtx r.ctx fun e => { e with runSt := .preempted }
    else s

def execRunPauseTaken (sad : BitVec 1) (s : State) : Out := eventStep true (fun s => s.takePause sad.toNat) s

/-- R237, R239: the image on saddle `i` continues: at once where its saddle is active, else at the switch back. -/
def State.continueRun (s : State) (i : Nat) (r : Run) : State :=
  if s.tile.active.toNat = i then
    (s.setRun i (some { r with phase := .running, holdBack := false })).modCtx r.ctx fun e => { e with runSt := .running }
  else s.setRun i (some { r with phase := .preempted, holdBack := false })

/-! ## Park and resume (R238 to R240) -/

/-- The withheld instruction's active cycle within its run (R240, R443). -/
def Run.tau (r : Run) : Nat := r.boundary - Tbl.get r.boundary r.runStart r.cursor.part

/-- R240: RUNSTATE. -/
def Run.stateBytes (r : Run) (t : TileRec) : List Byte :=
  let v := r.snap r.cursor.part t
  leBytes 4 r.image.crc.toNat ++ leBytes 1 r.cursor.part ++ leBytes 1 (r.replayed.contains r.cursor.part).toNat ++ leBytes 2 0 ++
  leBytes 4 r.cursor.word ++ leBytes 4 r.tau ++ ((List.range 4).flatMap fun l => leBytes 4 (r.cursor.iters.getD l 0)) ++
  leBytes 4 r.preempts ++ leBytes 4 0 ++ leBytes 8 v.tstat.toNat ++ leBytes 8 v.dseq.toNat ++ leBytes 8 v.seedLo.toNat ++
  leBytes 8 v.seedHi.toNat ++ leBytes 8 r.goCount.toNat ++ leBytes 80 0

/-- R238: the paused or armed image on saddle `i` is parked: the spill with RUNSTATE, and the release of the pins. -/
def State.parkRun (s : State) (i : Nat) : State :=
  match s.run i with
  | none => s
  | some r0 =>
    let r := if r0.phase = .armed then r0 else r0.pause
    let s1 := (s.spill i (r.stateBytes (s.sad i).status)).setRun i none
    { s1 with runs := { s1.runs with
      parked := s1.runs.parked.set r.ctx { r with phase := .parked, pins := [], parkReq := false, pauseReq := false } } }

/-- R239: whether RUNSTATE matches the loaded image. -/
def Run.stateOk (r : Run) (bs : List Byte) : Bool :=
  let n := le bs 4 1
  let d := r.image.desc n
  le bs 0 4 = r.image.crc.toNat && n = r.cursor.part && decide (d.first ≤ le bs 8 4) && decide (le bs 8 4 ≤ d.last) &&
  d.present.all fun p => decide (le bs (0x10 + 4 * p.1) 4 < p.2.trips)

/-- R239, R240: the image as RUNSTATE describes it. -/
def Run.fromState (r : Run) (bs : List Byte) : Run :=
  let w := fun o => Word.ofNat (le bs o 8)
  { r with
    cursor := { part := r.cursor.part, word := le bs 8 4, iters := (List.range 4).map fun l => le bs (0x10 + 4 * l) 4 },
    preempts := le bs 0x20 4, goCount := w 0x48,
    snaps := r.snaps.set r.cursor.part { tstat := w 0x28, dseq := w 0x30, seedLo := w 0x38, seedHi := w 0x40 } }

/-- R239: the end of a parked image that cannot be resumed; a saddle that it has taken stays its context's. -/
def State.failResume (s : State) (c : Nat) (result : BitVec 8) : State := s.endParked c result

/-- R239: a parked image is resumed on the saddle that it has taken. -/
def State.unpark (s : State) (c i : Nat) (x : XCtx) : State :=
  match s.parkedOf c with
  | none => s
  | some r =>
    match takePins x c r.image.pins s with
    | .error _ s1 => s1.failResume c 6
    | .ok pins s1 =>
      let bs := ((s1.sad i).status.rstate ++ List.replicate 160 0).take 160
      if !r.stateOk bs then s1.failResume c 7
      else
        let s2 := { s1 with runs := { s1.runs with parked := s1.runs.parked.del c } }
        let r1 := { r.fromState bs with pins := pins }
        if (s2.ctx c).runSt = .armed then s2.setRun i (some { r1 with phase := .armed }) else s2.continueRun i r1

end Sys2Proof.Machine
end

