-- ==== Sys2Proof/Machine/Bridle.lean ====
section
/-! DEFINITION. The firmware's service of Bridle's commands on contexts, runs, the Tack store, the gate and the extension
(R252 to R255, R283, R438 to R447, R517). A command that has to wait is taken up again when it is presented again. -/

namespace Sys2Proof.Machine

/-! ## INFO (R517) -/

/-- R517: the payload. -/
def State.infoPayload (s : State) : List Byte :=
  leBytes 8 s.brInfo.toNat ++ leBytes 8 s.blkId.toNat ++ leBytes 2 s.bridle.minor.toNat ++ leBytes 2 0 ++
  leBytes 4 s.bridle.svn.toNat ++ leBytes 4 ((s.tack.read 2).bits 31 0) ++ leBytes 1 s.extRunning.toNat ++ leBytes 3 0

def execInfo (m : BitVec 5) (s : State) : Out :=
  mbRow m.toNat 0x01 (fun s => s.mbDone m.toNat mbOK 0 s.infoPayload) s

/-! ## Context commands (R438 to R441) -/

/-- R438, R516: a command that names a context: the check of CTX, then `f`. -/
def State.onCtx (s : State) (m : Nat) (f : Nat → State → State) : State :=
  let c := (s.mbox m).pay 0 2
  if 1023 < c then s.mbFail m mbBAD_FIELD 0 else f c s

/-- R253: a descriptor as it is read. -/
structure CtxDesc where
  bytes : List Byte
  deriving DecidableEq, Repr

def CtxDesc.word (d : CtxDesc) (o : Nat) : Word := Word.ofNat (le d.bytes o 8)

/-- R253, R255 step 1, R438: VALID, the reserved fields and the alignments. -/
def CtxDesc.ok (d : CtxDesc) : Bool :=
  (d.word 0).bit 0 && (d.word 0).bits 63 5 = 0 && zeros d.bytes 0x48 0x38 && (d.word 8).toNat % 256 = 0 &&
  (d.word 0x10).toNat % 4 = 0 && (d.word 0x20).toNat % 256 = 0

def CtxDesc.locked (d : CtxDesc) : Bool := (d.word 0).bit 1

/-- R255 step 3: the registers of a new context. -/
def CtxDesc.stall (d : CtxDesc) : Stall :=
  { Stall.fresh with
    pc := d.word 0x10, tvec := d.word 0x18 &&& ~~~3, tsp := d.word 0x20, asid := d.word 0x28 &&& 0xFFFF,
    ptbase := d.word 0x30 &&& 0xFFFFFFFFFE000 }

/-- R261: the bits of evmask that exist. -/
def evmaskBits : Word := 0x00FFFFFFFFFF017F

/-- R255 step 4: the entry of the context state array. The context's in-use asid and ptbase are its first ones (R301). -/
def CtxDesc.entry (d : CtxDesc) (lo hi : Nat) : Ctx :=
  { Ctx.free with
    mode := .ready, saveLo := lo, saveHi := hi, prio := BitVec.ofNat 3 ((d.word 0).bits 4 2), lock := d.locked,
    evmask := d.word 0x38 &&& evmaskBits, tsave := d.word 0x40 &&& 0x01FFFFFFFFFFFFFF,
    useAsid := BitVec.ofNat 16 (d.stall.asid.bits 15 0), useRoot := d.stall.ptbase.bits 51 13 }

/-- R255 step 2, R310: a save area through the reserve stall's translation: writable memory. -/
def saveAreaOf (va : Word) (s : State) : Option Nat × State :=
  match (translate { (s.stall 31).xctx with sys := true } 2 false va none) s with
  | .ok (_, pa) s1 => (if s1.attr pa = 1 then some pa else none, s1)
  | .error _ s1 => (none, s1)

/-- R255 steps 3 to 5: the context starts. -/
def State.startCtx (s : State) (c : Nat) (d : CtxDesc) (lo hi : Nat) : State :=
  let t := d.stall
  let s1 := s.unitWrite lo (leBytes 8 (d.word 8 + 256).toNat ++ lowerBytes t c t.status) false none
  let s2 := s1.unitWrite hi (leBytes 8 0 ++ upperBytes t c) false none
  let s3 := { s2 with core := { s2.core with ctxs := s2.core.ctxs.set c (d.entry lo hi) } }
  (if d.locked then s3.wantStall c else s3).trigger

/-- R255: the started contexts that are marked LOCK. -/
def State.lockedCtxs (s : State) : Nat := (s.core.ctxs.filter fun p => p.2.started && p.2.lock).length

/-- R255, R438: CTX_START of context `c`. A descriptor with a poisoned word is invalid (DEDUCED, log entry 39). -/
def State.ctxStart (s : State) (m c : Nat) : State :=
  if s.cfgAct 1 0 = 0 ∨ (s.ctx c).mode ≠ .free then s.mbFail m mbBAD_STATE 0
  else
    let (bs, bad, s1) := s.unitRead ((s.cfgAct 1 0).toNat + 256 * c) 128 none
    let d : CtxDesc := ⟨bs⟩
    if bad || !d.ok then s1.mbFail m mbDESC_INVALID 0
    else if d.locked && decide (30 ≤ s1.lockedCtxs) then s1.mbFail m mbNO_RESOURCE 0
    else
      let (lo, s2) := saveAreaOf (d.word 8) s1
      let (hi, s3) := saveAreaOf (d.word 8 + 256) s2
      match lo, hi with
      | some lo, some hi => (s3.startCtx c d lo hi).mbDone m mbOK 0 []
      | _, _ => s3.mbFail m mbXLATE 0

def execCtxStart (m : BitVec 5) (s : State) : Out :=
  mbRow m.toNat 0x20 (fun s => s.onCtx m.toNat fun c s => s.ctxStart m.toNat c) s

/-- R439: the response of CTX_STOP. -/
def stopPayload (how waited : Nat) : List Byte := leBytes 1 how ++ leBytes 3 0 ++ leBytes 4 waited

/-- R282, R439: every item of a stopped context has been reported: its image has ended, and no descriptor is left. -/
def State.itemsDone (s : State) (c : Nat) : Bool :=
  (s.admitted c).isNone && s.streams.all fun p => p.2.ctx ≠ c || (p.2.act.isNone && p.2.shadow.isNone)

/-- R439, R401: the command completes once the items have been reported, with Groom source 49; HOW and WAITED stand in the
response area meanwhile. -/
def State.ctxStopEnd (s : State) (m c how waited : Nat) : State :=
  if s.itemsDone c then (s.pendGroom 49).mbDone m mbOK 0 (stopPayload how waited)
  else s.modMbox m fun b => { b with
    waitFor := .cancelling, resp := (stopPayload how waited).zipIdx.foldl (fun t p => Tbl.put 0 t (0x10 + p.2) p.1) [] }

/-- R282, R439: the stop is made. -/
def State.ctxStopNow (s : State) (m c how waited : Nat) : State := ((s.stopContext c 0).2).ctxStopEnd m c how waited

/-- R439: CTX_STOP begins. -/
def State.ctxStop (s : State) (m c : Nat) : State :=
  let b := s.mbox m
  if b.pay 2 2 ≠ 0 then s.mbFail m mbBAD_FIELD 2
  else if 1000000 < b.pay 4 4 then s.mbFail m mbBAD_FIELD 4
  else match (s.ctx c).mode with
    | .stopped => s.ctxStopEnd m c 3 0
    | .free => s.mbFail m mbBAD_STATE 0
    | _ => if b.pay 4 4 = 0 then s.ctxStopNow m c 0 0 else (s.raiseAlert c 3).mbWait m .grace

def execCtxStop (m : BitVec 5) (s : State) : Out :=
  mbRow m.toNat 0x21 (fun s => s.onCtx m.toNat fun c s =>
    match (s.mbox m.toNat).waitFor with
    | .fresh => s.ctxStop m.toNat c
    | .cancelling => s.ctxStopEnd m.toNat c ((s.mbox m.toNat).resp.leAt 0x10 1) ((s.mbox m.toNat).resp.leAt 0x14 4)
    | _ => s) s

/-- R368: a queue entry in flight of context `c`: it holds one whose record has not been written. -/
def State.holdsEntry (s : State) (c : Nat) : Bool := s.queues.any fun p => p.2.holders.contains c

/-- R439: the grace may end early. -/
def State.graceOver (s : State) (c : Nat) : Bool :=
  (s.ctx c).mode = .waiting && !s.holdsEntry c && s.itemsDone c

/-- R423, R439: the grace ends: on ABORT, early, or at its end. A context that something else has stopped meanwhile needs no
stop. -/
def execCtxStopGraceEnd (m : BitVec 5) (s : State) : Out :=
  mbRow m.toNat 0x21 (fun s => s.onCtx m.toNat fun c s =>
    let b := s.mbox m.toNat
    let waited := (s.now - b.since) / 2800
    if b.waitFor ≠ .grace then s
    else if b.abortReq then s.mbFail m.toNat mbABORTED 0
    else if (s.ctx c).mode = .stopped then s.ctxStopEnd m.toNat c 3 waited
    else if s.graceOver c then s.ctxStopNow m.toNat c 1 waited
    else if b.since + usec (b.pay 4 4) ≤ s.now then s.ctxStopNow m.toNat c 2 waited
    else s) s

/-- R440: an enabled queue, window or mailbox binding names the context. -/
def State.named (s : State) (c : Nat) : Bool :=
  ((s.cfgIndexes 0x20).any fun q => s.qEn q && s.qCtx q = c) || ((s.cfgIndexes 0x28).any fun w => s.wEn w && s.wOwner w = c) ||
  (List.range 16).any fun i => s.boundCtx (16 + i) = some c

/-- R283: the context is removed. -/
def State.removeCtx (s : State) (c : Nat) : State :=
  let s1 := s.releaseTile c
  { s1 with core := { s1.core with ctxs := s1.core.ctxs.del c }, runs := { s1.runs with images := s1.runs.images.del c } }

/-- R440: CTX_REMOVE. It waits for the work that a stop leaves to complete: an image to its boundary, and accepted tile
instructions (R200, R244). -/
def execCtxRemove (m : BitVec 5) (s : State) : Out :=
  mbRow m.toNat 0x22 (fun s => s.onCtx m.toNat fun c s =>
    if (s.ctx c).mode ≠ .stopped ∨ s.named c then s.mbFail m.toNat mbBAD_STATE 0
    else if !s.itemsDone c || !s.tileIdle (some c) then s
    else (s.removeCtx c).mbDone m.toNat mbOK 0 []) s

/-- R440: the code of STATE. -/
def CtxMode.code : CtxMode → Nat
  | .free => 0 | .ready => 1 | .running => 2 | .waiting => 3 | .stopped => 4

/-- R440: the payload of CTX_QUERY. -/
def State.queryPayload (s : State) (c : Nat) : List Byte :=
  let e := s.ctx c
  leBytes 1 e.mode.code ++ leBytes 1 e.stall.isSome.toNat ++ leBytes 1 (e.stall.getD 0) ++ leBytes 1 e.prio.toNat ++
  leBytes 1 e.pend.toNat ++ leBytes 1 ((s.sadOf c).isSome.toNat + 2 * (s.sadOf c).getD 0) ++ leBytes 1 e.runSt.code ++
  leBytes 1 e.lock.toNat ++ leBytes 2 (if e.mode = .stopped then e.stopCause.toNat else 0)

def execCtxQuery (m : BitVec 5) (s : State) : Out :=
  mbRow m.toNat 0x23 (fun s => s.onCtx m.toNat fun c s => s.mbDone m.toNat mbOK 0 (s.queryPayload c)) s

/-- R441. -/
def execAlertPost (m : BitVec 5) (s : State) : Out :=
  mbRow m.toNat 0x24 (fun s => s.onCtx m.toNat fun c s =>
    let code := (s.mbox m.toNat).pay 2 2
    if 0xFF00 ≤ code ∧ code ≤ 0xFF1F then s.mbFail m.toNat mbBAD_FIELD 2
    else if !(s.ctx c).started then s.mbFail m.toNat mbBAD_STATE 0
    else (s.postAlert c code).mbDone m.toNat mbOK 0 []) s

/-! ## RSV_SETUP (R442) -/

/-- R442: the first payload field with a reserved bit set. -/
def Mailbox.rsvFault (b : Mailbox) : Option Nat :=
  if Word.ofNat (b.pay 0 8) &&& ~~~0xFFFF ≠ 0 then some 0
  else if Word.ofNat (b.pay 8 8) &&& ~~~0xFFFFFFFFFE003 ≠ 0 then some 8
  else if b.pay 16 8 % 4 ≠ 0 then some 16
  else none

/-- R271, R442: the reserve stall is loaded and entered with cause.CODE = 0 and g1 to g4 = 0. -/
def State.setupReserve (s : State) (asid ptbase tvec : Word) : State :=
  let zero : TVal := TVal.int 0
  let s1 := s.modStall 31 fun t =>
    let t1 := (((t.setReg 1 zero).setReg 2 zero).setReg 3 zero).setReg 4 zero
    { t1 with asid := asid, ptbase := ptbase, tvec := tvec }
  let s2 := { s1 with core := { s1.core with reserve := { s1.core.reserve with setUp := true, current := none } } }
  s2.enterReserve 0

def execRsvSetup (m : BitVec 5) (s : State) : Out :=
  mbRow m.toNat 0x25 (fun s =>
    let b := s.mbox m.toNat
    match b.rsvFault with
    | some d => s.mbFail m.toNat mbBAD_FIELD d
    | none =>
      if s.core.disp = .reserve then (if b.waitFor = .fresh then s.mbWait m.toNat .reserve else s)
      else (s.setupReserve (Word.ofNat (b.pay 0 8)) (Word.ofNat (b.pay 8 8)) (Word.ofNat (b.pay 16 8))).mbDone m.toNat mbOK 0 []) s

/-! ## Run commands (R443) -/

/-- R443: NEXT and TAU. -/
def Run.wherePayload (r : Run) : List Byte := leBytes 4 r.cursor.word ++ leBytes 4 r.tau

/-- R237, R443: the image on saddle `i` is asked to pause: withheld at once where it does not run. -/
def State.askPause (s : State) (i : Nat) : State :=
  match s.run i with
  | none => s
  | some r =>
    match r.phase with
    | .armed | .running => s.setRun i (some { r with pauseReq := true })
    | .preempted => s.setRun i (some { r with holdBack := true })
    | .paused | .parked => s

/-- R237: the image is withheld: cycle 0, the switch back or the next instruction does not begin. -/
def Run.held (r : Run) : Bool :=
  match r.phase with
  | .armed => r.pauseReq
  | .running => false
  | .preempted => r.holdBack
  | .paused | .parked => true

/-- The command waits for `w`, unless it does already. -/
def State.mbWaitOnce (s : State) (m : Nat) (w : MbWait) : State := if (s.mbox m).waitFor = w then s else s.mbWait m w

/-- R443: RUN_PAUSE of context `c`. -/
def State.runPause (s : State) (m c : Nat) : State :=
  match s.runOf c, s.admitted c with
  | _, none => s.mbFail m mbBAD_STATE 0
  | none, some r => s.mbDone m mbOK 0 r.wherePayload
  | some i, some _ =>
    let s1 := s.askPause i
    match s1.run i with
    | none => s1
    | some r => if r.held then s1.mbDone m mbOK 0 r.wherePayload else s1.mbWaitOnce m .pausing

def execRunPause (m : BitVec 5) (s : State) : Out :=
  mbRow m.toNat 0x30 (fun s => s.onCtx m.toNat fun c s => s.runPause m.toNat c) s

/-- R238, R443: RUN_PARK of context `c`: a pause, then the spill once the saddle's accepted instructions have completed. -/
def State.runPark (s : State) (m c : Nat) : State :=
  match s.runOf c, s.admitted c with
  | _, none => s.mbFail m mbBAD_STATE 0
  | none, some r => s.mbDone m mbOK 0 r.wherePayload
  | some i, some _ =>
    let s1 := s.askPause i
    match s1.run i with
    | none => s1
    | some r =>
      if r.held && (s1.sad i).queue.isEmpty then (s1.parkRun i).mbDone m mbOK 0 r.wherePayload
      else s1.mbWaitOnce m .parking

def execRunPark (m : BitVec 5) (s : State) : Out :=
  mbRow m.toNat 0x31 (fun s => s.onCtx m.toNat fun c s => s.runPark m.toNat c) s

/-- R443: the response of RUN_RESUME. -/
def State.resumeDone (s : State) (m c : Nat) : State := s.mbDone m mbOK 0 (leBytes 1 (s.ctx c).runSt.code)

/-- R239: a parked image takes a saddle; a take that fails ends it with FAIL_STATE (DEDUCED, log entry 40). -/
def State.resumeParked (s : State) (m c : Nat) : State :=
  let x := s.xctxOf c
  match takeSaddle x c s with
  | .ok i s1 => (s1.unpark c i x).resumeDone m c
  | .error (.wait ..) s1 => s1
  | .error _ s1 => (s1.failResume c 7).resumeDone m c

/-- R239, R443: RUN_RESUME of context `c`. -/
def State.runResume (s : State) (m c : Nat) : State :=
  match s.runOf c, s.admitted c with
  | _, none => s.mbFail m mbBAD_STATE 0
  | none, some _ => s.resumeParked m c
  | some i, some r =>
    if !r.held then s.mbFail m mbBAD_STATE 0
    else match r.phase with
      | .armed => (s.setRun i (some { r with pauseReq := false })).resumeDone m c
      | .preempted => (s.setRun i (some { r with holdBack := false })).resumeDone m c
      | _ => (s.continueRun i r).resumeDone m c

def execRunResume (m : BitVec 5) (s : State) : Out :=
  mbRow m.toNat 0x32 (fun s => s.onCtx m.toNat fun c s => s.runResume m.toNat c) s

/-- R443: RUN_CANCEL of context `c`: it completes when the image has ended. -/
def State.runCancel (s : State) (m c : Nat) : State :=
  let done := fun (s : State) => s.mbDone m mbOK 0 (leBytes 1 (s.ctx c).runix.toNat)
  if (s.admitted c).isNone then
    (if (s.mbox m).waitFor = .cancelling then done s else s.mbFail m mbBAD_STATE 0)
  else
    let s1 := s.abandonOf c 0x0B
    if (s1.admitted c).isNone then done s1 else s1.mbWaitOnce m .cancelling

def execRunCancel (m : BitVec 5) (s : State) : Out :=
  mbRow m.toNat 0x33 (fun s => s.onCtx m.toNat fun c s => s.runCancel m.toNat c) s

/-! ## Persistent state (R444, R445) -/

def execWaymapRead (m : BitVec 5) (s : State) : Out :=
  mbRow m.toNat 0x40 (fun s => s.mbDone m.toNat mbOK 0 (leBytes 8 (s.tack.read 1).toNat ++ leBytes 8 s.inforce.toNat)) s

/-- A Tack write by a command, which completes with it. -/
def State.mbTack (s : State) (m n : Nat) (v : Word) : State :=
  if (s.mbox m).waitFor = .fresh then (s.mbWait m .tack).tackWrite n v (.mailbox m) else s

/-- R444. -/
def execWaymapClear (m : BitVec 5) (s : State) : Out :=
  mbRow m.toNat 0x41 (fun s =>
    let mask := (s.mbox m.toNat).pay 0 8
    if 2 ^ 28 ≤ mask then s.mbFail m.toNat mbBAD_FIELD 0
    else s.mbTack m.toNat 1 (s.tack.read 1 &&& ~~~(Word.ofNat mask))) s

/-- R445. -/
def execTackRead (m : BitVec 5) (s : State) : Out :=
  mbRow m.toNat 0x50 (fun s =>
    let n := (s.mbox m.toNat).pay 0 2
    if 511 < n then s.mbFail m.toNat mbBAD_FIELD 0 else s.mbDone m.toNat mbOK 0 (leBytes 8 (s.tack.read n).toNat)) s

/-- R445. -/
def execTackWrite (m : BitVec 5) (s : State) : Out :=
  mbRow m.toNat 0x51 (fun s =>
    let n := (s.mbox m.toNat).pay 0 2
    if n < 384 ∨ 511 < n then s.mbFail m.toNat mbNOT_PERMITTED 0
    else s.mbTack m.toNat n (Word.ofNat ((s.mbox m.toNat).pay 2 8))) s

/-! ## GATE_CAL (R382, R446) -/

/-- R446, R431: the firmware can commit GATE_CFG: no other commit is in progress, and its SADDLES scope has a gate point. -/
def State.calGate (s : State) : Bool := s.bridle.commit.isNone && s.runs.run0.isNone && s.runs.run1.isNone

/-- R446: the firmware commits CALMODE: a gate point, whose source is 48. -/
def State.setCalMode (s : State) (on : Bool) : State :=
  let old := s.gateCfg
  let k := cfgKey 0x30 0
  let s1 := { s with cfg := {
    active := s.cfg.active.set k (old.putBit 20 on), staged := s.cfg.staged.set k ((s.cfg.stg 0x30 0).putBit 20 on) } }
  (s1.afterGate old).pendGroom 48

/-- Whether the measurements of a calibration have ended. -/
def State.calEnded (s : State) : Bool := (s.gate.cal.map fun k => decide (k.left = 0)).getD true

/-- R382, R446: GATE_CAL: CALMODE = 1 is committed, 16 measurements follow, and CALMODE = 0 is committed, even after ABORT. -/
def State.gateCal (s : State) (m : Nat) : State :=
  let b := s.mbox m
  if b.waitFor = .fresh then
    if s.gParts ≠ 0 then s.mbFail m mbBAD_STATE 0
    else if b.abortReq then s.mbFail m mbABORTED 0
    else if s.calGate then (s.setCalMode true).mbWait m .calibrating
    else s
  else if (b.abortReq || s.calEnded) && s.calGate then
    let s1 := s.setCalMode false
    if b.abortReq then s1.mbFail m mbABORTED 0 else s1.mbDone m mbOK 0 (leBytes 2 s1.gate.rtt.toNat)
  else s

def execGateCal (m : BitVec 5) (s : State) : Out := mbRow m.toNat 0x60 (fun s => s.gateCal m.toNat) s

/-! ## Licensee commands (R447) -/

/-- R415: the service page. -/
def servicePage : Nat := 0x2002F000

/-- R415, R447: the command area is copied to the start of the service page, and thread 3 is noticed (DESIGN CHOICE, log entry
11). A notice of thread 3 that is left from before is cleared: it answers no command. -/
def State.extAsk (s : State) (m : Nat) : State :=
  let s1 := (List.range 64).foldl (fun s i => s.gStore (servicePage + 4 * i) 4 ((s.mbox m).cmdAt (4 * i) 4)) s
  ((s1.gClear 40).pendGroom 43).mbWait m .licensee

/-- The extension's answer, 256 bytes from 0x100 of the service page, in the layout of a response area (DESIGN CHOICE, log entry
11). -/
def State.extAnswer (s : State) : List Byte := (List.range 256).map fun i => s.gByte (servicePage + 0x100 + i)

/-- R426, R447: the firmware's checks of an answer: a status that a licensee command may return, and a length. -/
def answerOk (bs : List Byte) : Bool := (decide (le bs 0 2 < 16) || decide (0x8000 ≤ le bs 0 2)) && decide (le bs 8 2 ≤ 240)

/-- R447: a licensee command is passed on, one at a time; its answer, noticed to thread 0, completes it with the answer's status,
DETAIL and payload. The notice of a halted extension is that of its halt (R407). -/
def State.licensee (s : State) (m : Nat) : State :=
  if (s.mbox m).waitFor = .licensee then
    if s.groom.ipend.bit 40 && !s.groom.extHalted && answerOk s.extAnswer then
      (s.gClear 40).mbDone m (le s.extAnswer 0 2) (le s.extAnswer 10 2) ((s.extAnswer.drop 16).take (le s.extAnswer 8 2))
    else s
  else if s.mboxes.any fun (p : Nat × Mailbox) => p.2.st = .busy && p.2.waitFor = .licensee then s
  else s.extAsk m

def execLicenseeCommand (m : BitVec 5) (s : State) : Out :=
  eventStep (s.mbActive m.toNat licenseeOp) (fun s => s.licensee m.toNat) s

/-- R447. -/
def execExtTimeout (m : BitVec 5) (s : State) : Out :=
  eventStep (s.mbActive m.toNat licenseeOp && (s.mbox m.toNat).waitFor = .licensee &&
    decide ((s.mbox m.toNat).since + usec 10000 ≤ s.now)) (fun s => s.mbFail m.toNat mbEXT_TIMEOUT 0) s

end Sys2Proof.Machine
end

