-- ==== Sys2Proof/Machine/Context.lean ====
section
/-! DEFINITION. The context group of the reserve stall (R84, R273 to R275). -/

namespace Sys2Proof.Machine

/-- A stall as its first naming puts it into the hold (R274). -/
def Hold.fresh : Hold := { savedL := false, emptied := false, loadedL := none }

/-- The hold of stall `v`, if it is held. -/
def State.hold (s : State) (v : Nat) : Option Hold := (s.core.reserve.holds.find? fun p => p.1 = v).map (·.2)

def State.setHold (s : State) (v : Nat) (h : Hold) : State :=
  { s with core := { s.core with reserve := { s.core.reserve with holds := s.core.reserve.holds.set v h } } }

/-- A fault of R274 or R275 that has no cause code of its own: CAUSE2 of its record is a free value (DESIGN CHOICE, log entry 12). -/
def holdFault {α : Type} : M α := do
  let s ← get
  set { s with free := s.free + 1 }
  trapM ((Config.freeWord s.free).toNat % 65536) 0

/-- R84, R87: the operand checks of the context group; answers the area's address and the stall number. R43 excepts CTXSV and
CTXLD from TAG_NONE and names a POISON address only, so any other tag takes TAG_MISMATCH; the tag faults come before
CTX_STALL (DEDUCED, log entry 102). -/
def contextOperands (i : Instr) (a b : Reg) : M (Word × Nat) := do
  let s ← get
  let x := s.reg a
  let y := s.reg b
  checkPoison [⟨2, x, only .vaddr⟩]
  checkAccepted [⟨2, x, only .vaddr⟩, ⟨3, y, only .int⟩]
  requireSystem i
  if s.core.disp ≠ .reserve then trapM 5 (insnWord i)
  if x.data.bits 7 0 ≠ 0 || decide (30 < y.data.toNat) then trapM 7 x.data
  pure (x.data, y.data.toNat)

/-- The two lines of an area, translated and checked; a device region refuses it (R77). -/
def areaParts (kind : Kind) (va : Word) : M (List (TlbEntry × Nat × Nat)) := do
  let ps ← translateParts kind va [(0, 128), (128, 128)]
  if (← get).anyDevice ps then trapM 6 va
  pure ps

/-- Bytes 0x08 to 0xFF of an area are written; LINK is not. -/
def writeArea (ps : List (TlbEntry × Nat × Nat)) (bs : List Byte) (s : State) : State :=
  match ps with
  | (e, pa, n) :: rest => writeParts none false ((e, pa + 8, n - 8) :: rest) bs s
  | [] => s

/-- R275: the bytes of an area and the poison of its chunks. -/
def readAreaParts (ps : List (TlbEntry × Nat × Nat)) (s : State) : Area × State :=
  ps.foldl (fun r p =>
    (List.range (p.2.2 / 16)).foldl (fun r i =>
      let (g, s1) := readParts none [(p.1, p.2.1 + 16 * i, 16)] r.2
      (⟨r.1.bytes ++ g.bytes, r.1.bad ++ [g.poison]⟩, s1)) r) (⟨[], []⟩, s)

/-- R274: the stall that a CTXSV may name: its resident context, not marked LOCK, with no fill in progress. -/
def savable (v : Nat) : M Nat := do
  let s ← get
  match s.resident v with
  | some c => if (s.ctx c).lock || s.core.fills.any (fun f => f.2 = v) then holdFault else pure c
  | none => holdFault

def execCtxsvL (d a b : Reg) (s : State) : Out :=
  coreStep (.ctxsvL d a b) (do
    let (va, v) ← contextOperands (.ctxsvL d a b) a b
    let c ← savable v
    let ps ← areaParts 2 va
    modify fun s => s.meetUpset v ((List.range 15).map (· + 1))
    let s ← get
    let t := s.stall v
    let s1 := writeArea ps (lowerBytes t c (s.statusWord t (some c))) s
    set (s1.setHold v { (s1.hold v).getD Hold.fresh with savedL := true })
    pure none) s

def execCtxsvU (d a b : Reg) (s : State) : Out :=
  coreStep (.ctxsvU d a b) (do
    let (va, v) ← contextOperands (.ctxsvU d a b) a b
    let c ← savable v
    if !(((← get).hold v).getD Hold.fresh).savedL then holdFault
    let ps ← areaParts 2 va
    modify fun s => s.meetUpset v ((List.range 16).map (· + 16))
    let s ← get
    let s1 := writeArea ps (upperBytes (s.stall v) c) s
    let s2 := s1.modCtx c fun e => { e with stall := none }
    let s3 := { s2 with core := { s2.core with stalls := s2.core.stalls.del v } }
    set (s3.setHold v { Hold.fresh with emptied := true })
    pure none) s

/-- R274, R275: the stall that a CTXLD may name: held and empty. -/
def loadable (v : Nat) : M Hold := do
  let s ← get
  match s.hold v with
  | some h => if h.emptied && (s.resident v).isNone then pure h else holdFault
  | none => holdFault

/-- R275: a context that a CTXLD may load: started, not STOPPED and not resident. -/
def loadableCtx (c : Nat) : M Unit := do
  let e := (← get).ctx c
  if !e.started || e.stall.isSome then holdFault

/-- R275: a poisoned control word stops the context; the stall stays held and empty. -/
def fillFault (c v : Nat) (ps : List (TlbEntry × Nat × Nat)) : M Unit := do
  let s ← get
  let s1 := s.stopByError c 0x83 { ErrRec.mk0 0x83 0x10 5 (some c) with
    unit := BitVec.ofNat 16 v, addr := Word.ofNat ((ps.head?.map (·.2.1)).getD 0) }
  let s2 := { s1 with core := { s1.core with stalls := s1.core.stalls.del v } }
  set (s2.setHold v { Hold.fresh with emptied := true })

def execCtxldL (d a b : Reg) (s : State) : Out :=
  coreStep (.ctxldL d a b) (do
    let (va, v) ← contextOperands (.ctxldL d a b) a b
    let h ← loadable v
    let ps ← areaParts 1 va
    let s ← get
    let (ar, s1) := readAreaParts ps s
    set s1
    let c := ar.hdrCtx
    if ar.lowerBad && (s1.ctx c).started then fillFault c v ps
    else
      if ar.hdrHalf then holdFault
      loadableCtx c
      modify fun s => (s.setStall v (ar.loadLower Stall.fresh)).setHold v { h with loadedL := some c }
    pure none) s

def execCtxldU (d a b : Reg) (s : State) : Out :=
  coreStep (.ctxldU d a b) (do
    let (va, v) ← contextOperands (.ctxldU d a b) a b
    let h ← loadable v
    match h.loadedL with
    | none => holdFault
    | some c =>
      let ps ← areaParts 1 va
      let s ← get
      let (ar, s1) := readAreaParts ps s
      set s1
      if ar.upperBad && (s1.ctx c).started then fillFault c v ps
      else
        if ar.hdrCtx ≠ c || !ar.hdrHalf then holdFault
        loadableCtx c
        let s ← get
        let s1 := (s.setStall v (s.bindInUse c (ar.loadUpper (s.stall v)))).modCtx c fun e => { e with stall := some v }
        set (s1.setHold v Hold.fresh)
    pure none) s

end Sys2Proof.Machine
end

