-- ==== Sys2Proof/Machine/Flags.lean ====
section
/-! DEFINITION. Condition results (R52, R64): the compares of data bits, as INT 1 or INT 0. The block has no flags register. -/

namespace Sys2Proof.Machine

/-- R64: CEQ. -/
def cmpEq (a b : Word) : Word := Word.ofBool (a == b)

/-- R64: CNE. -/
def cmpNe (a b : Word) : Word := Word.ofBool (a != b)

/-- R64: CLT, signed. -/
def cmpLt (a b : Word) : Word := Word.ofBool (decide (a.toInt < b.toInt))

/-- R64: CLTU, unsigned. -/
def cmpLtu (a b : Word) : Word := Word.ofBool (decide (a.toNat < b.toNat))

/-- R64: CLE, signed. -/
def cmpLe (a b : Word) : Word := Word.ofBool (decide (a.toInt ≤ b.toInt))

/-- R64: CLEU, unsigned. -/
def cmpLeu (a b : Word) : Word := Word.ofBool (decide (a.toNat ≤ b.toNat))

end Sys2Proof.Machine
end

