-- ==== Sys2Proof/Machine/Scalar.lean ====
section
/-! DEFINITION. The integer group, its immediate forms, the tag group and the conditional moves (R51, R64 to R67). -/

namespace Sys2Proof.Machine


/-! ## Data-bit semantics (R64, R65) -/

/-- R65: signed quotient rounded toward zero; by zero all ones; −2^63 by −1 gives −2^63. -/
def divS (a b : Word) : Word := if b = 0 then BitVec.allOnes 64 else BitVec.ofInt 64 (Int.tdiv a.toInt b.toInt)

/-- R65: unsigned quotient; by zero all ones. -/
def divU (a b : Word) : Word := if b = 0 then BitVec.allOnes 64 else BitVec.ofNat 64 (a.toNat / b.toNat)

/-- R65: signed remainder with the sign of a; by zero a. -/
def remS (a b : Word) : Word := if b = 0 then a else BitVec.ofInt 64 (Int.tmod a.toInt b.toInt)

/-- R65: unsigned remainder; by zero a. -/
def remU (a b : Word) : Word := if b = 0 then a else BitVec.ofNat 64 (a.toNat % b.toNat)

/-- R64: the high 64 bits of a signed product. -/
def mulHS (a b : Word) : Word := BitVec.ofInt 64 (a.toInt * b.toInt / 2 ^ 64)

/-- R64: the high 64 bits of an unsigned product. -/
def mulHU (a b : Word) : Word := BitVec.ofNat 64 (a.toNat * b.toNat / 2 ^ 64)

/-- R64: shifts use b[5:0]. -/
def sllW (a b : Word) : Word := a <<< (b.toNat % 64)
def srlW (a b : Word) : Word := a >>> (b.toNat % 64)
def sraW (a b : Word) : Word := a.sshiftRight (b.toNat % 64)

/-- R64: minima and maxima. -/
def minS (a b : Word) : Word := if a.toInt ≤ b.toInt then a else b
def maxS (a b : Word) : Word := if a.toInt ≤ b.toInt then b else a
def minU (a b : Word) : Word := if a.toNat ≤ b.toNat then a else b
def maxU (a b : Word) : Word := if a.toNat ≤ b.toNat then b else a

/-- R66: ORSH. -/
def orsh (a imm : Word) : Word := (a <<< 15) ||| imm

/-- An instruction of the integer group on INT, INT. -/
def intOp (d a b : Reg) (f : Word → Word → Word) : M (Option Word) := binary d a b (only .int) (only .int) ruleInt f

/-- A compare of the integer group. -/
def cmpOp (d a b : Reg) (f : Word → Word → Word) : M (Option Word) := binary d a b intOrAddr intOrAddr ruleCmp f

/-- R60: a sign-extended 15-bit immediate. -/
def sext15 (imm : BitVec 15) : Word := imm.signExtend 64

/-- R66: an immediate form on an INT operand. -/
def intImm (d a : Reg) (imm : Word) (f : Word → Word → Word) : M (Option Word) := withImm d a imm (only .int) ruleInt f

/-- R66: an immediate compare. -/
def cmpImm (d a : Reg) (imm : Word) (f : Word → Word → Word) : M (Option Word) := withImm d a imm intOrAddr ruleCmp f

/-! ## The meanings -/

def execAdd (d a b : Reg) (s : State) : Out :=
  coreStep (.add d a b) (binary d a b intOrAddr intOrAddr ruleAdd fun x y => x + y) s
def execSub (d a b : Reg) (s : State) : Out :=
  coreStep (.sub d a b) (binary d a b intOrAddr intOrAddr ruleSub fun x y => x - y) s
def execAnd (d a b : Reg) (s : State) : Out :=
  coreStep (.and d a b) (binary d a b intOrAddr (only .int) ruleAnd fun x y => x &&& y) s
def execOr (d a b : Reg) (s : State) : Out := coreStep (.or d a b) (intOp d a b fun x y => x ||| y) s
def execXor (d a b : Reg) (s : State) : Out := coreStep (.xor d a b) (intOp d a b fun x y => x ^^^ y) s
def execSll (d a b : Reg) (s : State) : Out := coreStep (.sll d a b) (intOp d a b sllW) s
def execSrl (d a b : Reg) (s : State) : Out := coreStep (.srl d a b) (intOp d a b srlW) s
def execSra (d a b : Reg) (s : State) : Out := coreStep (.sra d a b) (intOp d a b sraW) s
def execMul (d a b : Reg) (s : State) : Out := coreStep (.mul d a b) (intOp d a b fun x y => x * y) s
def execMulh (d a b : Reg) (s : State) : Out := coreStep (.mulh d a b) (intOp d a b mulHS) s
def execMulhu (d a b : Reg) (s : State) : Out := coreStep (.mulhu d a b) (intOp d a b mulHU) s
def execDiv (d a b : Reg) (s : State) : Out := coreStep (.div d a b) (intOp d a b divS) s
def execDivu (d a b : Reg) (s : State) : Out := coreStep (.divu d a b) (intOp d a b divU) s
def execRem (d a b : Reg) (s : State) : Out := coreStep (.rem d a b) (intOp d a b remS) s
def execRemu (d a b : Reg) (s : State) : Out := coreStep (.remu d a b) (intOp d a b remU) s
def execMin (d a b : Reg) (s : State) : Out := coreStep (.min d a b) (intOp d a b minS) s
def execMax (d a b : Reg) (s : State) : Out := coreStep (.max d a b) (intOp d a b maxS) s
def execMinu (d a b : Reg) (s : State) : Out := coreStep (.minu d a b) (intOp d a b minU) s
def execMaxu (d a b : Reg) (s : State) : Out := coreStep (.maxu d a b) (intOp d a b maxU) s
def execCeq (d a b : Reg) (s : State) : Out := coreStep (.ceq d a b) (cmpOp d a b cmpEq) s
def execCne (d a b : Reg) (s : State) : Out := coreStep (.cne d a b) (cmpOp d a b cmpNe) s
def execClt (d a b : Reg) (s : State) : Out := coreStep (.clt d a b) (cmpOp d a b cmpLt) s
def execCltu (d a b : Reg) (s : State) : Out := coreStep (.cltu d a b) (cmpOp d a b cmpLtu) s
def execCle (d a b : Reg) (s : State) : Out := coreStep (.cle d a b) (cmpOp d a b cmpLe) s
def execCleu (d a b : Reg) (s : State) : Out := coreStep (.cleu d a b) (cmpOp d a b cmpLeu) s

/-- R66: ADDI and ANDI accept an address in a. -/
def execAddi (d a : Reg) (imm : BitVec 15) (s : State) : Out :=
  coreStep (.addi d a imm) (withImm d a (sext15 imm) intOrAddr ruleAdd fun x y => x + y) s
def execAndi (d a : Reg) (imm : BitVec 15) (s : State) : Out :=
  coreStep (.andi d a imm) (withImm d a (sext15 imm) intOrAddr ruleAnd fun x y => x &&& y) s
def execOri (d a : Reg) (imm : BitVec 15) (s : State) : Out :=
  coreStep (.ori d a imm) (intImm d a (sext15 imm) fun x y => x ||| y) s
def execXori (d a : Reg) (imm : BitVec 15) (s : State) : Out :=
  coreStep (.xori d a imm) (intImm d a (sext15 imm) fun x y => x ^^^ y) s
def execSlli (d a : Reg) (sh : BitVec 6) (hi : BitVec 7) (s : State) : Out :=
  coreStep (.slli d a sh hi) (intImm d a (sh.zeroExtend 64) sllW) s
def execSrli (d a : Reg) (sh : BitVec 6) (hi : BitVec 7) (s : State) : Out :=
  coreStep (.srli d a sh hi) (intImm d a (sh.zeroExtend 64) srlW) s
def execSrai (d a : Reg) (sh : BitVec 6) (hi : BitVec 7) (s : State) : Out :=
  coreStep (.srai d a sh hi) (intImm d a (sh.zeroExtend 64) sraW) s
def execCeqi (d a : Reg) (imm : BitVec 15) (s : State) : Out :=
  coreStep (.ceqi d a imm) (cmpImm d a (sext15 imm) cmpEq) s
def execClti (d a : Reg) (imm : BitVec 15) (s : State) : Out :=
  coreStep (.clti d a imm) (cmpImm d a (sext15 imm) cmpLt) s
def execCltui (d a : Reg) (imm : BitVec 15) (s : State) : Out :=
  coreStep (.cltui d a imm) (cmpImm d a (sext15 imm) cmpLtu) s

/-- R66: MOVI; a must be g0. -/
def execMovi (d a : Reg) (imm : BitVec 15) (s : State) : Out :=
  coreStep (.movi d a imm) (do modify fun s => s.setReg d (TVal.int (sext15 imm)); pure none) s
def execOrsh (d a : Reg) (imm : BitVec 15) (s : State) : Out :=
  coreStep (.orsh d a imm) (intImm d a (imm.zeroExtend 64) orsh) s

/-- R67: TAGOF accepts any tag and never traps. -/
def execTagof (d a b : Reg) (t : BitVec 4) (s : State) : Out :=
  coreStep (.tagof d a b t) (do
    let s ← get
    set (s.setReg d (TVal.int (Word.ofNat (tagCode (s.reg a).tag))))
    pure none) s

/-- R51: whether RETAG may name a tag code: 0x1 to 0x8, or POISON. -/
def retaggable (t : BitVec 4) : Bool := (decide (1 ≤ t.toNat) && decide (t.toNat ≤ 8)) || t = 15

/-- R51: RETAG. -/
def execRetag (d a b : Reg) (t : BitVec 4) (s : State) : Out :=
  coreStep (.retag d a b t) (do
    let s ← get
    let x := s.reg a
    checkNone [⟨2, x, fun _ => true⟩]
    if !retaggable t then throw (Abort.trap 0x42 2 x.tag x.data)
    set (s.setReg d ⟨x.data, if x.tag = .poison then .poison else tagOfCode t.toNat⟩)
    pure none) s

/-- R67: MOV copies data and tag. -/
def execMov (d a b : Reg) (t : BitVec 4) (s : State) : Out :=
  coreStep (.mov d a b t) (do
    let s ← get
    set (s.setReg d (s.reg a))
    pure none) s

/-- R67, R46: the conditional moves. -/
def condMove (d a b : Reg) (when : Bool) : M (Option Word) := do
  let s ← get
  let c ← condition 3 (s.reg b)
  if c = when then set (s.setReg d (s.reg a))
  pure none

def execCmovnz (d a b : Reg) (s : State) : Out := coreStep (.cmovnz d a b) (condMove d a b true) s
def execCmovz (d a b : Reg) (s : State) : Out := coreStep (.cmovz d a b) (condMove d a b false) s

end Sys2Proof.Machine
end

