-- ==== Sys2Proof/Machine/Float.lean ====
section
/-! DEFINITION. The FP64, FP32 and conversion groups (R68 to R71). -/

namespace Sys2Proof.Machine

/-- The data bits that an operand of a format gives (R40). -/
def FFmt.read (f : FFmt) (w : Word) : FVal := f.decode (w.toNat % 2 ^ (1 + f.eb + f.mb))

/-- A result's data bits (R40). -/
def FFmt.res (f : FFmt) (rm : RMode) (v : FVal) : Word := Word.ofNat (f.encode rm v)

/-- R68: the arithmetic of a format on data bits. -/
def FFmt.addW (f : FFmt) (rm : Rm) (a b : Word) : Word :=
  f.res (.ofBits rm) (fAdd (.ofBits rm) (f.read a) (f.read b))
def FFmt.subW (f : FFmt) (rm : Rm) (a b : Word) : Word :=
  f.res (.ofBits rm) (fAdd (.ofBits rm) (f.read a) (f.read b).negate)
def FFmt.mulW (f : FFmt) (rm : Rm) (a b : Word) : Word := f.res (.ofBits rm) (fMul (f.read a) (f.read b))
def FFmt.divW (f : FFmt) (rm : Rm) (a b : Word) : Word := Word.ofNat (f.div (.ofBits rm) (f.read a) (f.read b))
def FFmt.sqrtW (f : FFmt) (rm : Rm) (a : Word) : Word := Word.ofNat (f.sqrt (.ofBits rm) (f.read a))
def FFmt.maddW (f : FFmt) (rm : Rm) (a b d : Word) : Word :=
  f.res (.ofBits rm) (fAdd (.ofBits rm) (fMul (f.read a) (f.read b)) (f.read d))
def FFmt.msubW (f : FFmt) (rm : Rm) (a b d : Word) : Word :=
  f.res (.ofBits rm) (fAdd (.ofBits rm) (fMul (f.read a) (f.read b)) (f.read d).negate)
def FFmt.nmaddW (f : FFmt) (rm : Rm) (a b d : Word) : Word :=
  f.res (.ofBits rm) (fAdd (.ofBits rm) (fMul (f.read a) (f.read b)).negate (f.read d))

/-- R69: FMIN and FMAX. -/
def FFmt.minW (f : FFmt) (a b : Word) : Word :=
  Word.ofNat (f.minMax false (a.toNat % 2 ^ (1 + f.eb + f.mb)) (b.toNat % 2 ^ (1 + f.eb + f.mb)))
def FFmt.maxW (f : FFmt) (a b : Word) : Word :=
  Word.ofNat (f.minMax true (a.toNat % 2 ^ (1 + f.eb + f.mb)) (b.toNat % 2 ^ (1 + f.eb + f.mb)))

/-- R69: FABS and FNEG change only the sign bit. -/
def FFmt.absW (f : FFmt) (a : Word) : Word := Word.ofNat (a.toNat % 2 ^ (f.eb + f.mb))
def FFmt.negW (f : FFmt) (a : Word) : Word :=
  Word.ofNat (a.toNat % 2 ^ (f.eb + f.mb) + (if a.bit (f.eb + f.mb) then 0 else 2 ^ (f.eb + f.mb)))

/-- R70: the compares. -/
def FFmt.ceqW (f : FFmt) (a b : Word) : Word := Word.ofBool (fCompare (f.read a) (f.read b) == some .eq)
def FFmt.cltW (f : FFmt) (a b : Word) : Word := Word.ofBool (fCompare (f.read a) (f.read b) == some .lt)
def FFmt.cleW (f : FFmt) (a b : Word) : Word :=
  let c := fCompare (f.read a) (f.read b)
  Word.ofBool (c == some .lt || c == some .eq)
def FFmt.cunW (f : FFmt) (a b : Word) : Word := Word.ofBool (fCompare (f.read a) (f.read b) == none)

/-- R71: conversions on data bits. -/
def FFmt.ofSigned (f : FFmt) (rm : Rm) (a : Word) : Word := f.res (.ofBits rm) (FVal.ofInt a.toInt)
def FFmt.ofUnsigned (f : FFmt) (rm : Rm) (a : Word) : Word := f.res (.ofBits rm) (FVal.ofInt a.toNat)
def FFmt.toSigned (f : FFmt) (rm : Rm) (a : Word) : Word :=
  BitVec.ofInt 64 (fToInt (.ofBits rm) (-(2 ^ 63)) (2 ^ 63 - 1) (f.read a))
def FFmt.toUnsigned (f : FFmt) (rm : Rm) (a : Word) : Word :=
  BitVec.ofInt 64 (fToInt (.ofBits rm) 0 (2 ^ 64 - 1) (f.read a))

/-! ## The FP64 group -/

def execFaddD (d a b : Reg) (rm : Rm) (s : State) : Out :=
  coreStep (.faddD d a b rm) (binaryOf d a b .f64 .f64 (fmtD.addW rm)) s
def execFsubD (d a b : Reg) (rm : Rm) (s : State) : Out :=
  coreStep (.fsubD d a b rm) (binaryOf d a b .f64 .f64 (fmtD.subW rm)) s
def execFmulD (d a b : Reg) (rm : Rm) (s : State) : Out :=
  coreStep (.fmulD d a b rm) (binaryOf d a b .f64 .f64 (fmtD.mulW rm)) s
def execFdivD (d a b : Reg) (rm : Rm) (s : State) : Out :=
  coreStep (.fdivD d a b rm) (binaryOf d a b .f64 .f64 (fmtD.divW rm)) s
def execFsqrtD (d a b : Reg) (rm : Rm) (s : State) : Out :=
  coreStep (.fsqrtD d a b rm) (unary d a .f64 .f64 (fmtD.sqrtW rm)) s
def execFmaddD (d a b : Reg) (rm : Rm) (s : State) : Out :=
  coreStep (.fmaddD d a b rm) (ternaryOf d a b .f64 (fmtD.maddW rm)) s
def execFmsubD (d a b : Reg) (rm : Rm) (s : State) : Out :=
  coreStep (.fmsubD d a b rm) (ternaryOf d a b .f64 (fmtD.msubW rm)) s
def execFnmaddD (d a b : Reg) (rm : Rm) (s : State) : Out :=
  coreStep (.fnmaddD d a b rm) (ternaryOf d a b .f64 (fmtD.nmaddW rm)) s
def execFminD (d a b : Reg) (rm : Rm) (s : State) : Out :=
  coreStep (.fminD d a b rm) (binaryOf d a b .f64 .f64 fmtD.minW) s
def execFmaxD (d a b : Reg) (rm : Rm) (s : State) : Out :=
  coreStep (.fmaxD d a b rm) (binaryOf d a b .f64 .f64 fmtD.maxW) s
def execFabsD (d a b : Reg) (rm : Rm) (s : State) : Out :=
  coreStep (.fabsD d a b rm) (unary d a .f64 .f64 fmtD.absW) s
def execFnegD (d a b : Reg) (rm : Rm) (s : State) : Out :=
  coreStep (.fnegD d a b rm) (unary d a .f64 .f64 fmtD.negW) s
def execFceqD (d a b : Reg) (rm : Rm) (s : State) : Out :=
  coreStep (.fceqD d a b rm) (binaryOf d a b .f64 .int fmtD.ceqW) s
def execFcltD (d a b : Reg) (rm : Rm) (s : State) : Out :=
  coreStep (.fcltD d a b rm) (binaryOf d a b .f64 .int fmtD.cltW) s
def execFcleD (d a b : Reg) (rm : Rm) (s : State) : Out :=
  coreStep (.fcleD d a b rm) (binaryOf d a b .f64 .int fmtD.cleW) s
def execFcunD (d a b : Reg) (rm : Rm) (s : State) : Out :=
  coreStep (.fcunD d a b rm) (binaryOf d a b .f64 .int fmtD.cunW) s

/-! ## The FP32 group -/

def execFaddS (d a b : Reg) (rm : Rm) (s : State) : Out :=
  coreStep (.faddS d a b rm) (binaryOf d a b .f32 .f32 (fmtS.addW rm)) s
def execFsubS (d a b : Reg) (rm : Rm) (s : State) : Out :=
  coreStep (.fsubS d a b rm) (binaryOf d a b .f32 .f32 (fmtS.subW rm)) s
def execFmulS (d a b : Reg) (rm : Rm) (s : State) : Out :=
  coreStep (.fmulS d a b rm) (binaryOf d a b .f32 .f32 (fmtS.mulW rm)) s
def execFdivS (d a b : Reg) (rm : Rm) (s : State) : Out :=
  coreStep (.fdivS d a b rm) (binaryOf d a b .f32 .f32 (fmtS.divW rm)) s
def execFsqrtS (d a b : Reg) (rm : Rm) (s : State) : Out :=
  coreStep (.fsqrtS d a b rm) (unary d a .f32 .f32 (fmtS.sqrtW rm)) s
def execFmaddS (d a b : Reg) (rm : Rm) (s : State) : Out :=
  coreStep (.fmaddS d a b rm) (ternaryOf d a b .f32 (fmtS.maddW rm)) s
def execFmsubS (d a b : Reg) (rm : Rm) (s : State) : Out :=
  coreStep (.fmsubS d a b rm) (ternaryOf d a b .f32 (fmtS.msubW rm)) s
def execFnmaddS (d a b : Reg) (rm : Rm) (s : State) : Out :=
  coreStep (.fnmaddS d a b rm) (ternaryOf d a b .f32 (fmtS.nmaddW rm)) s
def execFminS (d a b : Reg) (rm : Rm) (s : State) : Out :=
  coreStep (.fminS d a b rm) (binaryOf d a b .f32 .f32 fmtS.minW) s
def execFmaxS (d a b : Reg) (rm : Rm) (s : State) : Out :=
  coreStep (.fmaxS d a b rm) (binaryOf d a b .f32 .f32 fmtS.maxW) s
def execFabsS (d a b : Reg) (rm : Rm) (s : State) : Out :=
  coreStep (.fabsS d a b rm) (unary d a .f32 .f32 fmtS.absW) s
def execFnegS (d a b : Reg) (rm : Rm) (s : State) : Out :=
  coreStep (.fnegS d a b rm) (unary d a .f32 .f32 fmtS.negW) s
def execFceqS (d a b : Reg) (rm : Rm) (s : State) : Out :=
  coreStep (.fceqS d a b rm) (binaryOf d a b .f32 .int fmtS.ceqW) s
def execFcltS (d a b : Reg) (rm : Rm) (s : State) : Out :=
  coreStep (.fcltS d a b rm) (binaryOf d a b .f32 .int fmtS.cltW) s
def execFcleS (d a b : Reg) (rm : Rm) (s : State) : Out :=
  coreStep (.fcleS d a b rm) (binaryOf d a b .f32 .int fmtS.cleW) s
def execFcunS (d a b : Reg) (rm : Rm) (s : State) : Out :=
  coreStep (.fcunS d a b rm) (binaryOf d a b .f32 .int fmtS.cunW) s

/-! ## The conversion group -/

def execFcvtDI (d a b : Reg) (rm : Rm) (s : State) : Out :=
  coreStep (.fcvtDI d a b rm) (unary d a .int .f64 (fmtD.ofSigned rm)) s
def execFcvtDIu (d a b : Reg) (rm : Rm) (s : State) : Out :=
  coreStep (.fcvtDIu d a b rm) (unary d a .int .f64 (fmtD.ofUnsigned rm)) s
def execFcvtID (d a b : Reg) (rm : Rm) (s : State) : Out :=
  coreStep (.fcvtID d a b rm) (unary d a .f64 .int (fmtD.toSigned rm)) s
def execFcvtIuD (d a b : Reg) (rm : Rm) (s : State) : Out :=
  coreStep (.fcvtIuD d a b rm) (unary d a .f64 .int (fmtD.toUnsigned rm)) s
def execFcvtSI (d a b : Reg) (rm : Rm) (s : State) : Out :=
  coreStep (.fcvtSI d a b rm) (unary d a .int .f32 (fmtS.ofSigned rm)) s
def execFcvtSIu (d a b : Reg) (rm : Rm) (s : State) : Out :=
  coreStep (.fcvtSIu d a b rm) (unary d a .int .f32 (fmtS.ofUnsigned rm)) s
def execFcvtIS (d a b : Reg) (rm : Rm) (s : State) : Out :=
  coreStep (.fcvtIS d a b rm) (unary d a .f32 .int (fmtS.toSigned rm)) s
def execFcvtIuS (d a b : Reg) (rm : Rm) (s : State) : Out :=
  coreStep (.fcvtIuS d a b rm) (unary d a .f32 .int (fmtS.toUnsigned rm)) s
def execFcvtDS (d a b : Reg) (rm : Rm) (s : State) : Out :=
  coreStep (.fcvtDS d a b rm) (unary d a .f32 .f64 fun x => fmtD.res .rne (fmtS.read x)) s
def execFcvtSD (d a b : Reg) (rm : Rm) (s : State) : Out :=
  coreStep (.fcvtSD d a b rm) (unary d a .f64 .f32 fun x => fmtS.res (.ofBits rm) (fmtD.read x)) s

end Sys2Proof.Machine
end

