-- ==== Sys2Proof/Machine/GroomExec.lean ====
section
/-! DEFINITION. The step of a Groom instruction, and the register, immediate, multiply and divide instructions (R394 to R397,
R406, R407, R415). -/

namespace Sys2Proof.Machine

/-- What a Groom instruction does. -/
inductive GOut where
  /-- It completes, and the thread goes on at the next word. -/
  | done (s : State)
  /-- It completes with a taken branch, JL, JLR or IRET. -/
  | jump (s : State) (pc : Half)
  /-- It holds its thread and has not completed: the PC stays. -/
  | hold (s : State)
  /-- It takes a Groom fault: the code, and the data address where there is one (R407). -/
  | fault (code : Nat) (addr : Option Half)
  /-- It has taken a Groom fault, after an effect that the fault does not undo. -/
  | faulted (s : State)
  deriving DecidableEq, Repr

/-- R415: where an extension may fetch. -/
def extFetch (a : Nat) : Bool := decide (0x10030000 ≤ a) && decide (a < 0x10040000)

/-- R387, R389, R415: the fault of a fetch, if it takes one. -/
def GThread.fetchFault (h : GThread) : Option Nat :=
  let a := h.pc.toNat
  if a % 4 ≠ 0 then some 2
  else if h.ext && !extFetch a then some 4
  else match gRegion a with
    | .rom => none
    | .iram => none
    | _ => some 3

/-! ## The prefetch queue (R397, R398) -/

/-- The word of code at `a`. -/
def State.gCode (s : State) (a : Half) : Half := BitVec.ofNat 32 (s.gRead a.toNat 4)

/-- Whether the queue can take the word at `a`: it lies in ROM or IRAM and holds no uncorrectable error (R387, R390). -/
def State.gFetchable (s : State) (a : Half) : Bool :=
  (gRegion a.toNat = .rom || gRegion a.toNat = .iram) && (s.gBad a.toNat).isNone

/-- R397: the queue of a thread whose next word is at `a`, filled in ascending address order up to `n` words. How far it
is filled when an instruction issues is not stated: R398 admits the old or the new word (log entry 59). -/
def State.gFill (s : State) (a : Half) (n : Nat) (q : List (Half × Half)) : List (Half × Half) :=
  q ++ (((List.range (min n 4 - q.length)).map fun i => a + 4 * BitVec.ofNat 32 (q.length + i)).takeWhile s.gFetchable).map
    fun x => (x, s.gCode x)

/-- R397, R398: the fetch of thread `t` at its pc: the word that its queue holds for it, else the word in memory; the error
of a word that is not in the queue and cannot be executed (R390). -/
def State.gFetch (s : State) (t : Nat) : Except Ecc State :=
  let h := s.gthread t
  let deliver := fun (w : Half) (rest : List (Half × Half)) =>
    s.setGthread t { h with word := w, queue := s.gFill (h.pc + 4) (Config.prefetch t s.now h.pc).toNat rest }
  match h.queue with
  | (a, w) :: rest => if a = h.pc then .ok (deliver w rest) else
      match s.gBad h.pc.toNat with
      | some e => .error e
      | none => .ok (deliver (s.gCode h.pc) [])
  | [] =>
    match s.gBad h.pc.toNat with
    | some e => .error e
    | none => .ok (deliver (s.gCode h.pc) [])

/-- R396: lunge mode's count after an instruction; a taken branch costs one GCLK more. -/
def State.gAdvance (s : State) (taken : Bool) : State :=
  if s.groom.threaded then s
  else { s with groom := { s.groom with lclk := s.groom.lclk + 1 + taken.toNat } }

/-- What an instruction's outcome leaves: thread `t` issued it at `pc`. -/
def GOut.apply (o : GOut) (t : Nat) (pc : Half) (s : State) : State :=
  match o with
  | .done s1 => if gRestarted s s1 then s1 else (s1.modGthread t fun h => { h with pc := pc + 4 }).gAdvance false
  | .jump s1 npc =>
    if gRestarted s s1 then s1 else (s1.modGthread t fun h => { h with pc := npc, queue := [] }).gAdvance true
  | .hold s1 => if gRestarted s s1 then s1 else s1.gAdvance false
  | .fault code addr => s.groomFault t code addr
  | .faulted s1 => s1

/-- One instruction of thread `t`: nothing while the thread cannot issue; a fault of its fetch; a word that holds an
uncorrectable error is not executed (R390); ILLEGAL; else `body`, on the state in which the results whose time has come
are written and the queue is filled. -/
def State.runGroom (s : State) (t : Nat) (legal : Bool) (body : State → GThread → GOut) : State :=
  if !s.gCanIssue t then s
  else
    let s0 := s.modGthread t fun h => h.settle s.groom.lclk
    match (s0.gthread t).fetchFault with
    | some code => s0.groomFault t code none
    | none =>
      match s0.gFetch t with
      | .error e => s0.gBadMet t e
      | .ok s1 =>
        let h := s1.gthread t
        if !legal then s1.groomFault t 1 none else (body s1 h).apply t h.pc s1

/-- The command of a Groom instruction of thread `t`, which stands for the word that the thread executes; `legal` tells
that its unused fields are 0 (R394, `Instr.legal`). -/
def groomStep (t : BitVec 2) (legal : Bool) (body : State → GThread → GOut) (s : State) : Out :=
  eventStep true (fun s => s.runGroom t.toNat legal body) s

/-- A register-to-register instruction with `k` GCLK to its first read. -/
def gAlu (t : BitVec 2) (d a b : BitVec 4) (k : Nat) (f : Half → Half → Half) (s : State) (h : GThread) : GOut :=
  .done (s.gWrite t.toNat d.toNat (f (h.reg a.toNat) (h.reg b.toNat)) k)

/-- An immediate instruction. -/
def gImm (t : BitVec 2) (d a : BitVec 4) (v : Half) (f : Half → Half → Half) (s : State) (h : GThread) : GOut :=
  .done (s.gWrite t.toNat d.toNat (f (h.reg a.toNat) v) 1)

/-- R394: imm sign-extended and zero-extended. -/
def gSext (imm : BitVec 18) : Half := imm.signExtend 32
def gZext (imm : BitVec 18) : Half := imm.zeroExtend 32

/-- R394: the shift count. -/
def gCount (b : Half) : Nat := b.toNat % 32

/-- R394: SLT and SLTU. -/
def gLess (signed : Bool) (a b : Half) : Half := if (if signed then a.slt b else a.ult b) then 1 else 0

/-- R394: the high half of an unsigned product. -/
def gMulHi (a b : Half) : Half := BitVec.ofNat 32 (a.toNat * b.toNat / 2 ^ 32)

def execGAdd (t : BitVec 2) (d a b : BitVec 4) (s : State) : Out := groomStep t true (gAlu t d a b 1 (· + ·)) s
def execGSub (t : BitVec 2) (d a b : BitVec 4) (s : State) : Out := groomStep t true (gAlu t d a b 1 (· - ·)) s
def execGAnd (t : BitVec 2) (d a b : BitVec 4) (s : State) : Out := groomStep t true (gAlu t d a b 1 (· &&& ·)) s
def execGOr (t : BitVec 2) (d a b : BitVec 4) (s : State) : Out := groomStep t true (gAlu t d a b 1 (· ||| ·)) s
def execGXor (t : BitVec 2) (d a b : BitVec 4) (s : State) : Out := groomStep t true (gAlu t d a b 1 (· ^^^ ·)) s
def execGSll (t : BitVec 2) (d a b : BitVec 4) (s : State) : Out :=
  groomStep t true (gAlu t d a b 1 fun x y => x <<< gCount y) s
def execGSrl (t : BitVec 2) (d a b : BitVec 4) (s : State) : Out :=
  groomStep t true (gAlu t d a b 1 fun x y => x >>> gCount y) s
def execGSra (t : BitVec 2) (d a b : BitVec 4) (s : State) : Out :=
  groomStep t true (gAlu t d a b 1 fun x y => x.sshiftRight (gCount y)) s
def execGSlt (t : BitVec 2) (d a b : BitVec 4) (s : State) : Out :=
  groomStep t true (gAlu t d a b 1 (gLess true)) s
def execGSltu (t : BitVec 2) (d a b : BitVec 4) (s : State) : Out :=
  groomStep t true (gAlu t d a b 1 (gLess false)) s

def execGAddi (t : BitVec 2) (d a : BitVec 4) (imm : BitVec 18) (s : State) : Out :=
  groomStep t true (gImm t d a (gSext imm) (· + ·)) s
def execGAndi (t : BitVec 2) (d a : BitVec 4) (imm : BitVec 18) (s : State) : Out :=
  groomStep t true (gImm t d a (gZext imm) (· &&& ·)) s
def execGOri (t : BitVec 2) (d a : BitVec 4) (imm : BitVec 18) (s : State) : Out :=
  groomStep t true (gImm t d a (gZext imm) (· ||| ·)) s
def execGXori (t : BitVec 2) (d a : BitVec 4) (imm : BitVec 18) (s : State) : Out :=
  groomStep t true (gImm t d a (gZext imm) (· ^^^ ·)) s
def execGSlti (t : BitVec 2) (d a : BitVec 4) (imm : BitVec 18) (s : State) : Out :=
  groomStep t true (gImm t d a (gSext imm) (gLess true)) s
def execGSltui (t : BitVec 2) (d a : BitVec 4) (imm : BitVec 18) (s : State) : Out :=
  groomStep t true (gImm t d a (gSext imm) (gLess false)) s
def execGLui (t : BitVec 2) (d a : BitVec 4) (imm : BitVec 18) (s : State) : Out :=
  groomStep t (a == 0) (gImm t d a (gZext imm <<< 14) fun _ v => v) s
def execGSlli (t : BitVec 2) (d a : BitVec 4) (sh : BitVec 5) (hi : BitVec 11) (s : State) : Out :=
  groomStep t (hi == 0) (gImm t d a 0 fun x _ => x <<< sh.toNat) s
def execGSrli (t : BitVec 2) (d a : BitVec 4) (sh : BitVec 5) (hi : BitVec 11) (s : State) : Out :=
  groomStep t (hi == 0) (gImm t d a 0 fun x _ => x >>> sh.toNat) s
def execGSrai (t : BitVec 2) (d a : BitVec 4) (sh : BitVec 5) (hi : BitVec 11) (s : State) : Out :=
  groomStep t (hi == 0) (gImm t d a 0 fun x _ => x.sshiftRight sh.toNat) s

def execGMul (t : BitVec 2) (d a b : BitVec 4) (s : State) : Out := groomStep t true (gAlu t d a b 3 (· * ·)) s
def execGMulhu (t : BitVec 2) (d a b : BitVec 4) (s : State) : Out :=
  groomStep t true (gAlu t d a b 3 gMulHi) s

/-! ## The divider (R406) -/

/-- R394, R65: the result of a division at 32 bits. -/
def GDiv.result (v : GDiv) : Half :=
  match v.op with
  | 0 => if v.b = 0 then 0xFFFFFFFF else BitVec.ofInt 32 (Int.tdiv v.a.toInt v.b.toInt)
  | 1 => if v.b = 0 then 0xFFFFFFFF else BitVec.ofNat 32 (v.a.toNat / v.b.toNat)
  | 2 => if v.b = 0 then v.a else BitVec.ofInt 32 (Int.tmod v.a.toInt v.b.toInt)
  | _ => if v.b = 0 then v.a else BitVec.ofNat 32 (v.a.toNat % v.b.toNat)

/-- A division holds its thread, on the divider or waiting for it. -/
def gDivide (t : BitVec 2) (op : Nat) (d a b : BitVec 4) (s : State) (h : GThread) : GOut :=
  let v : GDiv := { d := d.toNat, op := op, a := h.reg a.toNat, b := h.reg b.toNat, pc := h.pc }
  .hold (s.modGthread t.toNat fun h => { h with divOp := some v }).gDivNext

def execGDiv (t : BitVec 2) (d a b : BitVec 4) (s : State) : Out := groomStep t true (gDivide t 0 d a b) s
def execGDivu (t : BitVec 2) (d a b : BitVec 4) (s : State) : Out := groomStep t true (gDivide t 1 d a b) s
def execGRem (t : BitVec 2) (d a b : BitVec 4) (s : State) : Out := groomStep t true (gDivide t 2 d a b) s
def execGRemu (t : BitVec 2) (d a b : BitVec 4) (s : State) : Out := groomStep t true (gDivide t 3 d a b) s

/-- R406: the division on the divider ends: its thread's result is written, and the next waiting one starts. -/
def State.gDivEnd (s : State) (t : Nat) : State :=
  let s1 := match (s.gthread t).divOp with
    | some v => s.modGthread t fun h => { h.settleAll.setReg v.d v.result with divOp := none, pc := v.pc + 4 }
    | none => s
  State.gDivNext { s1 with groom := { s1.groom with divBusy := none } }

/-- R406. -/
def execGroomDivComplete (s : State) : Out :=
  eventStep (match s.groom.divBusy with
      | some p => !s.groom.halted && decide (p.2 ≤ s.gclk)
      | none => false) (fun s => match s.groom.divBusy with
      | some p => s.gDivEnd p.1
      | none => s) s

end Sys2Proof.Machine
end

