-- ==== Sys2Proof/Machine/GroomMem.lean ====
section
/-! DEFINITION. The Groom's loads, stores, branches, SYNC, IRET and WFI, its interrupt entry, machine check, timers and
restart (R387 to R392, R394, R400 to R409, R415). -/

namespace Sys2Proof.Machine

/-! ## Loads and stores (R387, R389, R391, R392, R415) -/

/-- R387, R389, R415: the fault of a data access of `n` bytes, if it takes one. -/
def GThread.dataFault (h : GThread) (write : Bool) (a n : Nat) (v : Half) : Option Nat :=
  if a % n ≠ 0 then some 2
  else if h.ext && !extMay write a v then some 4
  else match gRegion a with
    | .rom => if write then some 3 else none
    | .iram => none
    | .dram => none
    | .control => if n = 4 then none else some 3
    | .aperture => if n = 4 then none else some 3
    | .window => none
    | .nowhere => some 3

/-- R391: the offset of an aperture register, and the half of it that a Groom address names. -/
def gApOff (a : Nat) : Nat := (a - 0x50000000) / 8 * 8
def gApLane (a : Nat) : Lanes := if a % 8 = 4 then .hi else .lo

/-- R392: the physical address that an external-window address reaches. -/
def State.xwinPa (s : State) (a : Nat) : Nat := s.groom.xwin.toNat % 2 ^ 24 * 2 ^ 28 + (a - 0x80000000)

/-- R391: a load from the aperture. -/
def gApLoad (t d a : Nat) (s : State) : GOut :=
  let (w, s1) := s.apRead (.groom (BitVec.ofNat 2 t)) (gApOff a) (gApLane a)
  match w with
  | none => .fault 3 (some (BitVec.ofNat 32 a))
  | some w =>
    let v : Half := if gApLane a = .hi then (w >>> 32).truncate 32 else w.truncate 32
    .done (s1.gHold t (some (d, v)))

/-- R392: a load through the external window. NOTARGET answers 0, with the record that `unitRead` writes; the request of a
poisoned chunk has been made when the fault is taken. -/
def gWinLoad (t d a n : Nat) (s : State) : GOut :=
  let pa := s.xwinPa a
  let (bs, bad, s1) := s.unitRead pa n none
  if bad && !s.mem.lost (pa / 128) then .faulted (s1.groomFault t 5 (some (BitVec.ofNat 32 a)))
  else .done (s1.gHold t (some (d, BitVec.ofNat 32 (leNat bs))))

/-- A load of `n` bytes. A word that holds an uncorrectable error is not delivered (R390). -/
def gLoad (t : BitVec 2) (d a : BitVec 4) (imm : BitVec 18) (n : Nat) (s : State) (h : GThread) : GOut :=
  let va := (h.reg a.toNat + gSext imm).toNat
  match h.dataFault false va n 0 with
  | some code => .fault code (some (BitVec.ofNat 32 va))
  | none =>
    match gRegion va with
    | .control =>
      match s.gctlRead (va - 0x40000000) with
      | some v => .done (s.gWrite t.toNat d.toNat v 2)
      | none => .fault 3 (some (BitVec.ofNat 32 va))
    | .aperture => gApLoad t.toNat d.toNat va s
    | .window => gWinLoad t.toNat d.toNat va n s
    | _ =>
      match s.gBad va with
      | some e => .hold (s.gBadMet t.toNat e)
      | none => .done (s.gWrite t.toNat d.toNat (BitVec.ofNat 32 (s.gRead va n)) 2)

/-- R391: a store to the aperture. -/
def gApStore (t a : Nat) (v : Half) (s : State) : GOut :=
  let w : Word := if gApLane a = .hi then Word.ofNat (v.toNat * 2 ^ 32) else Word.ofNat v.toNat
  let (ok, s1) := s.apWrite (.groom (BitVec.ofNat 2 t)) (gApOff a) (gApLane a) w false
  if !ok then .fault 3 (some (BitVec.ofNat 32 a))
  else .done (if gRestarted s s1 then s1 else s1.gHold t none)

/-- A store of the low `n` bytes of register `d`. -/
def gStoreInsn (t : BitVec 2) (d a : BitVec 4) (imm : BitVec 18) (n : Nat) (s : State) (h : GThread) : GOut :=
  let va := (h.reg a.toNat + gSext imm).toNat
  let v := h.reg d.toNat
  match h.dataFault true va n v with
  | some code => .fault code (some (BitVec.ofNat 32 va))
  | none =>
    match gRegion va with
    | .control =>
      match s.gctlWrite t.toNat (va - 0x40000000) (s.extValue h (va - 0x40000000) v) with
      | some s1 => .done s1
      | none => .fault 3 (some (BitVec.ofNat 32 va))
    | .aperture => gApStore t.toNat va v s
    | .window => .done ((s.unitWrite (s.xwinPa va) (leBytes n v.toNat) false none).gHold t.toNat none)
    | _ => .done (s.gStore va n v.toNat)

def execGLdw (t : BitVec 2) (d a : BitVec 4) (imm : BitVec 18) (s : State) : Out := groomStep t true (gLoad t d a imm 4) s
def execGLdhu (t : BitVec 2) (d a : BitVec 4) (imm : BitVec 18) (s : State) : Out := groomStep t true (gLoad t d a imm 2) s
def execGLdbu (t : BitVec 2) (d a : BitVec 4) (imm : BitVec 18) (s : State) : Out := groomStep t true (gLoad t d a imm 1) s
def execGStw (t : BitVec 2) (d a : BitVec 4) (imm : BitVec 18) (s : State) : Out := groomStep t true (gStoreInsn t d a imm 4) s
def execGSth (t : BitVec 2) (d a : BitVec 4) (imm : BitVec 18) (s : State) : Out := groomStep t true (gStoreInsn t d a imm 2) s
def execGStb (t : BitVec 2) (d a : BitVec 4) (imm : BitVec 18) (s : State) : Out := groomStep t true (gStoreInsn t d a imm 1) s

/-- R391, R392: the response of a held access arrives. A write of the Tack store that its full queue holds answers only
once it is accepted (R475). -/
def execGroomAccessResponse (t : BitVec 2) (s : State) : Out :=
  eventStep ((s.gthread t.toNat).held.isSome && !s.tkHolds t.toNat && !s.groom.halted) (fun s =>
    s.modGthread t.toNat fun h =>
      let h1 := { h.settleAll with held := none }
      match h.held.bind (·.dest) with
      | some (d, v) => h1.setReg d v
      | none => h1) s

/-! ## Branches (R394) -/

/-- R394: a target `off` words from `pc`. -/
def gTarget (pc : Half) (off : BitVec 18) : Half := pc + 4 * gSext off

/-- A conditional branch. -/
def gBranch (a : BitVec 4) (imm : BitVec 18) (zero : Bool) (s : State) (h : GThread) : GOut :=
  if (h.reg a.toNat = 0) = (zero = true) then .jump s (gTarget h.pc imm) else .done s

def execGBz (t : BitVec 2) (d a : BitVec 4) (imm : BitVec 18) (s : State) : Out := groomStep t (d == 0) (gBranch a imm true) s
def execGBnz (t : BitVec 2) (d a : BitVec 4) (imm : BitVec 18) (s : State) : Out := groomStep t (d == 0) (gBranch a imm false) s

def execGJl (t : BitVec 2) (d a : BitVec 4) (imm : BitVec 18) (s : State) : Out :=
  groomStep t (a == 0) (fun s h => .jump (s.gWrite t.toNat d.toNat (h.pc + 4) 1) (gTarget h.pc imm)) s

/-- R394: a target that is not a multiple of 4 takes UNALIGNED. -/
def execGJlr (t : BitVec 2) (d a : BitVec 4) (imm : BitVec 18) (s : State) : Out :=
  groomStep t true (fun s h =>
    let target := h.reg a.toNat + gSext imm
    if target.toNat % 4 ≠ 0 then .fault 2 none
    else .jump (s.gWrite t.toNat d.toNat (h.pc + 4) 1) target) s

/-! ## SYNC, IRET, WFI (R400, R405) -/

/-- R400, R394: a command that carries the fetched word stands for a reserved encoding, and takes ILLEGAL; it stands for
nothing where some row spells that word. -/
def execGSync (t : BitVec 2) (d a b : BitVec 4) (word : Option Half) (s : State) : Out :=
  if !(Instr.gSync t d a b word).spells then .next s
  else groomStep t (d == 0 && a == 0 && b == 0 && word.isNone) (fun s _ => .done (s.gSync t.toNat)) s

/-- The thread waits for an interrupt. -/
def execGWfi (t : BitVec 2) (d a b : BitVec 4) (s : State) : Out :=
  groomStep t (d == 0 && a == 0 && b == 0) (fun s _ => .done (s.modGthread t.toNat fun h => { h with wfi := true })) s

/-- R405: the registers of a thread restored from the frame at `a`. -/
def State.gUnstack (s : State) (t a : Nat) : State × Half :=
  let w := fun i => s.gWord (a + 4 * i)
  (s.modGthread t fun h =>
    let h1 := [(0, 0), (1, 1), (2, 2), (3, 3), (13, 4), (14, 5)].foldl (fun h p => h.setReg p.1 (w p.2)) h
    { h1.setReg 15 (BitVec.ofNat 32 (a + 32)) with level := (w 7).toNat % 32, ie := (w 7).getLsbD 5 },
   w 6)

/-- R403, R405: w15 names a frame that IRET can read. -/
def GThread.frameThere (h : GThread) : Bool :=
  let a := (h.reg 15).toNat
  a % 8 = 0 && decide (0x20000000 ≤ a) && decide (a + 32 ≤ 0x20040000)

/-- R390: the error of the first word of the frame at `a` that holds an uncorrectable one. -/
def State.gFrameBad (s : State) (a : Nat) : Option Ecc := ((List.range 8).filterMap fun i => s.gBad (a + 4 * i)).head?

/-- R408: this IRET ends the machine check handler of thread 0. -/
def State.gEndsMc (s : State) (t : Nat) (sp : Half) : Bool := t = 0 && s.groom.inMc && decide (sp = s.groom.mcFrame)

/-- R405. The frame is that of w15 as the instruction reads it (R396). A bad frame is a FRAME fault, which escalates (R408);
a machine check that arose before the machine check handler's IRET restarts the Groom. A frame that an extension may not read
takes EXT_DENIED (R415). A vector word of a chained source that holds an uncorrectable error is met before the IRET has ended
the machine check handler (R390; DEDUCED, log entry 96). -/
def gIretBody (t : Nat) (s : State) (h : GThread) : GOut :=
  let sp := h.reg 15
  let s1 := (s.gSync t).modGthread t GThread.settleAll
  if !h.frameThere then .hold ((s.modGthread t fun h => { h with causeCode := 6 }).gMachineCheck t)
  else match h.frameDenied false sp.toNat, s1.gFrameBad sp.toNat with
    | some x, _ => .fault 4 (some (BitVec.ofNat 32 x))
    | none, some e => .hold (s.gBadMet t e)
    | none, none =>
      if s1.gEndsMc t sp && s1.groom.ipend.bit 33 then .hold (s1.groomRestart 2 t)
      else
        let st := s1.gWord (sp.toNat + 28)
        let s2 := if s1.gEndsMc t sp then { s1 with groom := { s1.groom with inMc := false } } else s1
        match s2.gNext t (st.toNat % 32) (st.getLsbD 5) with
        | some n =>
          match s1.gVectorBad t n with
          | some s3 => .hold s3
          | none => let (s3, pc) := s2.gChainTo t n; .jump s3 pc
        | none => let (s3, pc) := s2.gUnstack t sp.toNat; .jump s3 pc

/-- R405. -/
def execGIret (t : BitVec 2) (d a b : BitVec 4) (s : State) : Out :=
  groomStep t (d == 0 && a == 0 && b == 0) (gIretBody t.toNat) s

/-! ## Events -/

/-- R402, R408: what thread `t` takes at its next boundary: the source of lowest PRIO, and the lowest number among those;
source 33 counts whatever IEN, IE and LEVEL are. -/
def State.gBoundary (s : State) (t : Nat) : State :=
  let h := s.gthread t
  match s.gNext t h.level h.ie with
  | some n => if n = 33 then s.gTakeMachineCheck else s.gTakeSource t n
  | none => s

/-- R402 to R404: the best eligible source of thread `t` is entered at its boundary; holds by accesses are not abandoned. -/
def execGroomInterruptEntry (t : BitVec 2) (s : State) : Out :=
  eventStep (s.gRuns t.toNat && (s.gthread t.toNat).held.isNone) (fun s =>
    s.gBoundary t.toNat) s

/-- R390: the word at a Groom address of IRAM or DRAM holds an uncorrectable error from now on. -/
def State.gMarkBad (s : State) (a : Nat) (e : Ecc) : State :=
  if gRegion a = .iram ∨ gRegion a = .dram then { s with groom := { s.groom with bad := s.groom.bad.set (a / 4) e } } else s

/-- R408, R390: a machine check: an uncorrectable error that a read of IRAM or DRAM meets, or one that is pending; at its
boundary thread 0 takes it, or a source that goes before it (R402). A corrected error is recorded. -/
def State.machineCheck (s : State) (why : MachineCheck) : State :=
  let s1 := match why with
    | .memoryError w e => (s.gMarkBad w.toNat e).gBadMet 0 e
    | .memoryCorrected e => s.record (.ecc e 0x101 0xE 0 none)
    | .escalated => s
  if gRestarted s s1 then s1
  else if s1.groom.ipend.bit 33 && s1.gRuns 0 && (s1.gthread 0).held.isNone then s1.gBoundary 0 else s1

/-- R408. -/
def execGroomMachineCheck (why : MachineCheck) (s : State) : Out :=
  eventStep (!s.groom.halted && decide (2 ≤ s.boot.sstep)) (fun s => s.machineCheck why) s

/-- R399: TMR_n expires, which pends source 44 + n, and stops. -/
def execGroomTimerExpiry (n : BitVec 2) (s : State) : Out :=
  eventStep (decide ((s.groom.tmr.get (0, 0) n.toNat).1 ≠ 0) && decide (s.gTimer n.toNat = 0)) (fun s =>
    State.pendGroom { s with groom := { s.groom with tmr := s.groom.tmr.set n.toNat (0, s.now) } } (44 + n.toNat)) s

/-- R399: a write of ISET by thread `t`; an extension may set bits 0 to 2 only (R415). -/
def execIset (t : BitVec 2) (v : Half) (s : State) : Out :=
  eventStep true (fun s =>
    s.groomAccess t.toNat true 0x40000070 v fun s => some (s.gIset v)) s

/-- R401, R416: the hash engine is done. While an extension stands halted, the running firmware has verified a new image
with it (DEDUCED, log entry 95). -/
def execHashDone (s : State) : Out :=
  eventStep true (fun s =>
    let s1 := s.pendGroom 38
    if s.bridle.ready && s.groom.extHalted then s1.loadExtension else s1) s

/-- R401, R507: the level of a licensee interrupt input. -/
def execLicIrq (n : BitVec 3) (level : Bool) (s : State) : Out :=
  .next { s with groom := { s.groom with
    lic := if level then s.groom.lic ||| (1 <<< n.toNat : BitVec 8) else s.groom.lic &&& ~~~(1 <<< n.toNat : BitVec 8) } }

/-- R409, R463: the Groom restarts: by firmware, or by a machine check or a fault of thread 0 within its handler. -/
def execGroomRestart (reason : RestartReason) (t : BitVec 2) (s : State) : Out :=
  eventStep (decide (9 ≤ s.boot.sstep)) (fun s =>
    match reason with
    | .firmware => s.groomRestart 1 t.toNat
    | .nested => if s.groom.inMc then s.groomRestart 2 0 else s) s

end Sys2Proof.Machine
end

