-- ==== Sys2Proof/Machine/LoadStore.lean ====
section
/-! DEFINITION. Scalar loads and stores (R47 to R50, R73 to R77), with core accesses to the aperture (R31) and to other device
regions (R331). -/

namespace Sys2Proof.Machine

/-- A load form: the bytes it reads, whether it sign-extends them, and its tag (R47). -/
structure LoadForm where
  n : Nat
  signed : Bool
  tag : Tag
  deriving DecidableEq, Repr

/-- R47: the data bits of a load from the bytes read. -/
def LoadForm.value (f : LoadForm) (v : Nat) : Word :=
  if f.signed then (BitVec.ofNat (8 * f.n) v).signExtend 64 else Word.ofNat v

/-- R73: the address of an access. -/
def accessVa (a : TVal) (imm : BitVec 15) : Word := a.data + imm.signExtend 64

/-- R308: whether a physical address lies in the BLK_BASE aperture. -/
def State.inAperture (s : State) (pa : Nat) : Bool := pa / 2 ^ 24 = s.boot.straps.blkBase.toNat

/-- R17: the register and lanes that an aligned aperture access names. -/
def apOff (pa : Nat) : Nat := pa % 2 ^ 24 / 8 * 8
def apLane (pa n : Nat) : Lanes := if n = 8 then .both else if pa % 8 = 4 then .hi else .lo

/-- R77: whether a device region refuses an access of `n` bytes at `va`, translated to `pa`. -/
def State.deviceRefuses (s : State) (va : Word) (pa n : Nat) : Bool :=
  va.toNat % n ≠ 0 || (s.inAperture pa && (decide (n < 4) || (only64 (apOff pa) && n ≠ 8)))

/-- A load from a device region. In the aperture, a refused read returns 0 with tag INT (R31). What another device answers
is a free value (DESIGN CHOICE, log entry 34). -/
def deviceLoad (f : LoadForm) (va : Word) (pa : Nat) : M TVal := do
  let s ← get
  if s.deviceRefuses va pa f.n then trapM 6 va
  if s.inAperture pa then
    let (w, s1) := s.apRead .core (apOff pa) (apLane pa f.n)
    set s1
    match w with
    | none => pure ⟨0, .int⟩
    | some w => pure ⟨f.value (if apLane pa f.n = .hi then (w >>> 32).toNat else w.toNat), f.tag⟩
  else
    set { s with free := s.free + 1 }
    pure ⟨f.value ((Config.freeWord s.free).toNat % 2 ^ (8 * f.n)), f.tag⟩

/-- R48, R74: a load from memory or buffer memory; a poisoned one has tag POISON and the bits delivered. R459: its
POISON_IN record names the port that delivered the first poisoned chunk. -/
def plainLoad (f : LoadForm) (ps : List (TlbEntry × Nat × Nat)) : M TVal := do
  let s ← get
  let (g, s1) := readParts s.curCtx ps s
  set (s1.poisonIn g.port.1 g.port.2 g.portChunks s.curCtx)
  pure ⟨f.value (leNat g.bytes), if g.poison then .poison else f.tag⟩

/-- R73: a load. -/
def loadInsn (d a : Reg) (imm : BitVec 15) (f : LoadForm) : M (Option Word) := do
  let x := (← get).reg a
  checkTags [⟨2, x, only .vaddr⟩]
  let va := accessVa x imm
  let ps ← translateParts 1 va (splitParts va f.n)
  let v ← if (← get).anyDevice ps then deviceLoad f va ((ps.map (·.2.1)).headD 0) else plainLoad f ps
  modify fun s => s.setReg d v
  pure none

/-- R50: whether a translated store reaches the Tack window. -/
def State.toTack (s : State) (ps : List (TlbEntry × Nat × Nat)) : Bool :=
  ps.any fun p => s.inAperture p.2.1 && decide (0x30000 ≤ p.2.1 % 2 ^ 24) && decide (p.2.1 % 2 ^ 24 < 0x40000)

/-- A store to a device region. A store that the aperture refuses changes nothing (R31); what one to another device does
lies outside the block (DESIGN CHOICE, log entry 34). -/
def deviceStore (n : Nat) (va : Word) (pa : Nat) (v : TVal) : M Unit := do
  let s ← get
  if s.deviceRefuses va pa n then trapM 6 va
  if s.inAperture pa then
    let w : Word := if apLane pa n = .hi then v.data <<< 32 else v.data
    set (s.apWrite .core (apOff pa) (apLane pa n) w (v.tag = .poison)).2

/-- R73, R49: a store of the low `n` bytes of `d`. -/
def storeInsn (d a : Reg) (imm : BitVec 15) (n : Nat) : M (Option Word) := do
  let s ← get
  let v := s.reg d
  let x := s.reg a
  checkTags [⟨1, v, fun t => t ≠ .none⟩, ⟨2, x, only .vaddr⟩]
  let va := accessVa x imm
  let ps ← translateParts 2 va (splitParts va n)
  if v.tag = .poison && (← get).toTack ps then throw (Abort.trap 0x41 1 .poison v.data)
  if (← get).anyDevice ps then deviceStore n va ((ps.map (·.2.1)).headD 0) v
  else modify fun s => writeParts s.curCtx (v.tag = .poison) ps (leBytes n v.data.toNat) s
  pure none

def execLdI8 (d a : Reg) (imm : BitVec 15) (s : State) : Out := coreStep (.ldI8 d a imm) (loadInsn d a imm ⟨1, true, .int⟩) s
def execLdI8u (d a : Reg) (imm : BitVec 15) (s : State) : Out := coreStep (.ldI8u d a imm) (loadInsn d a imm ⟨1, false, .int⟩) s
def execLdI16 (d a : Reg) (imm : BitVec 15) (s : State) : Out := coreStep (.ldI16 d a imm) (loadInsn d a imm ⟨2, true, .int⟩) s
def execLdI16u (d a : Reg) (imm : BitVec 15) (s : State) : Out := coreStep (.ldI16u d a imm) (loadInsn d a imm ⟨2, false, .int⟩) s
def execLdI32 (d a : Reg) (imm : BitVec 15) (s : State) : Out := coreStep (.ldI32 d a imm) (loadInsn d a imm ⟨4, true, .int⟩) s
def execLdI32u (d a : Reg) (imm : BitVec 15) (s : State) : Out := coreStep (.ldI32u d a imm) (loadInsn d a imm ⟨4, false, .int⟩) s
def execLdI (d a : Reg) (imm : BitVec 15) (s : State) : Out := coreStep (.ldI d a imm) (loadInsn d a imm ⟨8, false, .int⟩) s
def execLdF32 (d a : Reg) (imm : BitVec 15) (s : State) : Out := coreStep (.ldF32 d a imm) (loadInsn d a imm ⟨4, false, .f32⟩) s
def execLdF64 (d a : Reg) (imm : BitVec 15) (s : State) : Out := coreStep (.ldF64 d a imm) (loadInsn d a imm ⟨8, false, .f64⟩) s
def execLdVa (d a : Reg) (imm : BitVec 15) (s : State) : Out := coreStep (.ldVa d a imm) (loadInsn d a imm ⟨8, false, .vaddr⟩) s
def execLdBa (d a : Reg) (imm : BitVec 15) (s : State) : Out := coreStep (.ldBa d a imm) (loadInsn d a imm ⟨8, false, .baddr⟩) s
def execLdSh (d a : Reg) (imm : BitVec 15) (s : State) : Out := coreStep (.ldSh d a imm) (loadInsn d a imm ⟨8, false, .shape⟩) s
def execLdSd (d a : Reg) (imm : BitVec 15) (s : State) : Out := coreStep (.ldSd d a imm) (loadInsn d a imm ⟨8, false, .sdesc⟩) s
def execLdW (d a : Reg) (imm : BitVec 15) (s : State) : Out := coreStep (.ldW d a imm) (loadInsn d a imm ⟨8, false, .wide⟩) s
def execStI8 (d a : Reg) (imm : BitVec 15) (s : State) : Out := coreStep (.stI8 d a imm) (storeInsn d a imm 1) s
def execStI16 (d a : Reg) (imm : BitVec 15) (s : State) : Out := coreStep (.stI16 d a imm) (storeInsn d a imm 2) s
def execStI32 (d a : Reg) (imm : BitVec 15) (s : State) : Out := coreStep (.stI32 d a imm) (storeInsn d a imm 4) s
def execStI (d a : Reg) (imm : BitVec 15) (s : State) : Out := coreStep (.stI d a imm) (storeInsn d a imm 8) s

end Sys2Proof.Machine
end

