-- ==== Sys2Proof/Machine/Ports.lean ====
section
/-! DEFINITION. The ports that the host chip answers: the memory access ports, the snoop port and the buffer ports (R319, R320,
R335, R336, R338, R508, R509). -/

namespace Sys2Proof.Machine

/-! ## Errors that a port reports (R338, R452, R453) -/

/-- The running image and its instruction started last, where a port delivers to or from that image. -/
def State.portRun (s : State) (mine : Run → Bool) : Option (Run × Started) :=
  match s.runsNow s.tile.active.toNat with
  | some r => if mine r then r.started.getLast?.map fun x => (r, x) else none
  | none => none

/-- R338, R452: an error of a port that delivers to or from the running image is charged to the run whose instruction
started last, as detected at that one's latency end (DESIGN CHOICE, log entry 109); any other is recorded alone, as poisoned. -/
def State.portError (s : State) (mine : Run → Bool) (e : ErrRec) : State :=
  match s.portRun mine with
  | some (r, x) =>
    let (s1, r1) := s.chargeErrors r x.run x.start x.latency x.latency [e]
    s1.setRun s.tile.active.toNat (some r1)
  | none => s.record e

/-- Whether the image holds a pin with a byte of the 128-byte line. -/
def Run.pinsLine (r : Run) (line : Nat) : Bool :=
  r.pins.any fun p => decide (p.pa < line * 128 + 128) && decide (line * 128 < p.pa + 2 ^ p.size)

/-- Whether the image holds a range with a byte of the `n` bytes of buffer memory at `off`. -/
def Run.rangesBytes (r : Run) (off n : Nat) : Bool :=
  r.ranges.any fun h => decide (h.off < off + n) && decide (off < h.off + h.len)

/-! ## Memory access ports (R319, R509) -/

/-- Whether any cache of the block holds the line. -/
def Caches.hasLine (c : Caches) (line : Nat) : Bool :=
  (c.l1i.any fun e => e.2.line = line) || (c.l1d.any fun e => e.2.line = line) || (c.l2.any fun e => e.2.line = line)

/-- A line's chunks with the marks of `pmask`, chunk `8 * i` of the block onwards. -/
def lineMarks (pmask : BitVec 16) (i : Nat) : List Bool := (List.range 8).map fun j => pmask.getLsbD (8 * i + j)

/-- Chunk marks of a line set one by one. -/
def Store.putLineMarks (m : Store) (line : Nat) (marks : List Bool) : Store :=
  (marks.zipIdx).foldl (fun m p => m.putMark (line * 8 + p.2) p.1) m

/-- R319: line `i` of a block is answered GOOD or POISON on a read. Memory holds what the port delivers, unless a cache of
the block holds the line. -/
def State.readAnswered (s : State) (line i : Nat) (data : List Byte) (marks : List Bool) : State :=
  if s.caches.hasLine line then s
  else
    let st := (s.mem.store.putBytes (line * 128) ((data.drop (128 * i)).take 128)).putLineMarks line marks
    { s with mem := { store := st, noTarget := s.mem.noTarget.put false line false } }

/-- R319: a write of a line is performed; the chunks that the mask names are recorded as poisoned. -/
def State.writeAnswered (s : State) (line : Nat) (marks : List Bool) : State :=
  let bad := (marks.zipIdx.filter (·.1)).map fun p => line * 8 + p.2
  { s with mem := { store := s.mem.store.putMarks true bad, noTarget := s.mem.noTarget.put false line false } }

/-- R319, R509: the lines of a request have no target: one response applies to each of them. None is cached, and one record
names the port, which R314 gives by address bits [10:8], and the first of the lines. -/
def State.noTargetAnswered (s : State) (lines : List Nat) : State :=
  let s1 := lines.foldl (fun s l =>
    { s with caches := s.caches.removeLine l, mem := { s.mem with noTarget := s.mem.noTarget.put false l true } }) s
  match lines with
  | [] => s
  | l :: _ => s1.portError (fun r => lines.any r.pinsLine) (tileErr 0x106 9 (l / 2 % 8) (l * 128) 0)

/-- R319: one line of a response with data, or of a performed write. -/
def State.lineAnswered (write : Bool) (data : List Byte) (pmask : BitVec 16) (s : State) (line : Nat) : State :=
  if write then s.writeAnswered line (lineMarks pmask (line % 2))
  else s.readAnswered line (line % 2) data (lineMarks pmask (line % 2))

/-- R319, R509: a memory access port answers a request for the lines of a 256-byte block that `lmask` names. -/
def State.memAnswered (s : State) (write : Bool) (block : Nat) (lmask : BitVec 2) (resp : PortResp) (data : List Byte)
    (pmask : BitVec 16) : State :=
  let lines := [block * 2, block * 2 + 1].filter fun l => lmask.getLsbD (l % 2)
  match resp with
  | .notarget => s.noTargetAnswered lines
  | .good => lines.foldl (State.lineAnswered write data 0) s
  | .poison => lines.foldl (State.lineAnswered write data pmask) s

/-- R509: an answer carries the tag of its request; every request of the block carries tag 0 (DESIGN CHOICE, log entry 99). -/
def execMemPortResponse (tag : BitVec 8) (write : Bool) (block : BitVec 44) (lmask : BitVec 2) (resp : PortResp)
    (data : List Byte) (pmask : BitVec 16) (s : State) : Out :=
  eventStep (tag = 0) (fun s => s.memAnswered write block.toNat lmask resp data pmask) s

/-! ## Snoops (R320) -/

/-- R320, R509: what SN_RSP carries for a line: SN_RTAG, SN_DIRTY, and a dirty line's bytes and poison bits. -/
def State.snoopAnswer (s : State) (line : Nat) (tag : BitVec 8) : State :=
  let dirty := s.caches.dirtyLine line
  let held := if dirty then s.mem.store.line line else ([], [])
  let rsp : SnoopRsp := { tag := tag, dirty := dirty, data := held.1, poison := held.2 }
  { s with ports := { s.ports with snoop := some rsp } }

/-- R320: a snoop-invalidate removes the line from every cache and returns it if dirty. -/
def execSnoopInvalidate (line : BitVec 45) (tag : BitVec 8) (s : State) : Out :=
  eventStep true (fun s =>
    let s1 := s.snoopAnswer line.toNat tag
    { s1 with caches := s1.caches.removeLine line.toNat }) s

/-- R320: a snoop-read returns a dirty line and leaves it cached and clean. -/
def execSnoopRead (line : BitVec 45) (tag : BitVec 8) (s : State) : Out :=
  eventStep true (fun s =>
    let s1 := s.snoopAnswer line.toNat tag
    { s1 with caches := s1.caches.cleanLine line.toNat }) s

/-! ## Buffer ports (R335, R336, R338) -/

/-- R335, R338: a data beat. A failed one is recorded or charged, and outside a run its chunks are taken as poisoned from then
on; otherwise buffer memory holds the chunks that the beat delivers. -/
def State.bufBeat (s : State) (port chunk : Nat) (data : List Byte) (rpoison : BitVec 32) (rerr : Bool) : State :=
  let n := data.length / 16
  let off := chunk * 16
  let mine := fun (r : Run) => r.rangesBytes off (16 * n)
  if rerr then
    let s1 := s.portError mine (tileErr 0x107 0xA port off 0)
    let here := (List.range n).filter fun j => decide (off + 16 * j + 16 ≤ s.buf.size)
    if (s.portRun mine).isSome then s1
    else { s1 with buf := { s1.buf with store := s1.buf.store.putMarks true (here.map (chunk + ·)) } }
  else if s.buf.size < off + 16 * n then s
  else
    let cs := (List.range n).map fun j => (((data.drop (16 * j)).take 16, rpoison.getLsbD j) : Chunk)
    { s with buf := { s.buf with store := s.buf.store.putChunks off cs } }

def execBufReadData (port : BitVec 3) (chunk : BitVec 28) (data : List Byte) (rpoison : BitVec 32) (rerr : Bool)
    (s : State) : Out :=
  eventStep true (fun s => s.bufBeat port.toNat chunk.toNat data rpoison rerr) s

/-- R336, R338: an acknowledge of a write of `n` chunks. With AERR the host chip marks each of them poisoned. -/
def State.bufAck (s : State) (port chunk n : Nat) (aerr : Bool) : State :=
  if aerr then
    let off := chunk * 16
    let here := (List.range n).filter fun j => decide (off + 16 * j + 16 ≤ s.buf.size)
    let s1 := { s with buf := { s.buf with store := s.buf.store.putMarks true (here.map (chunk + ·)) } }
    s1.portError (fun r => r.rangesBytes off (16 * n)) (tileErr 0x108 0xA port off 0)
  else s

def execBufWriteAck (port : BitVec 2) (chunk : BitVec 28) (len : BitVec 5) (aerr : Bool) (s : State) : Out :=
  eventStep true (fun s => s.bufAck port.toNat chunk.toNat (len.toNat + 1) aerr) s

end Sys2Proof.Machine
end

