-- ==== Sys2Proof/Machine/Power.lean ====
section
/-! DEFINITION. The thermal state, telemetry, the pacing window, the PWRFAIL_N sequence with the error history, and the test
wrapper (R462, R486, R501 to R506, R512). -/

namespace Sys2Proof.Machine

/-! ## The thermal state (R502) -/

/-- The active THERM_CFG fields (R498). -/
def State.tWarn (s : State) : Nat := (s.cfgAct 0x70 0xC003).bits 7 0
def State.tEmerg (s : State) : Nat := (s.cfgAct 0x70 0xC003).bits 15 8
def State.tHyst (s : State) : Nat := (s.cfgAct 0x70 0xC003).bits 23 16

/-- R502: the thermal state after a sample; `hot` tells that THERM_N is asserted. -/
def State.thermNext (s : State) (temp : Nat) (hot : Bool) : Therm :=
  if s.tEmerg ≤ temp ∨ hot then .emergency
  else match s.power.therm with
    | .normal => if s.tWarn ≤ temp then .throttle else .normal
    | .throttle => if temp + s.tHyst < s.tWarn then .normal else .throttle
    | .emergency => if temp + s.tHyst < s.tEmerg then .throttle else .emergency

/-- Every admitted image is abandoned with a RESULT (R244, R502, R504). -/
def State.abandonAll (s : State) (result : BitVec 8) : State :=
  let s1 := (s.abandonRun 0 result).abandonRun 1 result
  s1.runs.parked.foldl (fun (s : State) (p : Nat × Run) => s.endParked p.1 result) s1

/-- The contexts with an admitted image. -/
def State.admittedCtxs (s : State) : List Nat :=
  (s.runs.run0.map (·.ctx)).toList ++ (s.runs.run1.map (·.ctx)).toList ++ s.runs.parked.map (·.1)

/-- R502: a change of the thermal state, with what entry to EMERGENCY does. -/
def State.setTherm (s : State) (t : Therm) : State :=
  let s1 := { s with power := { s.power with therm := t } }
  if t = .emergency ∧ s.power.therm ≠ .emergency then
    let s2 := (s1.abandonAll 8).alertAll 2
    { s2 with power := { s2.power with
      emAt := some (aclkOf s.now), emEnded := s.admittedCtxs.filter fun c => (s2.admitted c).isNone } }
  else s1

/-- R502: a 10 µs sample; `thermN` is the level of THERM_N. -/
def State.thermalSample (s : State) (temp : Byte) (thermN : Bool) : State :=
  let s1 := { s with power := { s.power with temp := temp, thermN := thermN } }
  s1.setTherm (s1.thermNext temp.toNat (!thermN))

/-- R502. -/
def execThermalSample (temp : BitVec 8) (thermN : Bool) (s : State) : Out :=
  eventStep true (fun s => s.thermalSample temp thermN) s

/-- R502: THERM_N is asserted. -/
def execThermNAssert (s : State) : Out :=
  eventStep true (fun s => State.setTherm { s with power := { s.power with thermN := false } } .emergency) s

/-- R502, R498: telemetry. -/
def execPtelSample (mw : BitVec 20) (s : State) : Out :=
  eventStep true (fun s => { s with power := { s.power with tel := mw } }) s

/-- R501: a window of 1,024 ACLK begins. -/
def execPacingWindow (s : State) : Out :=
  eventStep true (fun s => { s with tile := { s.tile with winEnergy := 0 } }) s

/-! ## The error history (R462) -/

/-- R470: an error history register saturates. -/
def satAdd (w : Word) (n : Nat) : Word := if 2 ^ 64 ≤ w.toNat + n then BitVec.allOnes 64 else w + Word.ofNat n

/-- R462: one count is added; it is kept until the addition has been committed (`State.historyAdded`), so that what a
refused one would have added goes into the next. -/
def State.addCount (s : State) (p : Nat × Nat) : State :=
  if p.2 = 0 then s else s.tackWrite (16 + p.1) (satAdd (s.tack.read (16 + p.1)) p.2) .history

/-- R462: the counts of the error history are added to its registers. -/
def State.addHistory (s : State) : State := s.ras.counts.foldl State.addCount s

/-- Whether firmware runs (R409, R465, R493). -/
def State.firmwareRuns (s : State) : Bool := s.bridle.ready && !s.groom.halted && !s.boot.sfail

/-- What one CCLK with no command waiting does (DESIGN CHOICE, log entry 2): the tick, and once in 3,600 s the additions of R462. -/
def State.idle (s : State) : State :=
  let s1 := s.tick
  if s1.firmwareRuns && s1.live && s1.now % usec 3600000000 = 0 then s1.addHistory else s1

/-! ## Power failure (R503 to R506) -/

/-- R486: what firmware commits in the sequence. -/
def State.pfWrites (s : State) : State :=
  if s.firmwareRuns then (s.addHistory).tackWrite 9 (s.tack.read 9 + 1) .firmware else s

/-- R505: the images that a thermal emergency has ended in this ACLK report ABANDON_PWRFAIL. -/
def State.emergencyToPwrfail (s : State) : State :=
  if s.power.emAt = some (aclkOf s.now) then
    s.power.emEnded.foldl (fun s c => s.modCtx c fun e => { e with runResult := if e.runResult = 8 then 9 else e.runResult }) s
  else s

/-- R504: the assertion is sampled. -/
def State.pwrfail (s : State) : State :=
  let s1 := { s with power := { s.power with pfail := true, pfAt := s.now } }
  ((s1.alertAll 2).abandonAll 9).emergencyToPwrfail.pfWrites

/-- R503, R506: once begun, the sequence runs to its end. -/
def execPwrfailAssert (s : State) : Out := eventStep (!s.power.pfail) State.pwrfail s

/-- R504: dispatch stops. -/
def State.stopDispatch (s : State) : State :=
  let s1 := match s.curCtx with
    | some n => (s.abandonWait n).modCtx n fun e =>
      { e with mode := if e.mode = CtxMode.running then CtxMode.ready else e.mode }
    | none => s
  { s1 with core := { s1.core with disp := .idle, switchTo := none } }

/-- R504 at 900 µs. -/
def State.pwrfailEnd (s : State) : State :=
  let s1 := State.stopDispatch { s with power := { s.power with pfEnded := true } }
  let (_, s2) := s1.failInFlight (fun _ => true) 0x8005
  let s3 := s2.cancelStreams fun _ => true
  let s4 := s3.windows.foldl (fun (s : State) (p : Nat × Window) => s.closeWindow p.1 true) s3
  let s5 := s4.mboxes.foldl (fun (s : State) (p : Nat × Mailbox) =>
    if p.2.st = .busy ∧ !p.2.held then s.mbFail p.1 mbPOWER_FAIL 0 else s) { s4 with bridle := { s4.bridle with commit := none } }
  { s5 with gate := { s5.gate with out := false, dropAt := none, cal := none } }

/-- R504. -/
def execPwrfailSequenceEnd (s : State) : Out :=
  eventStep (s.power.pfail && !s.power.pfEnded && decide (s.power.pfAt + usec 900 ≤ s.now)) State.pwrfailEnd s

/-- R504: every row of the sequence has been performed: no admitted image, descriptor, closing window or Tack commit is left,
and the Tack store is sealed. -/
def State.pfPerformed (s : State) : Bool :=
  s.power.pfEnded && s.tack.sealedNow && s.admittedCtxs.isEmpty && (s.streams.all fun p => p.2.act.isNone && p.2.shadow.isNone) &&
  (s.windows.all fun p => p.2.st = .closed) && s.tack.queue.isEmpty

/-- R504. -/
def execPfDone (s : State) : Out :=
  eventStep s.pfPerformed (fun s => { s with power := { s.power with pfDone := true } }) s

/-! ## The test wrapper (R512) -/

/-- R512: WS_INTEST, WS_SCAN and WS_MBIST end only at the release of PORESET_N. -/
def Wir.leaves (w : Wir) : Bool := w = .bypass || w = .extest

/-- R512: every wrapper instruction but WS_BYPASS loads only while PORESET_N is asserted. -/
def wirLoad (i : Wir) (s : State) : Out := .next (if s.boot.por && s.wir.leaves then { s with wir := i } else s)

/-- R512: in WS_BYPASS the wrapper is transparent. -/
def execWsBypass (s : State) : Out := .next (if s.wir.leaves then { s with wir := .bypass } else s)

/-- R512: an instruction that works through the wrapper boundary register, with what is shifted into its cells. It may shift again
in its own mode. -/
def wirShift (i : Wir) (cells : List Bool) (s : State) : Out :=
  .next (if s.boot.por && (s.wir.leaves || s.wir = i) then { s with wir := i, wbr := cells } else s)

def execWsExtest (cells : List Bool) (s : State) : Out := wirShift .extest cells s
def execWsIntest (cells : List Bool) (s : State) : Out := wirShift .intest cells s
def execWsScan (s : State) : Out := wirLoad .scan s
def execWsMbist (s : State) : Out := wirLoad .mbist s

end Sys2Proof.Machine
end

