-- ==== Sys2Proof/Machine/Dispatch.lean ====
section
/-! DEFINITION. One arm per command: each is one direct call of that command's meaning. -/

namespace Sys2Proof.Machine

def exec (i : Instr) (s : State) : Host.Outcome State Fault Refusal :=
  match i with
  | .add d a b => Sys2Proof.Machine.execAdd d a b s
  | .sub d a b => Sys2Proof.Machine.execSub d a b s
  | .and d a b => Sys2Proof.Machine.execAnd d a b s
  | .or d a b => Sys2Proof.Machine.execOr d a b s
  | .xor d a b => Sys2Proof.Machine.execXor d a b s
  | .sll d a b => Sys2Proof.Machine.execSll d a b s
  | .srl d a b => Sys2Proof.Machine.execSrl d a b s
  | .sra d a b => Sys2Proof.Machine.execSra d a b s
  | .mul d a b => Sys2Proof.Machine.execMul d a b s
  | .mulh d a b => Sys2Proof.Machine.execMulh d a b s
  | .mulhu d a b => Sys2Proof.Machine.execMulhu d a b s
  | .div d a b => Sys2Proof.Machine.execDiv d a b s
  | .divu d a b => Sys2Proof.Machine.execDivu d a b s
  | .rem d a b => Sys2Proof.Machine.execRem d a b s
  | .remu d a b => Sys2Proof.Machine.execRemu d a b s
  | .min d a b => Sys2Proof.Machine.execMin d a b s
  | .max d a b => Sys2Proof.Machine.execMax d a b s
  | .minu d a b => Sys2Proof.Machine.execMinu d a b s
  | .maxu d a b => Sys2Proof.Machine.execMaxu d a b s
  | .ceq d a b => Sys2Proof.Machine.execCeq d a b s
  | .cne d a b => Sys2Proof.Machine.execCne d a b s
  | .clt d a b => Sys2Proof.Machine.execClt d a b s
  | .cltu d a b => Sys2Proof.Machine.execCltu d a b s
  | .cle d a b => Sys2Proof.Machine.execCle d a b s
  | .cleu d a b => Sys2Proof.Machine.execCleu d a b s
  | .addi d a imm => Sys2Proof.Machine.execAddi d a imm s
  | .andi d a imm => Sys2Proof.Machine.execAndi d a imm s
  | .ori d a imm => Sys2Proof.Machine.execOri d a imm s
  | .xori d a imm => Sys2Proof.Machine.execXori d a imm s
  | .slli d a sh hi => Sys2Proof.Machine.execSlli d a sh hi s
  | .srli d a sh hi => Sys2Proof.Machine.execSrli d a sh hi s
  | .srai d a sh hi => Sys2Proof.Machine.execSrai d a sh hi s
  | .ceqi d a imm => Sys2Proof.Machine.execCeqi d a imm s
  | .clti d a imm => Sys2Proof.Machine.execClti d a imm s
  | .cltui d a imm => Sys2Proof.Machine.execCltui d a imm s
  | .movi d a imm => Sys2Proof.Machine.execMovi d a imm s
  | .orsh d a imm => Sys2Proof.Machine.execOrsh d a imm s
  | .tagof d a b t => Sys2Proof.Machine.execTagof d a b t s
  | .retag d a b t => Sys2Proof.Machine.execRetag d a b t s
  | .mov d a b t => Sys2Proof.Machine.execMov d a b t s
  | .cmovnz d a b => Sys2Proof.Machine.execCmovnz d a b s
  | .cmovz d a b => Sys2Proof.Machine.execCmovz d a b s
  | .faddD d a b rm => Sys2Proof.Machine.execFaddD d a b rm s
  | .fsubD d a b rm => Sys2Proof.Machine.execFsubD d a b rm s
  | .fmulD d a b rm => Sys2Proof.Machine.execFmulD d a b rm s
  | .fdivD d a b rm => Sys2Proof.Machine.execFdivD d a b rm s
  | .fsqrtD d a b rm => Sys2Proof.Machine.execFsqrtD d a b rm s
  | .fmaddD d a b rm => Sys2Proof.Machine.execFmaddD d a b rm s
  | .fmsubD d a b rm => Sys2Proof.Machine.execFmsubD d a b rm s
  | .fnmaddD d a b rm => Sys2Proof.Machine.execFnmaddD d a b rm s
  | .fminD d a b rm => Sys2Proof.Machine.execFminD d a b rm s
  | .fmaxD d a b rm => Sys2Proof.Machine.execFmaxD d a b rm s
  | .fabsD d a b rm => Sys2Proof.Machine.execFabsD d a b rm s
  | .fnegD d a b rm => Sys2Proof.Machine.execFnegD d a b rm s
  | .fceqD d a b rm => Sys2Proof.Machine.execFceqD d a b rm s
  | .fcltD d a b rm => Sys2Proof.Machine.execFcltD d a b rm s
  | .fcleD d a b rm => Sys2Proof.Machine.execFcleD d a b rm s
  | .fcunD d a b rm => Sys2Proof.Machine.execFcunD d a b rm s
  | .faddS d a b rm => Sys2Proof.Machine.execFaddS d a b rm s
  | .fsubS d a b rm => Sys2Proof.Machine.execFsubS d a b rm s
  | .fmulS d a b rm => Sys2Proof.Machine.execFmulS d a b rm s
  | .fdivS d a b rm => Sys2Proof.Machine.execFdivS d a b rm s
  | .fsqrtS d a b rm => Sys2Proof.Machine.execFsqrtS d a b rm s
  | .fmaddS d a b rm => Sys2Proof.Machine.execFmaddS d a b rm s
  | .fmsubS d a b rm => Sys2Proof.Machine.execFmsubS d a b rm s
  | .fnmaddS d a b rm => Sys2Proof.Machine.execFnmaddS d a b rm s
  | .fminS d a b rm => Sys2Proof.Machine.execFminS d a b rm s
  | .fmaxS d a b rm => Sys2Proof.Machine.execFmaxS d a b rm s
  | .fabsS d a b rm => Sys2Proof.Machine.execFabsS d a b rm s
  | .fnegS d a b rm => Sys2Proof.Machine.execFnegS d a b rm s
  | .fceqS d a b rm => Sys2Proof.Machine.execFceqS d a b rm s
  | .fcltS d a b rm => Sys2Proof.Machine.execFcltS d a b rm s
  | .fcleS d a b rm => Sys2Proof.Machine.execFcleS d a b rm s
  | .fcunS d a b rm => Sys2Proof.Machine.execFcunS d a b rm s
  | .fcvtDI d a b rm => Sys2Proof.Machine.execFcvtDI d a b rm s
  | .fcvtDIu d a b rm => Sys2Proof.Machine.execFcvtDIu d a b rm s
  | .fcvtID d a b rm => Sys2Proof.Machine.execFcvtID d a b rm s
  | .fcvtIuD d a b rm => Sys2Proof.Machine.execFcvtIuD d a b rm s
  | .fcvtSI d a b rm => Sys2Proof.Machine.execFcvtSI d a b rm s
  | .fcvtSIu d a b rm => Sys2Proof.Machine.execFcvtSIu d a b rm s
  | .fcvtIS d a b rm => Sys2Proof.Machine.execFcvtIS d a b rm s
  | .fcvtIuS d a b rm => Sys2Proof.Machine.execFcvtIuS d a b rm s
  | .fcvtDS d a b rm => Sys2Proof.Machine.execFcvtDS d a b rm s
  | .fcvtSD d a b rm => Sys2Proof.Machine.execFcvtSD d a b rm s
  | .ldI8 d a imm => Sys2Proof.Machine.execLdI8 d a imm s
  | .ldI8u d a imm => Sys2Proof.Machine.execLdI8u d a imm s
  | .ldI16 d a imm => Sys2Proof.Machine.execLdI16 d a imm s
  | .ldI16u d a imm => Sys2Proof.Machine.execLdI16u d a imm s
  | .ldI32 d a imm => Sys2Proof.Machine.execLdI32 d a imm s
  | .ldI32u d a imm => Sys2Proof.Machine.execLdI32u d a imm s
  | .ldI d a imm => Sys2Proof.Machine.execLdI d a imm s
  | .ldF32 d a imm => Sys2Proof.Machine.execLdF32 d a imm s
  | .ldF64 d a imm => Sys2Proof.Machine.execLdF64 d a imm s
  | .ldVa d a imm => Sys2Proof.Machine.execLdVa d a imm s
  | .ldBa d a imm => Sys2Proof.Machine.execLdBa d a imm s
  | .ldSh d a imm => Sys2Proof.Machine.execLdSh d a imm s
  | .ldSd d a imm => Sys2Proof.Machine.execLdSd d a imm s
  | .ldW d a imm => Sys2Proof.Machine.execLdW d a imm s
  | .stI8 d a imm => Sys2Proof.Machine.execStI8 d a imm s
  | .stI16 d a imm => Sys2Proof.Machine.execStI16 d a imm s
  | .stI32 d a imm => Sys2Proof.Machine.execStI32 d a imm s
  | .stI d a imm => Sys2Proof.Machine.execStI d a imm s
  | .bz a off => Sys2Proof.Machine.execBz a off s
  | .bnz a off => Sys2Proof.Machine.execBnz a off s
  | .jal a off => Sys2Proof.Machine.execJal a off s
  | .jalr d a imm => Sys2Proof.Machine.execJalr d a imm s
  | .fence d a b => Sys2Proof.Machine.execFence d a b s
  | .fenceSt d a b => Sys2Proof.Machine.execFenceSt d a b s
  | .ifence d a b => Sys2Proof.Machine.execIfence d a b s
  | .ssync d a b => Sys2Proof.Machine.execSsync d a b s
  | .srd d a n => Sys2Proof.Machine.execSrd d a n s
  | .swr d a n => Sys2Proof.Machine.execSwr d a n s
  | .tret d a b => Sys2Proof.Machine.execTret d a b s
  | .wait d a b => Sys2Proof.Machine.execWait d a b s
  | .yieldOp d a b => Sys2Proof.Machine.execYieldOp d a b s
  | .keysw d a b => Sys2Proof.Machine.execKeysw d a b s
  | .trap d a imm word => Sys2Proof.Machine.execTrap d a imm word s
  | .ctxsvL d a b => Sys2Proof.Machine.execCtxsvL d a b s
  | .ctxsvU d a b => Sys2Proof.Machine.execCtxsvU d a b s
  | .ctxldL d a b => Sys2Proof.Machine.execCtxldL d a b s
  | .ctxldU d a b => Sys2Proof.Machine.execCtxldU d a b s
  | .sarm d a b => Sys2Proof.Machine.execSarm d a b s
  | .srearm d a b => Sys2Proof.Machine.execSrearm d a b s
  | .sstat d a b => Sys2Proof.Machine.execSstat d a b s
  | .scancel d a b => Sys2Proof.Machine.execScancel d a b s
  | .bdecl d a b => Sys2Proof.Machine.execBdecl d a b s
  | .brel d a b => Sys2Proof.Machine.execBrel d a b s
  | .bqry d a b => Sys2Proof.Machine.execBqry d a b s
  | .opaT sh l r => Sys2Proof.Machine.execOpaT sh l r s
  | .opaM sh l r => Sys2Proof.Machine.execOpaM sh l r s
  | .opkT sh l r k => Sys2Proof.Machine.execOpkT sh l r k s
  | .opkM sh l r k => Sys2Proof.Machine.execOpkM sh l r k s
  | .tld sh l r cut => Sys2Proof.Machine.execTld sh l r cut s
  | .tldScale sh l r cut => Sys2Proof.Machine.execTldScale sh l r cut s
  | .tst sh l r cut => Sys2Proof.Machine.execTst sh l r cut s
  | .tstScale sh l r cut => Sys2Proof.Machine.execTstScale sh l r cut s
  | .tzf sh l r => Sys2Proof.Machine.execTzf sh l r s
  | .tzfRelease sh l r => Sys2Proof.Machine.execTzfRelease sh l r s
  | .tdr sh l r dfmt act clr bias xr xc => Sys2Proof.Machine.execTdr sh l r dfmt act clr bias xr xc s
  | .tdw sh l r clr => Sys2Proof.Machine.execTdw sh l r clr s
  | .taw sh l r => Sys2Proof.Machine.execTaw sh l r s
  | .tchk sh l r => Sys2Proof.Machine.execTchk sh l r s
  | .tsync sh l r => Sys2Proof.Machine.execTsync sh l r s
  | .tewQ sh l r w => Sys2Proof.Machine.execTewQ sh l r w s
  | .tewR sh l r w => Sys2Proof.Machine.execTewR sh l r w s
  | .tewD sh l r w => Sys2Proof.Machine.execTewD sh l r w s
  | .trunLoad sh l r => Sys2Proof.Machine.execTrunLoad sh l r s
  | .trunGo sh l r gate => Sys2Proof.Machine.execTrunGo sh l r gate s
  | .trunGoAt sh l r => Sys2Proof.Machine.execTrunGoAt sh l r s
  | .trunStat sh l r => Sys2Proof.Machine.execTrunStat sh l r s
  | .gAdd t d a b => Sys2Proof.Machine.execGAdd t d a b s
  | .gSub t d a b => Sys2Proof.Machine.execGSub t d a b s
  | .gAnd t d a b => Sys2Proof.Machine.execGAnd t d a b s
  | .gOr t d a b => Sys2Proof.Machine.execGOr t d a b s
  | .gXor t d a b => Sys2Proof.Machine.execGXor t d a b s
  | .gSll t d a b => Sys2Proof.Machine.execGSll t d a b s
  | .gSrl t d a b => Sys2Proof.Machine.execGSrl t d a b s
  | .gSra t d a b => Sys2Proof.Machine.execGSra t d a b s
  | .gSlt t d a b => Sys2Proof.Machine.execGSlt t d a b s
  | .gSltu t d a b => Sys2Proof.Machine.execGSltu t d a b s
  | .gAddi t d a imm => Sys2Proof.Machine.execGAddi t d a imm s
  | .gAndi t d a imm => Sys2Proof.Machine.execGAndi t d a imm s
  | .gOri t d a imm => Sys2Proof.Machine.execGOri t d a imm s
  | .gXori t d a imm => Sys2Proof.Machine.execGXori t d a imm s
  | .gSlti t d a imm => Sys2Proof.Machine.execGSlti t d a imm s
  | .gSltui t d a imm => Sys2Proof.Machine.execGSltui t d a imm s
  | .gLui t d a imm => Sys2Proof.Machine.execGLui t d a imm s
  | .gSlli t d a sh hi => Sys2Proof.Machine.execGSlli t d a sh hi s
  | .gSrli t d a sh hi => Sys2Proof.Machine.execGSrli t d a sh hi s
  | .gSrai t d a sh hi => Sys2Proof.Machine.execGSrai t d a sh hi s
  | .gMul t d a b => Sys2Proof.Machine.execGMul t d a b s
  | .gMulhu t d a b => Sys2Proof.Machine.execGMulhu t d a b s
  | .gDiv t d a b => Sys2Proof.Machine.execGDiv t d a b s
  | .gDivu t d a b => Sys2Proof.Machine.execGDivu t d a b s
  | .gRem t d a b => Sys2Proof.Machine.execGRem t d a b s
  | .gRemu t d a b => Sys2Proof.Machine.execGRemu t d a b s
  | .gLdw t d a imm => Sys2Proof.Machine.execGLdw t d a imm s
  | .gLdhu t d a imm => Sys2Proof.Machine.execGLdhu t d a imm s
  | .gLdbu t d a imm => Sys2Proof.Machine.execGLdbu t d a imm s
  | .gStw t d a imm => Sys2Proof.Machine.execGStw t d a imm s
  | .gSth t d a imm => Sys2Proof.Machine.execGSth t d a imm s
  | .gStb t d a imm => Sys2Proof.Machine.execGStb t d a imm s
  | .gBz t d a imm => Sys2Proof.Machine.execGBz t d a imm s
  | .gBnz t d a imm => Sys2Proof.Machine.execGBnz t d a imm s
  | .gJl t d a imm => Sys2Proof.Machine.execGJl t d a imm s
  | .gJlr t d a imm => Sys2Proof.Machine.execGJlr t d a imm s
  | .gSync t d a b word => Sys2Proof.Machine.execGSync t d a b word s
  | .gIret t d a b => Sys2Proof.Machine.execGIret t d a b s
  | .gWfi t d a b => Sys2Proof.Machine.execGWfi t d a b s
  | .tileInsnComplete sad hw => Sys2Proof.Machine.execTileInsnComplete sad hw s
  | .saddleSwitch sad => Sys2Proof.Machine.execSaddleSwitch sad s
  | .bufwaitExpiry => Sys2Proof.Machine.execBufwaitExpiry s
  | .runStart sad => Sys2Proof.Machine.execRunStart sad s
  | .runInsnStart sad hw after => Sys2Proof.Machine.execRunInsnStart sad hw after s
  | .runReplay sad => Sys2Proof.Machine.execRunReplay sad s
  | .runEnd sad => Sys2Proof.Machine.execRunEnd sad s
  | .runTimingLimit sad => Sys2Proof.Machine.execRunTimingLimit sad s
  | .preemptSwitchOut sad => Sys2Proof.Machine.execPreemptSwitchOut sad s
  | .preemptSwitchBack sad => Sys2Proof.Machine.execPreemptSwitchBack sad s
  | .runPauseTaken sad => Sys2Proof.Machine.execRunPauseTaken sad s
  | .runAbandon sad => Sys2Proof.Machine.execRunAbandon sad s
  | .schedDecide => Sys2Proof.Machine.execSchedDecide s
  | .contextSwitch err => Sys2Proof.Machine.execContextSwitch err s
  | .alertDelivery => Sys2Proof.Machine.execAlertDelivery s
  | .stallFill => Sys2Proof.Machine.execStallFill s
  | .stallOverflow => Sys2Proof.Machine.execStallOverflow s
  | .sliceExpiry => Sys2Proof.Machine.execSliceExpiry s
  | .timerFire c => Sys2Proof.Machine.execTimerFire c s
  | .doorbell who q lanes data => Sys2Proof.Machine.execDoorbell who q lanes data s
  | .qtake who q lanes => Sys2Proof.Machine.execQtake who q lanes s
  | .qtakeany who lanes => Sys2Proof.Machine.execQtakeany who lanes s
  | .qdone who q lanes v => Sys2Proof.Machine.execQdone who q lanes v s
  | .queuePortDoorbell q tail => Sys2Proof.Machine.execQueuePortDoorbell q tail s
  | .windowOpen who w => Sys2Proof.Machine.execWindowOpen who w s
  | .windowOpened w => Sys2Proof.Machine.execWindowOpened w s
  | .windowClose who w => Sys2Proof.Machine.execWindowClose who w s
  | .windowCloseComplete w => Sys2Proof.Machine.execWindowCloseComplete w s
  | .windowWrite w gen off data poison tag => Sys2Proof.Machine.execWindowWrite w gen off data poison tag s
  | .gateArrive who => Sys2Proof.Machine.execGateArrive who s
  | .gateLoad who => Sys2Proof.Machine.execGateLoad who s
  | .gateUnload who => Sys2Proof.Machine.execGateUnload who s
  | .gateInRise => Sys2Proof.Machine.execGateInRise s
  | .gateRelease => Sys2Proof.Machine.execGateRelease s
  | .gateTimeout => Sys2Proof.Machine.execGateTimeout s
  | .memPortResponse tag write block lmask resp data pmask => Sys2Proof.Machine.execMemPortResponse tag write block lmask resp data pmask s
  | .snoopInvalidate line tag => Sys2Proof.Machine.execSnoopInvalidate line tag s
  | .snoopRead line tag => Sys2Proof.Machine.execSnoopRead line tag s
  | .bufReadData port chunk data rpoison rerr => Sys2Proof.Machine.execBufReadData port chunk data rpoison rerr s
  | .bufWriteAck port chunk len aerr => Sys2Proof.Machine.execBufWriteAck port chunk len aerr s
  | .rcResponse tag => Sys2Proof.Machine.execRcResponse tag s
  | .streamRowDone eng slot => Sys2Proof.Machine.execStreamRowDone eng slot s
  | .streamDone eng slot status rows pchunks => Sys2Proof.Machine.execStreamDone eng slot status rows pchunks s
  | .streamWatchdog c => Sys2Proof.Machine.execStreamWatchdog c s
  | .wayDisable cache way err => Sys2Proof.Machine.execWayDisable cache way err s
  | .mbGo who m => Sys2Proof.Machine.execMbGo who m s
  | .mbAbort who m => Sys2Proof.Machine.execMbAbort who m s
  | .info m => Sys2Proof.Machine.execInfo m s
  | .cfgStage m => Sys2Proof.Machine.execCfgStage m s
  | .cfgCommit m => Sys2Proof.Machine.execCfgCommit m s
  | .cfgCommitDeadline m => Sys2Proof.Machine.execCfgCommitDeadline m s
  | .gatePoint => Sys2Proof.Machine.execGatePoint s
  | .cfgDiscard m => Sys2Proof.Machine.execCfgDiscard m s
  | .cfgRead m => Sys2Proof.Machine.execCfgRead m s
  | .ctxStart m => Sys2Proof.Machine.execCtxStart m s
  | .ctxStop m => Sys2Proof.Machine.execCtxStop m s
  | .ctxStopGraceEnd m => Sys2Proof.Machine.execCtxStopGraceEnd m s
  | .ctxRemove m => Sys2Proof.Machine.execCtxRemove m s
  | .ctxQuery m => Sys2Proof.Machine.execCtxQuery m s
  | .alertPost m => Sys2Proof.Machine.execAlertPost m s
  | .rsvSetup m => Sys2Proof.Machine.execRsvSetup m s
  | .runPause m => Sys2Proof.Machine.execRunPause m s
  | .runPark m => Sys2Proof.Machine.execRunPark m s
  | .runResume m => Sys2Proof.Machine.execRunResume m s
  | .runCancel m => Sys2Proof.Machine.execRunCancel m s
  | .waymapRead m => Sys2Proof.Machine.execWaymapRead m s
  | .waymapClear m => Sys2Proof.Machine.execWaymapClear m s
  | .tackRead m => Sys2Proof.Machine.execTackRead m s
  | .tackWrite m => Sys2Proof.Machine.execTackWrite m s
  | .gateCal m => Sys2Proof.Machine.execGateCal m s
  | .licenseeCommand m => Sys2Proof.Machine.execLicenseeCommand m s
  | .extTimeout m => Sys2Proof.Machine.execExtTimeout m s
  | .regWrite who space off lanes op => Sys2Proof.Machine.execRegWrite who space off lanes op s
  | .errAdv who => Sys2Proof.Machine.execErrAdv who s
  | .grestart who => Sys2Proof.Machine.execGrestart who s
  | .groomRestart reason t => Sys2Proof.Machine.execGroomRestart reason t s
  | .bridleReady => Sys2Proof.Machine.execBridleReady s
  | .tkRegWriteLow t n v => Sys2Proof.Machine.execTkRegWriteLow t n v s
  | .tkRegWriteHigh t n v => Sys2Proof.Machine.execTkRegWriteHigh t n v s
  | .tackCommit failA failB => Sys2Proof.Machine.execTackCommit failA failB s
  | .tkSeal t => Sys2Proof.Machine.execTkSeal t s
  | .tackAutoSeal => Sys2Proof.Machine.execTackAutoSeal s
  | .pmcClear who => Sys2Proof.Machine.execPmcClear who s
  | .fwloadGo cls v => Sys2Proof.Machine.execFwloadGo cls v s
  | .poresetAssert cut => Sys2Proof.Machine.execPoresetAssert cut s
  | .poresetRelease straps test => Sys2Proof.Machine.execPoresetRelease straps test s
  | .pllLock band icp fwValid => Sys2Proof.Machine.execPllLock band icp fwValid s
  | .pwrfailAssert => Sys2Proof.Machine.execPwrfailAssert s
  | .pwrfailSequenceEnd => Sys2Proof.Machine.execPwrfailSequenceEnd s
  | .pfDone => Sys2Proof.Machine.execPfDone s
  | .thermalSample temp thermN => Sys2Proof.Machine.execThermalSample temp thermN s
  | .thermNAssert => Sys2Proof.Machine.execThermNAssert s
  | .ptelSample mw => Sys2Proof.Machine.execPtelSample mw s
  | .pacingWindow => Sys2Proof.Machine.execPacingWindow s
  | .licIrq n level => Sys2Proof.Machine.execLicIrq n level s
  | .groomDivComplete => Sys2Proof.Machine.execGroomDivComplete s
  | .groomAccessResponse t => Sys2Proof.Machine.execGroomAccessResponse t s
  | .groomInterruptEntry t => Sys2Proof.Machine.execGroomInterruptEntry t s
  | .groomMachineCheck why => Sys2Proof.Machine.execGroomMachineCheck why s
  | .groomTimerExpiry n => Sys2Proof.Machine.execGroomTimerExpiry n s
  | .iset t v => Sys2Proof.Machine.execIset t v s
  | .hashDone => Sys2Proof.Machine.execHashDone s
  | .wsBypass => Sys2Proof.Machine.execWsBypass s
  | .wsExtest cells => Sys2Proof.Machine.execWsExtest cells s
  | .wsIntest cells => Sys2Proof.Machine.execWsIntest cells s
  | .wsScan => Sys2Proof.Machine.execWsScan s
  | .wsMbist => Sys2Proof.Machine.execWsMbist s
  | .gateInFall => Sys2Proof.Machine.execGateInFall s
  | .mailboxAccessRefused who off => Sys2Proof.Machine.execMailboxAccessRefused who off s

end Sys2Proof.Machine
end

