-- ==== Sys2Proof/Safety.lean ====
section
/-! DEFINITION. What statements say of commands: when a core instruction begins and what its retirement leaves, what a
register-only instruction may change, the forms of the families that statements range over, and the invariants. -/

namespace Sys2Proof

open Sys2Proof.Machine

/-- The core instruction `i` begins in `s`: something is dispatched, its word is fetched without a fault, and the word is
legal (R61, R87). `s1` is the state after the fetch. -/
def Begins (i : Instr) (s s1 : State) : Prop := s.curStall.isSome = true ∧ s.issued i = some s1

/-- The core instruction that began in `s` retires, its effect having left `s2`: the pc of its stall moves to `npc`, or to
the next word. -/
def After (s s2 : State) (npc : Option Word) : State := s2.retire (s.curStall.getD 31) s.curCtx (npc.getD (s.cur.pc + 4))

/-- The core instruction `i` that began in `s` and is aborted in `s2`. -/
def Aborted (i : Instr) (s s2 : State) (a : Abort) : State := s2.abort i (s.curStall.getD 31) s.curCtx s.cur.pc a

/-- R451: no general register that the instruction `i` reads holds an error that no read has met. -/
def Sound (i : Instr) (s : State) : Prop := ∀ p ∈ s.cur.upset, p.1 ∉ regsRead i

/-- Register `r` of the executing stall holds a value of tag `t`. -/
def Tagged (s : State) (r : Reg) (t : Tag) : Prop := (s.reg r).tag = t

/-- Two stalls agree in everything but the pc and the general register `d`, with the error that `d` may hold (R451). -/
def Stall.sameBut (d : Reg) (t u : Stall) : Prop :=
  { t with regs := [], pc := 0, upset := [] } = { u with regs := [], pc := 0, upset := [] } ∧
  (∀ r : Nat, r ≠ d.toNat → t.reg r = u.reg r) ∧ (t.upset = u.upset ∨ t.upset = u.upset.del d.toNat)

/-- Two states agree in everything outside the core but the caches, their requests on the memory access ports, the performance
counters and the count of free choices: memory, buffer, tile unit, runs, streams, queues, windows, gate, mailboxes, error
records, Tack store, Groom, power, and every other port. -/
def SameOutside (s t : State) : Prop :=
  { t with core := s.core, caches := s.caches, pmc := s.pmc, free := s.free, ports := { t.ports with ma := s.ports.ma } } = s

/-- What an instruction that only writes register `d` of stall `k` may change: that register and the stall's pc, the wait
at issue of the context that runs, the TLB and the caches that its fetch fills, and performance counters. -/
def RegisterFrame (s t : State) (k : Nat) (d : Reg) : Prop :=
  SameOutside s t ∧
  { t.core with stalls := [], ctxs := [], tlb := s.core.tlb } = { s.core with stalls := [], ctxs := [] } ∧
  (∀ j, j ≠ k → t.stall j = s.stall j) ∧ Stall.sameBut d (t.stall k) (s.stall k) ∧
  (∀ c, { t.ctx c with waitAt := none } = { s.ctx c with waitAt := none }) ∧
  (∀ a, t.mem.store.byte a = s.mem.store.byte a)

/-- The destination of each instruction of the scalar groups that writes one register and nothing else. -/
def registerOnly : Instr → Option Reg
  | .add d _ _ | .sub d _ _ | .and d _ _ | .or d _ _ | .xor d _ _ | .sll d _ _ | .srl d _ _ | .sra d _ _ => some d
  | .mul d _ _ | .mulh d _ _ | .mulhu d _ _ | .div d _ _ | .divu d _ _ | .rem d _ _ | .remu d _ _ => some d
  | .min d _ _ | .max d _ _ | .minu d _ _ | .maxu d _ _ => some d
  | .ceq d _ _ | .cne d _ _ | .clt d _ _ | .cltu d _ _ | .cle d _ _ | .cleu d _ _ => some d
  | .addi d _ _ | .andi d _ _ | .ori d _ _ | .xori d _ _ | .ceqi d _ _ | .clti d _ _ | .cltui d _ _ => some d
  | .slli d _ _ _ | .srli d _ _ _ | .srai d _ _ _ => some d
  | .movi d _ _ | .orsh d _ _ => some d
  | .tagof d _ _ _ | .retag d _ _ _ | .mov d _ _ _ => some d
  | .cmovnz d _ _ | .cmovz d _ _ => some d
  | .faddD d _ _ _ | .fsubD d _ _ _ | .fmulD d _ _ _ | .fdivD d _ _ _ | .fsqrtD d _ _ _ => some d
  | .fmaddD d _ _ _ | .fmsubD d _ _ _ | .fnmaddD d _ _ _ | .fminD d _ _ _ | .fmaxD d _ _ _ => some d
  | .fabsD d _ _ _ | .fnegD d _ _ _ | .fceqD d _ _ _ | .fcltD d _ _ _ | .fcleD d _ _ _ | .fcunD d _ _ _ => some d
  | .faddS d _ _ _ | .fsubS d _ _ _ | .fmulS d _ _ _ | .fdivS d _ _ _ | .fsqrtS d _ _ _ => some d
  | .fmaddS d _ _ _ | .fmsubS d _ _ _ | .fnmaddS d _ _ _ | .fminS d _ _ _ | .fmaxS d _ _ _ => some d
  | .fabsS d _ _ _ | .fnegS d _ _ _ | .fceqS d _ _ _ | .fcltS d _ _ _ | .fcleS d _ _ _ | .fcunS d _ _ _ => some d
  | .fcvtDI d _ _ _ | .fcvtDIu d _ _ _ | .fcvtID d _ _ _ | .fcvtIuD d _ _ _ | .fcvtSI d _ _ _ => some d
  | .fcvtSIu d _ _ _ | .fcvtIS d _ _ _ | .fcvtIuS d _ _ _ | .fcvtDS d _ _ _ | .fcvtSD d _ _ _ => some d
  | .bz _ _ | .bnz _ _ | .fenceSt _ _ _ | .ifence _ _ _ => some 0
  | .jal a _ => some a
  | .jalr d _ _ => some d
  | _ => none

/-- The three operands of the instructions of the integer group that take INT, INT or the combinations of a row of R42. -/
def integerGroup : Instr → Option (Reg × Reg × Reg)
  | .add d a b | .sub d a b | .and d a b | .or d a b | .xor d a b | .sll d a b | .srl d a b | .sra d a b => some (d, a, b)
  | .mul d a b | .mulh d a b | .mulhu d a b | .div d a b | .divu d a b | .rem d a b | .remu d a b => some (d, a, b)
  | .min d a b | .max d a b | .minu d a b | .maxu d a b => some (d, a, b)
  | .ceq d a b | .cne d a b | .clt d a b | .cltu d a b | .cle d a b | .cleu d a b => some (d, a, b)
  | _ => none

/-- R42: the rows of the table that hold for an instruction of the integer group: all but ADD, SUB, AND and the compares take
INT, INT. -/
def integerRule : Instr → TagRule
  | .add _ _ _ => ruleAdd
  | .sub _ _ _ => ruleSub
  | .and _ _ _ => ruleAnd
  | .ceq _ _ _ | .cne _ _ _ | .clt _ _ _ | .cltu _ _ _ | .cle _ _ _ | .cleu _ _ _ => ruleCmp
  | _ => ruleInt

/-- The immediate forms of the integer group with an operand: d, a and the rows of R42, the immediate counting as INT (R66). -/
def immediateGroup : Instr → Option (Reg × Reg × TagRule)
  | .addi d a _ => some (d, a, ruleAdd)
  | .andi d a _ => some (d, a, ruleAnd)
  | .ori d a _ | .xori d a _ | .slli d a _ _ | .srli d a _ _ | .srai d a _ _ | .orsh d a _ => some (d, a, ruleInt)
  | .ceqi d a _ | .clti d a _ | .cltui d a _ => some (d, a, ruleCmp)
  | _ => none

/-- The floating-point and conversion groups (R68, R70, R71): the destination, and the operands in the order d, a, b, each
with its OPFIELD code, its register and the tag that R42 asks of it. -/
def floatGroup : Instr → Option (Reg × List (Nat × Reg × Tag))
  | .faddD d a b _ | .fsubD d a b _ | .fmulD d a b _ | .fdivD d a b _ | .fminD d a b _ | .fmaxD d a b _
  | .fceqD d a b _ | .fcltD d a b _ | .fcleD d a b _ | .fcunD d a b _ => some (d, [(2, a, .f64), (3, b, .f64)])
  | .fmaddD d a b _ | .fmsubD d a b _ | .fnmaddD d a b _ => some (d, [(1, d, .f64), (2, a, .f64), (3, b, .f64)])
  | .faddS d a b _ | .fsubS d a b _ | .fmulS d a b _ | .fdivS d a b _ | .fminS d a b _ | .fmaxS d a b _
  | .fceqS d a b _ | .fcltS d a b _ | .fcleS d a b _ | .fcunS d a b _ => some (d, [(2, a, .f32), (3, b, .f32)])
  | .fmaddS d a b _ | .fmsubS d a b _ | .fnmaddS d a b _ => some (d, [(1, d, .f32), (2, a, .f32), (3, b, .f32)])
  | .fsqrtD d a _ _ | .fabsD d a _ _ | .fnegD d a _ _ => some (d, [(2, a, .f64)])
  | .fcvtID d a _ _ | .fcvtIuD d a _ _ | .fcvtSD d a _ _ => some (d, [(2, a, .f64)])
  | .fsqrtS d a _ _ | .fabsS d a _ _ | .fnegS d a _ _ => some (d, [(2, a, .f32)])
  | .fcvtIS d a _ _ | .fcvtIuS d a _ _ | .fcvtDS d a _ _ => some (d, [(2, a, .f32)])
  | .fcvtDI d a _ _ | .fcvtDIu d a _ _ | .fcvtSI d a _ _ | .fcvtSIu d a _ _ => some (d, [(2, a, .int)])
  | _ => none

/-- The tile instructions that are accepted into the saddle's queue (R197). -/
def queuedTile : Instr → Bool
  | .opaT _ _ _ | .opaM _ _ _ | .opkT _ _ _ _ | .opkM _ _ _ _ | .tzf _ _ _ => true
  | .tdr _ _ _ _ _ _ _ _ _ | .tdw _ _ _ _ | .taw _ _ _ | .tewQ _ _ _ _ => true
  | _ => false

/-- Bytes of memory or of buffer memory. -/
def Machine.State.bytesAt (s : State) (loc : Loc) (a n : Nat) : List Byte :=
  match loc with
  | .mem => s.mem.store.read a n
  | .buf => s.buf.store.read a n

/-- R116, R319, R335: the 512 bytes of a tile row at `a` are there: each of their lines has a target, or they lie inside buffer
memory. -/
def Machine.State.rowThere (s : State) (loc : Loc) (a : Nat) : Prop :=
  a % 16 = 0 ∧ match loc with
    | .mem => ∀ l ∈ linesOf a 512, s.mem.lost l = false
    | .buf => a + 512 ≤ s.buf.size

/-- Cell (`r`, `c`) lies in the region that a tile operation names. -/
def Machine.TileRun.holds (t : TileRun) (r c : Nat) : Prop := t.r0 ≤ r ∧ r < t.r0 + t.m ∧ t.c0 ≤ c ∧ c < t.c0 + t.n

/-- The tile instruction `i` passes its checks of issue, takes saddle `n`, and `s3` is the state it then meets. -/
def Issues (i : Instr) (s1 : State) (q : Issued) (n : Nat) (s3 : State) : Prop :=
  ∃ s2, issueTile i s1 = .ok q s2 ∧ issueSaddle i q s2 = .ok n s3

/-- R217: every step of an admission by instruction `i`, begun in `s1`, succeeds: the image `m` is loaded, saddle `n` taken, the
instruction already waits in step 5 or is neither paced nor held back, the pins and the ranges are granted (those that another
waiting instruction had asked for are given up first), no power failure stands, and the governor admits the energy class.
`s6` is the state then. -/
def Admits (i : Instr) (s1 : State) (q : Issued) (n : Nat) (m : Image) (pins : List HeldPin) (s6 : State) : Prop :=
  ∃ c s2 s3 s4, issueTile i s1 = .ok q s2 ∧ s2.runs.images.find? (fun p => p.1 = q.c) = some (c, m) ∧
    issueSaddle i q s2 = .ok n s3 ∧ (s3.inStep5 q.c i = true ∨ (s3.paced q.c = false ∧ s3.admissionHeld = false)) ∧
    takePins s3.cur.xctx q.c m.pins s3 = .ok pins s4 ∧
    takeRanges q.c m.ranges (if (s4.ctx q.c).waitAt.map (·.insn) ≠ some i then s4.abandonWait q.c else s4) = .ok () s6 ∧
    s6.power.pfail = false ∧ s6.governorAdmits (m.energy % 16) = true

/-- The image admitted on saddle `i` is running, its saddle is active, and it is `r`. -/
def RunsOn (s : State) (i : BitVec 1) (r : Run) : Prop :=
  s.run i.toNat = some r ∧ r.phase = .running ∧ s.tile.active = i

/-- The firmware goes on with the command of mailbox `m`, whose opcode is `op`: Bridle is ready, the command was taken and
its turn has come (R422 to R424). -/
def Served (s : State) (m : BitVec 5) (op : Nat) : Prop := s.live = true ∧ s.mbActive m.toNat (fun o => o = op) = true

/-- The same for a command that names context `c` (R438). -/
def ServedFor (s : State) (m : BitVec 5) (op c : Nat) : Prop :=
  Served s m op ∧ (s.mbox m.toNat).pay 0 2 = c ∧ c ≤ 1023

/-- A requester that may write the aperture: a known class of the register port, a Groom thread, or the core while a stall
executes (R17, R508). -/
def Asks (s : State) (who : Requester) : Prop := s.live = true ∧ who ≠ .regp 3 ∧ s.canAsk who = true

/-- A register access of `who` reaches the aperture: of the core while a stall executes, of a known class of the register port,
or of a Groom thread that can issue and runs no extension (R17, R391, R415, R508). -/
def Accesses (s : State) (who : Requester) : Prop :=
  s.live = true ∧ match who with
    | .core => s.curStall.isSome = true
    | .regp c => c ≠ 3
    | .groom t => s.gCanIssue t.toNat = true ∧ (s.gthread t.toNat).ext = false
    | .ijtag => False

/-- What a write that the aperture accepts from `who` leaves, its effect having left `r`: the answer on the register port, or
the Groom thread held until its response (R391, R508). -/
def Written (who : Requester) (r : State) : State :=
  match who with
  | .groom t => r.gHold t.toNat none
  | _ => r.answer who 0 true

/-- What an instruction of the Groom that holds its thread leaves, its effect having left `r`: a restart of the Groom ends it. -/
def Held (s1 r : State) : State := if gRestarted s1 r then r else r.gAdvance false

/-- The Groom instruction of thread `t` begins in `s`: the thread can issue, and its word is fetched without a fault or an
error (R387, R390, R394 to R397). `s1` is the state in which the results whose time has come are written and the prefetch
queue is filled, and `h` the thread in it. -/
def GBegins (t : BitVec 2) (s s1 : State) (h : GThread) : Prop :=
  let s0 := s.modGthread t.toNat (fun h => h.settle s.groom.lclk)
  s.live = true ∧ s.gCanIssue t.toNat = true ∧ (s0.gthread t.toNat).fetchFault = none ∧ s0.gFetch t.toNat = .ok s1 ∧
  h = s1.gthread t.toNat

/-- What completion of the Groom instruction that thread `t`, as `h`, issued leaves: its pc moves to `npc`, a taken branch,
which empties its prefetch queue (R398), or to the next word, and lunge mode counts (R396). -/
def GAfter (t : BitVec 2) (h : GThread) (s2 : State) (npc : Option Half) : State :=
  (s2.modGthread t.toNat fun u => match npc with
    | none => { u with pc := h.pc + 4 }
    | some x => { u with pc := x, queue := [] }).gAdvance npc.isSome

/-- R460: the error FIFO holds at most 16 records. -/
def FifoBound (s : State) : Prop := s.ras.fifo.length ≤ 16

/-- R491: while PORESET_N is asserted every register of the block is at its Reset column: the state is that after PORESET_N,
around the memories outside the block, the nonvolatile device, the levels on LIC_IRQ and the test wrapper with its boundary
register. -/
def HeldInReset (s : State) : Prop :=
  s = { State.afterPoreset s.pending s.mem s.buf s.tack.device s.groom.lic s.free s.wir with wbr := s.wbr }

end Sys2Proof
end

