-- ==== Sys2Proof/Certificates/Slice0/Obligations.lean ====
section
/-! DEFINITION. The statements for the provers. Each formalises rules of the spec over the machine of Sys2Proof.Machine. -/

open Sys2Proof Sys2Proof.Machine

/-! ## The machine as a whole -/

/-- The command at the front of the queue is executed with the queue's rest; on an empty queue one CCLK goes by. The queue and
the passing of time on an empty one are the model's (log entry 2). -/
def Obligations.StepRunsTheFrontCommand : Prop :=
  (∀ (c : Instr) (q : List Instr) (s : State),
    Machine.step { s with pending := c :: q } = Machine.exec c { s with pending := q }) ∧
  (∀ s : State, s.pending = [] → Machine.step s = .next s.idle)

/-- The fetch of a core instruction that begins changes nothing but the TLB that translates it, the caches with their requests,
the performance counters and the count of free choices; an instruction that reads a register with an error that no read
has met then leaves that error's record (R451), and one that reads none leaves nothing more. -/
def Obligations.FetchChangesOnlyCachesAndTlb : Prop :=
  ∀ (i : Instr) (s s1 : State), s.issued i = some s1 →
    i.legal = true ∧ ∃ s' : State, fetchCheck s = .ok () s' ∧ SameOutside s s' ∧ { s'.core with tlb := s.core.tlb } = s.core ∧
      s1 = s'.meetUpset (s.curStall.getD 31) (regsRead i) ∧ (Sound i s → s1 = s')

/-- R61, R87, R83: a word that is not legal, and one that no row of the table spells, takes ILLEGAL_INSN, code 1, with the word
as tval, after its fetch; TRAP takes the trap TRAP, code 4, with its immediate as tval and the address of the next word as
epc. That a word which no row spells comes as TRAP with that word is the model's form (log entry 3, DESIGN CHOICE). -/
def Obligations.IllegalWordAndTrapEnter : Prop :=
  (∀ (i : Instr) (s s1 : State) (k n : Nat), i.spells = true →
     (coreWord i).isSome = true → s.curStall = some k → s.curCtx = some n → i.legal = false →
     fetchCheck s = .ok () s1 →
     Machine.exec i s = .next (s1.trapEntry n k 1 0 .none false (insnWord i) s.cur.pc)) ∧
  (∀ w : Half, decodeCore w = none →
     let i : Instr := .trap 0 0 0 (some w)
     i.spells = true ∧ i.legal = false ∧ insnWord i = w.zeroExtend 64) ∧
  (∀ (imm : BitVec 15) (s s1 : State) (n k : Nat), Begins (.trap 0 0 imm none) s s1 → s1.curCtx = some n → s.curStall = some k →
     s.curCtx = some n →
     Machine.exec (.trap 0 0 imm none) s = .next (s1.trapEntry n k 4 0 .none false (imm.zeroExtend 64) (s.cur.pc + 4)) ∧
     ∀ d a : Reg, coreWord (.trap d a imm none) = some (fmtI 0x3C d a imm) ∧
       (Instr.legal (.trap d a imm none) = true ↔ d = 0 ∧ a = 0))

/-! ## The scalar groups -/

/-- R64, R65, R42: the register forms of the integer group: for every pair of tags that a row of R42 accepts, the result
with the tag of that row is written to d and the pc moves to the next word. -/
def Obligations.IntegerGroupResults : Prop :=
  ∀ (d a b : Reg) (s s1 : State) (x y : Word) (ta tb t : Tag), s1.reg a = ⟨x, ta⟩ → s1.reg b = ⟨y, tb⟩ →
    let goes := fun (i : Instr) (r : TagRule) (w : Word) =>
      Begins i s s1 → r ta tb = some t → Machine.exec i s = .next (After s (s1.setReg d ⟨w, t⟩) none)
    goes (.add d a b) ruleAdd (x + y) ∧ goes (.sub d a b) ruleSub (x - y) ∧ goes (.and d a b) ruleAnd (x &&& y) ∧
    goes (.or d a b) ruleInt (x ||| y) ∧ goes (.xor d a b) ruleInt (x ^^^ y) ∧
    goes (.sll d a b) ruleInt (x <<< (y.toNat % 64)) ∧ goes (.srl d a b) ruleInt (x >>> (y.toNat % 64)) ∧
    goes (.sra d a b) ruleInt (x.sshiftRight (y.toNat % 64)) ∧
    goes (.mul d a b) ruleInt (x * y) ∧ goes (.mulh d a b) ruleInt (BitVec.ofInt 64 (x.toInt * y.toInt / 2 ^ 64)) ∧
    goes (.mulhu d a b) ruleInt (BitVec.ofNat 64 (x.toNat * y.toNat / 2 ^ 64)) ∧
    goes (.div d a b) ruleInt (if y = 0 then BitVec.allOnes 64 else BitVec.ofInt 64 (x.toInt.tdiv y.toInt)) ∧
    goes (.divu d a b) ruleInt (if y = 0 then BitVec.allOnes 64 else BitVec.ofNat 64 (x.toNat / y.toNat)) ∧
    goes (.rem d a b) ruleInt (if y = 0 then x else BitVec.ofInt 64 (x.toInt.tmod y.toInt)) ∧
    goes (.remu d a b) ruleInt (if y = 0 then x else BitVec.ofNat 64 (x.toNat % y.toNat)) ∧
    goes (.min d a b) ruleInt (if x.toInt ≤ y.toInt then x else y) ∧
    goes (.max d a b) ruleInt (if x.toInt ≤ y.toInt then y else x) ∧
    goes (.minu d a b) ruleInt (if x.toNat ≤ y.toNat then x else y) ∧
    goes (.maxu d a b) ruleInt (if x.toNat ≤ y.toNat then y else x) ∧
    goes (.ceq d a b) ruleCmp (if x = y then 1 else 0) ∧ goes (.cne d a b) ruleCmp (if x = y then 0 else 1) ∧
    goes (.clt d a b) ruleCmp (if x.toInt < y.toInt then 1 else 0) ∧
    goes (.cltu d a b) ruleCmp (if x.toNat < y.toNat then 1 else 0) ∧
    goes (.cle d a b) ruleCmp (if x.toInt ≤ y.toInt then 1 else 0) ∧
    goes (.cleu d a b) ruleCmp (if x.toNat ≤ y.toNat then 1 else 0)

/-- R60, R66: the immediate forms, whose immediate counts as an INT operand: sign-extended but for ORSH and the shift
amounts; MOVI has no operand. -/
def Obligations.ImmediateFormResults : Prop :=
  ∀ (d a : Reg) (imm : BitVec 15) (sh : BitVec 6) (s s1 : State) (x : Word) (ta t : Tag), s1.reg a = ⟨x, ta⟩ →
    let goes := fun (i : Instr) (r : TagRule) (w : Word) =>
      Begins i s s1 → r ta .int = some t → Machine.exec i s = .next (After s (s1.setReg d ⟨w, t⟩) none)
    let m : Word := imm.signExtend 64
    goes (.addi d a imm) ruleAdd (x + m) ∧ goes (.andi d a imm) ruleAnd (x &&& m) ∧
    goes (.ori d a imm) ruleInt (x ||| m) ∧ goes (.xori d a imm) ruleInt (x ^^^ m) ∧
    goes (.slli d a sh 0) ruleInt (x <<< sh.toNat) ∧ goes (.srli d a sh 0) ruleInt (x >>> sh.toNat) ∧
    goes (.srai d a sh 0) ruleInt (x.sshiftRight sh.toNat) ∧
    goes (.ceqi d a imm) ruleCmp (if x = m then 1 else 0) ∧ goes (.clti d a imm) ruleCmp (if x.toInt < m.toInt then 1 else 0) ∧
    goes (.cltui d a imm) ruleCmp (if x.toNat < m.toNat then 1 else 0) ∧
    goes (.orsh d a imm) ruleInt ((x <<< 15) ||| imm.zeroExtend 64) ∧
    (Begins (.movi d 0 imm) s s1 → Machine.exec (.movi d 0 imm) s = .next (After s (s1.setReg d ⟨m, .int⟩) none))

/-- R51, R67, R46: TAGOF gives the tag's code as INT; RETAG gives a tag of code 1 to 8 or 15 to the data bits, and POISON
stays POISON; RETAG naming NONE or a reserved code takes TAG_MISMATCH, code 0x42, against a whatever its source, but for a
NONE source, which takes TAG_NONE, code 0x40; MOV copies data and tag; the conditional moves copy, or leave d as it is, by
the condition in b. -/
def Obligations.TagAndMoveResults : Prop :=
  ∀ (d a b : Reg) (c : BitVec 4) (s s1 : State) (v : TVal), s1.reg a = v →
    (Begins (.tagof d a 0 0) s s1 →
      Machine.exec (.tagof d a 0 0) s = .next (After s (s1.setReg d ⟨Word.ofNat (tagCode v.tag), .int⟩) none)) ∧
    (Begins (.retag d a 0 c) s s1 → v.tag ≠ .none → (1 ≤ c.toNat ∧ c.toNat ≤ 8 ∨ c = 15) →
      Machine.exec (.retag d a 0 c) s =
        .next (After s (s1.setReg d ⟨v.data, if v.tag = .poison then .poison else tagOfCode c.toNat⟩) none)) ∧
    (Begins (.retag d a 0 c) s s1 → v.tag ≠ .none → ¬ (1 ≤ c.toNat ∧ c.toNat ≤ 8 ∨ c = 15) →
      Machine.exec (.retag d a 0 c) s = .next (Aborted (.retag d a 0 c) s s1 (.trap 0x42 2 v.tag v.data))) ∧
    (Begins (.retag d a 0 c) s s1 → v.tag = .none →
      Machine.exec (.retag d a 0 c) s = .next (Aborted (.retag d a 0 c) s s1 (.trap 0x40 2 .none v.data))) ∧
    (Begins (.mov d a 0 0) s s1 → Machine.exec (.mov d a 0 0) s = .next (After s (s1.setReg d v) none)) ∧
    (Begins (.cmovnz d a b) s s1 → intOrAddr (s1.reg b).tag = true →
      Machine.exec (.cmovnz d a b) s = .next (After s (if (s1.reg b).data ≠ 0 then s1.setReg d v else s1) none)) ∧
    (Begins (.cmovz d a b) s s1 → intOrAddr (s1.reg b).tag = true →
      Machine.exec (.cmovz d a b) s = .next (After s (if (s1.reg b).data = 0 then s1.setReg d v else s1) none))

/-- R43 to R45: in the register forms of the integer group an operand tagged NONE takes TAG_NONE, code 0x40, a before b;
otherwise a POISON operand makes the result POISON with its data bits, a before b; otherwise a pair of tags that no row of
R42 accepts takes TAG_MISMATCH, code 0x42, against b only where some row accepts a's tag and none b's, and else against a
(R44). The immediate forms do the same with their one register operand; the floating-point and conversion groups with all
of theirs, in the order d, a, b, each of which must have the tag of its position. -/
def Obligations.TagFaultAndPoisonOrder : Prop :=
  (∀ (i : Instr) (d a b : Reg) (s s1 : State), integerGroup i = some (d, a, b) → Begins i s s1 →
    ((s1.reg a).tag = .none → Machine.exec i s = .next (Aborted i s s1 (.trap 0x40 2 .none (s1.reg a).data))) ∧
    ((s1.reg a).tag ≠ .none → (s1.reg b).tag = .none →
      Machine.exec i s = .next (Aborted i s s1 (.trap 0x40 3 .none (s1.reg b).data))) ∧
    ((s1.reg a).tag = .poison → (s1.reg b).tag ≠ .none →
      Machine.exec i s = .next (After s (s1.setReg d ⟨(s1.reg a).data, .poison⟩) none)) ∧
    ((s1.reg a).tag ≠ .none → (s1.reg a).tag ≠ .poison → (s1.reg b).tag = .poison →
      Machine.exec i s = .next (After s (s1.setReg d ⟨(s1.reg b).data, .poison⟩) none)) ∧
    (∀ ta tb : Tag, (s1.reg a).tag = ta → (s1.reg b).tag = tb → ta ≠ .none → ta ≠ .poison → tb ≠ .none → tb ≠ .poison →
      integerRule i ta tb = none →
      ((∃ u, integerRule i ta u ≠ none) → (∀ u, integerRule i u tb = none) →
        Machine.exec i s = .next (Aborted i s s1 (.trap 0x42 3 tb (s1.reg b).data))) ∧
      ((∀ u, integerRule i ta u = none) ∨ (∃ u, integerRule i u tb ≠ none) →
        Machine.exec i s = .next (Aborted i s s1 (.trap 0x42 2 ta (s1.reg a).data))))) ∧
  (∀ (i : Instr) (d a : Reg) (r : TagRule) (s s1 : State) (v : TVal), immediateGroup i = some (d, a, r) → Begins i s s1 →
    s1.reg a = v →
    (v.tag = .none → Machine.exec i s = .next (Aborted i s s1 (.trap 0x40 2 .none v.data))) ∧
    (v.tag = .poison → Machine.exec i s = .next (After s (s1.setReg d v) none)) ∧
    (v.tag ≠ .none → v.tag ≠ .poison → r v.tag .int = none →
      Machine.exec i s = .next (Aborted i s s1 (.trap 0x42 2 v.tag v.data)))) ∧
  (∀ (i : Instr) (d : Reg) (os : List (Nat × Reg × Tag)) (s s1 : State), floatGroup i = some (d, os) → Begins i s s1 →
    let tag := fun (o : Nat × Reg × Tag) => (s1.reg o.2.1).tag
    let data := fun (o : Nat × Reg × Tag) => (s1.reg o.2.1).data
    (∀ o, os.find? (fun o => tag o = .none) = some o →
      Machine.exec i s = .next (Aborted i s s1 (.trap 0x40 o.1 .none (data o)))) ∧
    ((∀ o ∈ os, tag o ≠ .none) → ∀ o, os.find? (fun o => tag o = .poison) = some o →
      Machine.exec i s = .next (After s (s1.setReg d ⟨data o, .poison⟩) none)) ∧
    ((∀ o ∈ os, tag o ≠ .none ∧ tag o ≠ .poison) → ∀ o, os.find? (fun o => tag o ≠ o.2.2) = some o →
      Machine.exec i s = .next (Aborted i s s1 (.trap 0x42 o.1 (tag o) (data o)))))

/-- R68, R69, R40: the FP64 group on F64 operands, and the FP32 group on F32 operands, which works on data bits [31:0] and
leaves the others of a result 0. R70: FCEQ, FCLT and FCLE write INT 0 when either operand is a NaN, quiet or signalling, FCUN
writes INT 1 exactly then, and FCEQ of +0 and -0 writes INT 1. The last clause: a NaN operand of an arithmetic operation, two
of FMIN or FMAX, and the invalid operations of IEEE 754 give the canonical quiet NaN; of one NaN operand FMIN and FMAX
return the other, and they order -0 below +0. -/
def Obligations.FloatingPointGroupResults : Prop :=
  ((∀ (d a b : Reg) (rm : Rm) (s s1 : State) (x y z : Word),
      s1.reg a = ⟨x, .f64⟩ →
      let one := fun (i : Instr) (w : Word) (t : Tag) =>
        Begins i s s1 → Machine.exec i s = .next (After s (s1.setReg d ⟨w, t⟩) none)
      let two := fun (i : Instr) (w : Word) (t : Tag) => s1.reg b = ⟨y, .f64⟩ → one i w t
      let three := fun (i : Instr) (w : Word) (t : Tag) => s1.reg d = ⟨z, .f64⟩ → two i w t
      two (.faddD d a b rm) (fmtD.addW rm x y) .f64 ∧ two (.fsubD d a b rm) (fmtD.subW rm x y) .f64 ∧
      two (.fmulD d a b rm) (fmtD.mulW rm x y) .f64 ∧ two (.fdivD d a b rm) (fmtD.divW rm x y) .f64 ∧
      one (.fsqrtD d a 0 rm) (fmtD.sqrtW rm x) .f64 ∧ three (.fmaddD d a b rm) (fmtD.maddW rm x y z) .f64 ∧
      three (.fmsubD d a b rm) (fmtD.msubW rm x y z) .f64 ∧ three (.fnmaddD d a b rm) (fmtD.nmaddW rm x y z) .f64 ∧
      two (.fminD d a b 0) (fmtD.minW x y) .f64 ∧ two (.fmaxD d a b 0) (fmtD.maxW x y) .f64 ∧
      one (.fabsD d a 0 0) (x &&& 0x7FFFFFFFFFFFFFFF) .f64 ∧ one (.fnegD d a 0 0) (x ^^^ 0x8000000000000000) .f64 ∧
      two (.fceqD d a b 0) (fmtD.ceqW x y) .int ∧ two (.fcltD d a b 0) (fmtD.cltW x y) .int ∧
      two (.fcleD d a b 0) (fmtD.cleW x y) .int ∧ two (.fcunD d a b 0) (fmtD.cunW x y) .int) ∧
   (∀ (d a b : Reg) (rm : Rm) (s s1 : State) (x y z : Word),
      s1.reg a = ⟨x, .f32⟩ →
      let one := fun (i : Instr) (w : Word) (t : Tag) =>
        Begins i s s1 → Machine.exec i s = .next (After s (s1.setReg d ⟨w, t⟩) none)
      let two := fun (i : Instr) (w : Word) (t : Tag) => s1.reg b = ⟨y, .f32⟩ → one i w t
      let three := fun (i : Instr) (w : Word) (t : Tag) => s1.reg d = ⟨z, .f32⟩ → two i w t
      two (.faddS d a b rm) (fmtS.addW rm x y) .f32 ∧ two (.fsubS d a b rm) (fmtS.subW rm x y) .f32 ∧
      two (.fmulS d a b rm) (fmtS.mulW rm x y) .f32 ∧ two (.fdivS d a b rm) (fmtS.divW rm x y) .f32 ∧
      one (.fsqrtS d a 0 rm) (fmtS.sqrtW rm x) .f32 ∧ three (.fmaddS d a b rm) (fmtS.maddW rm x y z) .f32 ∧
      three (.fmsubS d a b rm) (fmtS.msubW rm x y z) .f32 ∧ three (.fnmaddS d a b rm) (fmtS.nmaddW rm x y z) .f32 ∧
      two (.fminS d a b 0) (fmtS.minW x y) .f32 ∧ two (.fmaxS d a b 0) (fmtS.maxW x y) .f32 ∧
      one (.fabsS d a 0 0) (x &&& 0x7FFFFFFF) .f32 ∧ one (.fnegS d a 0 0) ((x &&& 0xFFFFFFFF) ^^^ 0x80000000) .f32 ∧
      two (.fceqS d a b 0) (fmtS.ceqW x y) .int ∧ two (.fcltS d a b 0) (fmtS.cltW x y) .int ∧
      two (.fcleS d a b 0) (fmtS.cleW x y) .int ∧ two (.fcunS d a b 0) (fmtS.cunW x y) .int)) ∧
  (∀ x y : Word,
     let nanD := fun (w : Word) => w.bits 62 52 = 0x7FF ∧ w.bits 51 0 ≠ 0
     let nanS := fun (w : Word) => w.bits 30 23 = 0xFF ∧ w.bits 22 0 ≠ 0
     (nanD x ∨ nanD y → fmtD.ceqW x y = 0 ∧ fmtD.cltW x y = 0 ∧ fmtD.cleW x y = 0) ∧
     (fmtD.cunW x y = 1 ↔ nanD x ∨ nanD y) ∧
     (nanS x ∨ nanS y → fmtS.ceqW x y = 0 ∧ fmtS.cltW x y = 0 ∧ fmtS.cleW x y = 0) ∧
     (fmtS.cunW x y = 1 ↔ nanS x ∨ nanS y) ∧
     fmtD.ceqW 0 0x8000000000000000 = 1 ∧ fmtD.ceqW 0x8000000000000000 0 = 1 ∧
     fmtS.ceqW 0 0x80000000 = 1 ∧ fmtS.ceqW 0x80000000 0 = 1) ∧
  (∀ (rm : Rm) (x y z : Word),
     let canon := fun (f : FFmt) (nan : Word → Prop) (q plus minus one low : Word) =>
       (nan x ∨ nan y → ∀ w ∈ [f.addW rm x y, f.subW rm x y, f.mulW rm x y, f.divW rm x y], w = q) ∧
       (nan x → f.sqrtW rm x = q) ∧
       (nan x ∨ nan y ∨ nan z → ∀ w ∈ [f.maddW rm x y z, f.msubW rm x y z, f.nmaddW rm x y z], w = q) ∧
       (nan x → nan y → f.minW x y = q ∧ f.maxW x y = q) ∧
       (nan x → ¬ nan y → f.minW x y = y &&& low ∧ f.maxW x y = y &&& low) ∧
       (¬ nan x → nan y → f.minW x y = x &&& low ∧ f.maxW x y = x &&& low) ∧
       (∀ w ∈ [f.addW rm plus minus, f.subW rm plus plus, f.mulW rm 0 plus, f.divW rm 0 0, f.divW rm plus minus,
          f.sqrtW rm minus, f.sqrtW rm one], w = q)
     canon fmtD (fun w => w.bits 62 52 = 0x7FF ∧ w.bits 51 0 ≠ 0) 0x7FF8000000000000 0x7FF0000000000000
       0xFFF0000000000000 0xBFF0000000000000 0xFFFFFFFFFFFFFFFF ∧
     canon fmtS (fun w => w.bits 30 23 = 0xFF ∧ w.bits 22 0 ≠ 0) 0x7FC00000 0x7F800000 0xFF800000 0xBF800000 0xFFFFFFFF ∧
     fmtD.minW 0 0x8000000000000000 = 0x8000000000000000 ∧ fmtD.minW 0x8000000000000000 0 = 0x8000000000000000 ∧
     fmtD.maxW 0 0x8000000000000000 = 0 ∧ fmtD.maxW 0x8000000000000000 0 = 0 ∧
     fmtS.minW 0 0x80000000 = 0x80000000 ∧ fmtS.minW 0x80000000 0 = 0x80000000 ∧
     fmtS.maxW 0 0x80000000 = 0 ∧ fmtS.maxW 0x80000000 0 = 0)

/-- R71: the conversion group, each on an operand of its source tag. A conversion to integer saturates at the largest and the
smallest integer and gives 0 for a NaN; a NaN of one format converts to the canonical NaN of the other (R69). -/
def Obligations.ConversionResults : Prop :=
  (∀ (d a : Reg) (rm : Rm) (s s1 : State) (x : Word),
    let goes := fun (i : Instr) (src : Tag) (w : Word) (t : Tag) =>
      Begins i s s1 → s1.reg a = ⟨x, src⟩ → Machine.exec i s = .next (After s (s1.setReg d ⟨w, t⟩) none)
    goes (.fcvtDI d a 0 rm) .int (fmtD.ofSigned rm x) .f64 ∧ goes (.fcvtDIu d a 0 rm) .int (fmtD.ofUnsigned rm x) .f64 ∧
    goes (.fcvtID d a 0 rm) .f64 (fmtD.toSigned rm x) .int ∧ goes (.fcvtIuD d a 0 rm) .f64 (fmtD.toUnsigned rm x) .int ∧
    goes (.fcvtSI d a 0 rm) .int (fmtS.ofSigned rm x) .f32 ∧ goes (.fcvtSIu d a 0 rm) .int (fmtS.ofUnsigned rm x) .f32 ∧
    goes (.fcvtIS d a 0 rm) .f32 (fmtS.toSigned rm x) .int ∧ goes (.fcvtIuS d a 0 rm) .f32 (fmtS.toUnsigned rm x) .int ∧
    goes (.fcvtDS d a 0 0) .f32 (fmtD.res .rne (fmtS.read x)) .f64 ∧
    goes (.fcvtSD d a 0 rm) .f64 (fmtS.res (.ofBits rm) (fmtD.read x)) .f32) ∧
  (∀ (rm : Rm) (x : Word),
    let toInt := fun (f : FFmt) (nan neg : Prop) (e bias : Nat) =>
      (nan → f.toSigned rm x = 0 ∧ f.toUnsigned rm x = 0) ∧
      (¬ nan → bias + 63 ≤ e → ¬ neg → f.toSigned rm x = 0x7FFFFFFFFFFFFFFF) ∧
      (¬ nan → bias + 63 ≤ e → neg → f.toSigned rm x = 0x8000000000000000) ∧
      (¬ nan → bias + 64 ≤ e → ¬ neg → f.toUnsigned rm x = 0xFFFFFFFFFFFFFFFF) ∧ (¬ nan → neg → f.toUnsigned rm x = 0)
    let nanD := x.bits 62 52 = 0x7FF ∧ x.bits 51 0 ≠ 0
    let nanS := x.bits 30 23 = 0xFF ∧ x.bits 22 0 ≠ 0
    toInt fmtD nanD (x.bit 63 = true) (x.bits 62 52) 1023 ∧ toInt fmtS nanS (x.bit 31 = true) (x.bits 30 23) 127 ∧
    (nanS → fmtD.res .rne (fmtS.read x) = 0x7FF8000000000000) ∧ (nanD → fmtS.res (.ofBits rm) (fmtD.read x) = 0x7FC00000))

/-- R72, R52: a branch that is taken moves the pc to its own address plus four times its offset; a condition tagged NONE takes
TAG_NONE, POISON TAG_POISON, and any tag but INT, VADDR and BADDR TAG_MISMATCH; JAL and JALR write the address of the next
word, tagged VADDR (to g0, which discards it, none); JALR reads a before it writes d, and takes INSN_ALIGN, code 3, with the
computed address as tval, before it writes d where that is not a multiple of 4. -/
def Obligations.BranchResults : Prop :=
  ∀ (d a : Reg) (off : BitVec 20) (imm : BitVec 15) (s s1 : State) (v : TVal), s1.reg a = v →
    (Begins (.bz a off) s s1 → intOrAddr v.tag = true → Machine.exec (.bz a off) s =
      .next (After s s1 (if v.data = 0 then some (s1.cur.pc + off.signExtend 64 * 4) else none))) ∧
    (Begins (.bnz a off) s s1 → intOrAddr v.tag = true → Machine.exec (.bnz a off) s =
      .next (After s s1 (if v.data ≠ 0 then some (s1.cur.pc + off.signExtend 64 * 4) else none))) ∧
    (Begins (.jal a off) s s1 → Machine.exec (.jal a off) s =
      .next (After s (s1.setReg a ⟨s1.cur.pc + 4, .vaddr⟩) (some (s1.cur.pc + off.signExtend 64 * 4)))) ∧
    (Begins (.jalr d a imm) s s1 → v.tag = .vaddr → (v.data + imm.signExtend 64 * 4).toNat % 4 = 0 →
      Machine.exec (.jalr d a imm) s =
        .next (After s (s1.setReg d ⟨s1.cur.pc + 4, .vaddr⟩) (some (v.data + imm.signExtend 64 * 4)))) ∧
    (Begins (.jalr d a imm) s s1 → v.tag = .vaddr → (v.data + imm.signExtend 64 * 4).toNat % 4 ≠ 0 →
      Machine.exec (.jalr d a imm) s =
        .next (Aborted (.jalr d a imm) s s1 (.trap 3 0 .none (v.data + imm.signExtend 64 * 4)))) ∧
    (∀ code : Nat, (v.tag = .none ∧ code = 0x40 ∨ v.tag = .poison ∧ code = 0x41 ∨
        v.tag ≠ .none ∧ v.tag ≠ .poison ∧ intOrAddr v.tag = false ∧ code = 0x42) →
      (Begins (.bz a off) s s1 →
        Machine.exec (.bz a off) s = .next (Aborted (.bz a off) s s1 (.trap code 2 v.tag v.data))) ∧
      (Begins (.bnz a off) s s1 →
        Machine.exec (.bnz a off) s = .next (Aborted (.bnz a off) s s1 (.trap code 2 v.tag v.data))))

/-- The frame of the instructions that write one register: in each of them, whatever its operands, either the instruction is
aborted after its fetch (a tag fault or another trap that its rule names), or nothing changes but its destination register,
the pc, the wait at issue, TLB, caches and counters: no other register, no system register, no byte of memory. An
instruction that reads a register with an unmet error leaves that error's record besides (R451). -/
def Obligations.RegisterInstructionFrame : Prop :=
  ∀ (i : Instr) (d : Reg) (s s1 : State) (k : Nat), registerOnly i = some d → s.curStall = some k → s.issued i = some s1 →
    ∃ t, Machine.exec i s = .next t ∧
      (RegisterFrame s1 t k d ∧ (Sound i s → RegisterFrame s t k d) ∨
        ∃ code f tag v, t = Aborted i s s1 (.trap code f tag v))

/-- R73, R47, R48: a load of memory or buffer memory whose parts are translated, in the order of R76, without a fault: the
register takes the value of its form, extended as R47 gives, tagged POISON where a byte read is poisoned. R77, R17: a load of a
device region that is not naturally aligned, or of a size that the aperture refuses, takes DEVICE_ACCESS, code 6, with the
address as tval. R31: another load of the aperture takes what the register reads, or INT 0 where the read is refused. -/
def Obligations.LoadResults : Prop :=
  ∀ (d a : Reg) (imm : BitVec 15) (s s1 s2 : State) (x : Word) (ps : List (TlbEntry × Nat × Nat)),
    let va := x + imm.signExtend 64
    let goes := fun (i : Instr) (n : Nat) (signed : Bool) (tag : Tag) =>
      Begins i s s1 → s1.reg a = ⟨x, .vaddr⟩ → translateParts 1 va (splitParts va n) s1 = .ok ps s2 →
      let ext := fun (v : Nat) => if signed then (BitVec.ofNat (8 * n) v).signExtend 64 else BitVec.ofNat 64 v
      let g := (readParts s2.curCtx ps s2).1
      let pa := (ps.map (·.2.1)).headD 0
      let refused := va.toNat % n ≠ 0 ∨ s2.inAperture pa = true ∧ (n < 4 ∨ only64 (apOff pa) = true ∧ n ≠ 8)
      let got := s2.apRead .core (apOff pa) (apLane pa n)
      (s2.anyDevice ps = false →
        ∃ s3 : State, Machine.exec i s =
          .next (After s (s3.setReg d ⟨ext (leNat g.bytes), if g.poison then .poison else tag⟩) none) ∧
          s3.mem = s2.mem ∧ s3.buf = s2.buf ∧ s3.core.stalls = s2.core.stalls) ∧
      (s2.anyDevice ps = true → refused → Machine.exec i s = .next (Aborted i s s2 (.trap 6 0 .none va))) ∧
      (s2.anyDevice ps = true → ¬ refused → s2.inAperture pa = true → Machine.exec i s = .next (After s (got.2.setReg d
        (match got.1 with
         | none => ⟨0, .int⟩
         | some w => ⟨ext (if apLane pa n = .hi then (w >>> 32).toNat else w.toNat), tag⟩)) none))
    goes (.ldI8 d a imm) 1 true .int ∧ goes (.ldI8u d a imm) 1 false .int ∧ goes (.ldI16 d a imm) 2 true .int ∧
    goes (.ldI16u d a imm) 2 false .int ∧ goes (.ldI32 d a imm) 4 true .int ∧ goes (.ldI32u d a imm) 4 false .int ∧
    goes (.ldI d a imm) 8 false .int ∧ goes (.ldF32 d a imm) 4 false .f32 ∧ goes (.ldF64 d a imm) 8 false .f64 ∧
    goes (.ldVa d a imm) 8 false .vaddr ∧ goes (.ldBa d a imm) 8 false .baddr ∧ goes (.ldSh d a imm) 8 false .shape ∧
    goes (.ldSd d a imm) 8 false .sdesc ∧ goes (.ldW d a imm) 8 false .wide

/-- R73, R49, R76: a store of memory or buffer memory whose parts are translated without a fault writes the low bytes of d to
those parts, lower half first, as poisoned data where d is POISON. R50: a POISON store to the Tack window takes TAG_POISON,
code 0x41, against d. R77, R17, R31: a store to a device region takes DEVICE_ACCESS where a load would; another store to the
aperture is the register's write. -/
def Obligations.StoreResults : Prop :=
  ∀ (d a : Reg) (imm : BitVec 15) (s s1 s2 : State) (x : Word) (v : TVal) (ps : List (TlbEntry × Nat × Nat)),
    let va := x + imm.signExtend 64
    let goes := fun (i : Instr) (n : Nat) =>
      Begins i s s1 → s1.reg a = ⟨x, .vaddr⟩ → s1.reg d = v → v.tag ≠ .none →
      translateParts 2 va (splitParts va n) s1 = .ok ps s2 →
      let pa := (ps.map (·.2.1)).headD 0
      let refused := va.toNat % n ≠ 0 ∨ s2.inAperture pa = true ∧ (n < 4 ∨ only64 (apOff pa) = true ∧ n ≠ 8)
      let toTack := ∃ p ∈ ps, s2.inAperture p.2.1 = true ∧ 0x30000 ≤ p.2.1 % 2 ^ 24 ∧ p.2.1 % 2 ^ 24 < 0x40000
      let w : Word := if apLane pa n = .hi then v.data <<< 32 else v.data
      (s2.anyDevice ps = false → Machine.exec i s = .next (After s
        (writeParts s2.curCtx (decide (v.tag = .poison)) ps (leBytes n v.data.toNat) s2) none)) ∧
      (v.tag = .poison → toTack → Machine.exec i s = .next (Aborted i s s2 (.trap 0x41 1 .poison v.data))) ∧
      (s2.anyDevice ps = true → ¬ (v.tag = .poison ∧ toTack) → refused →
        Machine.exec i s = .next (Aborted i s s2 (.trap 6 0 .none va))) ∧
      (s2.anyDevice ps = true → ¬ (v.tag = .poison ∧ toTack) → ¬ refused → s2.inAperture pa = true →
        Machine.exec i s =
          .next (After s (s2.apWrite .core (apOff pa) (apLane pa n) w (decide (v.tag = .poison))).2 none))
    goes (.stI8 d a imm) 1 ∧ goes (.stI16 d a imm) 2 ∧ goes (.stI32 d a imm) 4 ∧ goes (.stI d a imm) 8

/-! ## Fences, system registers, traps, scheduling -/

/-- R78, R328, R79: FENCE completes once every accepted tile instruction of the context has completed, and waits at issue before
that; FENCE.ST and IFENCE complete at once in a core that executes in order, where nothing else is outstanding (log entry 19,
the model's reading). R302, R301: SSYNC in system mode loads the
in-use ASID and root from asid and ptbase, invalidates what INV names in both TLBs, and ends with INV = 0; with INV not 0 it
ends once no context in scope uses a translation. -/
def Obligations.FenceGroupResults : Prop :=
  (∀ (s s1 : State),
     (Begins (.fence 0 0 0) s s1 → s1.tileIdle s1.curCtx = true → Machine.exec (.fence 0 0 0) s = .next (After s s1 none)) ∧
     (Begins (.fence 0 0 0) s s1 → s1.tileIdle s1.curCtx = false →
       Machine.exec (.fence 0 0 0) s = .next (Aborted (.fence 0 0 0) s s1 (.wait .earlier 0 .none 0))) ∧
     (Begins (.fenceSt 0 0 0) s s1 → Machine.exec (.fenceSt 0 0 0) s = .next (After s s1 none)) ∧
     (Begins (.ifence 0 0 0) s s1 → Machine.exec (.ifence 0 0 0) s = .next (After s s1 none))) ∧
  (∀ (s s1 : State), Begins (.ssync 0 0 0) s s1 → s1.cur.sysMode = true → s1.tileIdle s1.curCtx = true →
     let inv := s1.cur.ptbase.bits 1 0
     let asid := BitVec.ofNat 16 (s1.cur.asid.bits 15 0)
     let s2 := match s1.curCtx with
       | some c => s1.loadInUse c (s1.curStall.getD 31)
       | none => s1.modCur Stall.loadInUse
     let s3 := { s2 with core := { s2.core with tlb := s2.core.tlb.invalidate inv asid, ttlb := s2.core.ttlb.invalidate inv asid } }
     (inv = 0 ∨ s2.invDone inv asid = true) →
     Machine.exec (.ssync 0 0 0) s = .next (After s (s3.modCur fun t => { t with ptbase := t.ptbase &&& ~~~3 }) none))

/-- R55, R81: SRD of an implemented register that the mode may read writes its data bits and its tag; each register of the
stall reads as the stall holds it. -/
def Obligations.SrdReadsSystemRegisters : Prop :=
  (∀ (d : Reg) (n : BitVec 15) (s s1 : State) (tag : Tag) (svc sys : Access),
    Begins (.srd d 0 n) s s1 → (s1.curCtx.isSome = true ∨ ownReg n.toNat = false) → sysRegs n.toNat = some (tag, svc, sys) →
    (if s1.cur.sysMode then sys else svc) ≠ .no →
    Machine.exec (.srd d 0 n) s = .next (After s (s1.setReg d (s1.sysRead n.toNat)) none)) ∧
  (∀ (s : State), let t := s.cur
    s.sysRead 0x002 = ⟨t.cause, .int⟩ ∧ s.sysRead 0x003 = ⟨t.epc, .vaddr⟩ ∧ s.sysRead 0x004 = ⟨t.tval, .int⟩ ∧
    s.sysRead 0x005 = ⟨t.tvec, .vaddr⟩ ∧ s.sysRead 0x006 = ⟨t.tsp, .vaddr⟩ ∧ s.sysRead 0x007 = t.scratch ∧
    s.sysRead 0x010 = ⟨BitVec.ofNat 64 s.now, .int⟩ ∧ s.sysRead 0x011 = ⟨s.gcount, .int⟩ ∧
    s.sysRead 0x020 = ⟨t.asid, .int⟩ ∧ s.sysRead 0x021 = ⟨t.ptbase, .int⟩ ∧ s.sysRead 0x022 = ⟨t.keyrl, .int⟩ ∧
    s.sysRead 0x023 = ⟨t.keyrh, .int⟩ ∧ s.sysRead 0x030 = ⟨t.bbase, .int⟩ ∧ s.sysRead 0x031 = ⟨t.bbound, .int⟩ ∧
    s.sysRead 0x032 = ⟨t.bwlimit, .int⟩)

/-- R56, R81, R57: SWR of a register of the stall in system mode, with an operand of the register's tag (any but NONE for
scratch), replaces the bits that its layout implements and leaves every other system register and general register. R260 to
R262, R280: SWR of a register of the context state array: prio[2:0], with a decision due; the implemented bits of evmask; a
write of ones that clears alert[3:0]; tsave. -/
def Obligations.SwrWritesRegisters : Prop :=
  (∀ (a : Reg) (n : BitVec 15) (s s1 : State) (v : TVal) (tag : Tag) (svc sys : Access),
     Begins (.swr 0 a n) s s1 → s1.reg a = v → sysRegs n.toNat = some (tag, svc, sys) → n.toNat < 0x40 →
     s1.cur.sysMode = true → sys = .rw → swrAccepts n.toNat v.tag = true →
     Machine.exec (.swr 0 a n) s = .next (After s (s1.modCur fun t => t.sysWrite n.toNat v) none) ∧
     (let t := s1.cur.sysWrite n.toNat v
      (n = 0x002 → t = { s1.cur with cause := v.data &&& 0x8000000000F7FFFF }) ∧
      (n = 0x021 → t = { s1.cur with ptbase := v.data &&& 0xFFFFFFFFFE003 }) ∧
      (n = 0x030 → t = { s1.cur with bbase := v.data &&& 0xFFFFF000 }) ∧
      (n = 0x031 → t = { s1.cur with bbound := v.data &&& 0x1FFFFFFFF }) ∧
      (n = 0x032 → t = { s1.cur with bwlimit := v.data &&& 0xFFFFFFFF }) ∧
      (n = 0x003 → t = { s1.cur with epc := v.data &&& ~~~3 }) ∧ (n = 0x004 → t = { s1.cur with tval := v.data }) ∧
      (n = 0x005 → t = { s1.cur with tvec := v.data &&& ~~~3 }) ∧ (n = 0x006 → t = { s1.cur with tsp := v.data }) ∧
      (n = 0x007 → t = { s1.cur with scratch := v }) ∧ (n = 0x020 → t = { s1.cur with asid := v.data &&& 0xFFFF }) ∧
      (n = 0x022 → t = { s1.cur with keyrl := v.data }) ∧ (n = 0x023 → t = { s1.cur with keyrh := v.data }) ∧
      (n = 0x001 → t = { s1.cur with status := (s1.cur.status &&& 1) ||| (v.data &&& 0xE) }))) ∧
  (∀ (a : Reg) (s s1 : State) (c : Nat) (w : Word), s1.curCtx = some c → s1.cur.sysMode = true →
     (Begins (.swr 0 a 0x040) s s1 → s1.reg a = ⟨w, .int⟩ → Machine.exec (.swr 0 a 0x040) s =
       .next (After s (s1.modCtx c fun e => { e with prio := BitVec.ofNat 3 w.toNat }).trigger none)) ∧
     (Begins (.swr 0 a 0x041) s s1 → s1.reg a = ⟨w, .int⟩ → Machine.exec (.swr 0 a 0x041) s =
       .next (After s (s1.modCtx c fun e => { e with evmask := w &&& 0x00FFFFFFFFFF017F }) none)) ∧
     (Begins (.swr 0 a 0x042) s s1 → s1.reg a = ⟨w, .int⟩ → Machine.exec (.swr 0 a 0x042) s =
       .next (After s (s1.modCtx c fun e => { e with alert := e.alert &&& ~~~(w &&& 0xF) }) none)) ∧
     (Begins (.swr 0 a 0x050) s s1 → s1.reg a = ⟨w, .vaddr⟩ → Machine.exec (.swr 0 a 0x050) s =
       .next (After s (s1.modCtx c fun e => { e with tsave := w &&& 0x01FFFFFFFFFFFFFF }) none)))

/-- R300: KEYSW replaces the rights of the sixteen keys that a[1:0] selects by a[63:32], and keeps the other forty-eight. -/
def Obligations.KeyswReplacesSixteenKeys : Prop :=
  ∀ (a : Reg) (s s1 : State) (w : Word), Begins (.keysw 0 a 0) s s1 → s1.reg a = ⟨w, .int⟩ →
    Machine.exec (.keysw 0 a 0) s = .next (After s (s1.modCur fun t => t.keysw w) none) ∧
    ∀ key : Nat, key < 64 →
      let y := (s1.cur.keysw w).xctx
      y.rights key = if key / 16 = w.toNat % 4 then w.toNat >>> (32 + 2 * (key % 16)) % 4 else s1.cur.xctx.rights key

/-- R54, R56, R82, R84, R87: a number that R55 reserves takes SYSREG_UNDEF, code 0x44, and an SRD or SWR that the register map
does not permit in service mode takes SYSREG_PRIV, code 0x43, each with the number as tval; the instructions marked System
(TRET, SSYNC and the context group, whose operands are checked first) take PRIV_INSN, code 2, in service mode, with the word
as tval. -/
def Obligations.SystemRegisterAndPrivilegeFaults : Prop :=
  (∀ (d a : Reg) (n : BitVec 15) (s s1 : State) (tag : Tag) (svc sys : Access),
     let trap := fun (i : Instr) (code : Nat) =>
       Machine.exec i s = .next (Aborted i s s1 (.trap code 0 .none (BitVec.ofNat 64 n.toNat)))
     (Begins (.srd d 0 n) s s1 → sysRegs n.toNat = none → trap (.srd d 0 n) 0x44) ∧
     (Begins (.swr 0 a n) s s1 → sysRegs n.toNat = none → swrAccepts n.toNat (s1.reg a).tag = true →
       trap (.swr 0 a n) 0x44) ∧
     (Begins (.srd d 0 n) s s1 → sysRegs n.toNat = some (tag, svc, sys) → s1.cur.sysMode = false → svc = .no →
       trap (.srd d 0 n) 0x43) ∧
     (Begins (.swr 0 a n) s s1 → sysRegs n.toNat = some (tag, svc, sys) → s1.cur.sysMode = false → svc ≠ .rw →
       swrAccepts n.toNat (s1.reg a).tag = true → trap (.swr 0 a n) 0x43)) ∧
  (∀ (s s1 : State) (a b : Reg), s1.cur.sysMode = false →
     let priv := fun (i : Instr) =>
       Begins i s s1 → Machine.exec i s = .next (Aborted i s s1 (.trap 2 0 .none (insnWord i)))
     priv (.tret 0 0 0) ∧ priv (.ssync 0 0 0) ∧
     ((s1.reg a).tag = .vaddr → (s1.reg b).tag = .int →
       priv (.ctxsvL 0 a b) ∧ priv (.ctxsvU 0 a b) ∧ priv (.ctxldL 0 a b) ∧ priv (.ctxldU 0 a b)))

/-- R53, R88, R89, R58: what trap entry leaves where its frame can be written: the frame's first 0x30 bytes at the
translation of tsp - 256, and the stall's registers; no other stall changes. R88, R90, R132: an entry made while recf is 1
first moves the 208 bytes of the tile status record from the frame at frame_pa to the save area header, clears that frame's
FLAGS, and clears recf. -/
def Obligations.TrapEntrySavesAndVectors : Prop :=
  ∀ (s s1 : State) (n k code f : Nat) (tag : Tag) (alert : Bool) (tval pc : Word) (e : TlbEntry) (pa : Nat),
    let old := (s.ctx n).framePa
    ((s.stall k).tsp - 256).toNat % 256 = 0 →
    ((s.ctx n).recf = true → (s.ctx n).pin.isSome = true ∧ old % 256 = 0 ∧ s.mem.noTarget.get false ((old + 0x28) / 128) = false ∧
      windowSpace ((old + 0x28) / 128) = false) →
    translate { (s.stall k).xctx with sys := true } 2 false ((s.stall k).tsp - 256) (some n) s = .ok (e, pa) s1 →
    s1.attr pa = 1 → s1.mem.lost (pa / 128) = false →
    let t := s.trapEntry n k code f tag alert tval pc
    let u := s.stall k
    t.stall k = { u with
      tsp := u.tsp - 256, epc := pc, tval := tval, pc := u.tvec,
      cause := BitVec.ofNat 64 (code + f * 2 ^ 16 + tagCode tag * 2 ^ 20 + alert.toNat * 2 ^ 63),
      status := BitVec.ofNat 64 (1 + u.status.toNat % 2 * 2 + u.status.toNat / 4 % 2 * 8) } ∧
    (t.ctx n).fpv = true ∧ (t.ctx n).framePa = pa ∧ (∀ j, j ≠ k → t.stall j = s.stall j) ∧
    (t.ctx n).recf = false ∧
    let before := if (s.ctx n).recf then
        (s.mem.store.copyChunks (old + 0x30) (headerPa ((s.ctx n).pin.getD 0)) 13).write (old + 0x28) (leBytes 8 0) false
      else s.mem.store
    t.mem.store = before.write pa (frameBytes u (s.statusWord u (some n))) false

/-- R91: TRET whose frame is read without a fault: execution goes on at epc, and tsp, epc, cause, tval, PMODE and PAE are
restored from the frame, MODE and AE from PMODE and PAE; the frame is no longer valid. R91, R132: the tile status record
that lies in a valid frame is copied to the save area header. -/
def Obligations.TretRestores : Prop :=
  ∀ (s s1 s2 : State) (n : Nat) (e : TlbEntry) (pa : Nat), Begins (.tret 0 0 0) s s1 → s1.cur.sysMode = true →
    s1.curCtx = some n → s1.cur.tsp.toNat % 256 = 0 →
    translate { s1.cur.xctx with sys := true } 1 false s1.cur.tsp (some n) s1 = .ok (e, pa) s2 →
    s2.attr pa = 1 → (s2.memRead .l1d pa 48 e.st (some n)).1.poison = false →
    let u := s1.cur
    let w := fun i => leNat (s2.mem.store.read (pa + 8 * i) 8)
    ∃ s3 : State, Machine.exec (.tret 0 0 0) s = .next (After s s3 (some u.epc)) ∧ (s3.ctx n).fpv = false ∧
      (s3.ctx n).recf = false ∧
      (let x := s1.ctx n
       s3.mem = match x.pin with
         | some p => if x.fpv ∧ x.recf then
             { s2.mem with store := s2.mem.store.copyChunks (x.framePa + 0x30) (headerPa p) 13 } else s2.mem
         | none => s2.mem) ∧
      s3.curStall = s.curStall ∧
      s3.cur = { u with
        tsp := BitVec.ofNat 64 (w 0), epc := BitVec.ofNat 64 (w 1) &&& ~~~3,
        cause := BitVec.ofNat 64 (w 2) &&& 0x8000000000F7FFFF, tval := BitVec.ofNat 64 (w 3), pc := u.epc,
        status := BitVec.ofNat 64 (u.status.toNat / 2 % 2 + w 4 / 2 % 2 * 2 + u.status.toNat / 8 % 2 * 4 + w 4 / 8 % 2 * 8) }

/-- R263, R264: WAIT with an enabled event pending completes at once and moves those bits to WOKE; with none, and some event
or the timer enabled, the context waits and leaves the core, at the next word; with nothing enabled it takes WAIT_DEAD,
code 0x82. YIELD takes the stamp of the present cycle and lets a context of equal priority follow. R276: WAIT in the reserve
stall frees the held stalls that hold no context and withdraws the requests of contexts that need none; it goes on with g1 to
g4 of another context that is next to be dispatched and not resident, or the reserve stall leaves the core. -/
def Obligations.WaitAndYield : Prop :=
  (∀ (s s1 : State), s1.curCtx = none → Begins (.wait 0 0 0) s s1 →
    let kept := s1.core.reserve.holds.foldl (fun t p => if (s1.resident p.1).isNone then Tbl.del t p.1 else t) s1.core.stalls
    let freed : State := { s1 with core := { s1.core with
      stalls := kept, reserve := { s1.core.reserve with holds := [], current := none } } }
    let r := { freed.core.reserve with requests := freed.liveRequests }
    let s2 : State := { freed with core := { freed.core with reserve := r } }
    (∀ c, s2.best = some c → (s2.ctx c).stall = none → Machine.exec (.wait 0 0 0) s = .next (After s
      ((({ s2 with core := { s2.core with reserve := { r with requests := r.requests.filter (· ≠ c) } } } : State).overflowArgs c
        ).pmcAdd 3 1) none)) ∧
    ((∀ c, s2.best = some c → (s2.ctx c).stall ≠ none) → Machine.exec (.wait 0 0 0) s = .next (After s
      ({ s2 with core := { s2.core with disp := .idle } } : State).trigger none))) ∧
  ∀ (s s1 : State) (c : Nat), s1.curCtx = some c →
    let e := s1.ctx c
    let on := e.pend &&& BitVec.ofNat 8 (e.evmask.toNat % 128)
    (Begins (.wait 0 0 0) s s1 → on ≠ 0 → Machine.exec (.wait 0 0 0) s =
      .next (After s (s1.modCtx c fun e => { e with woke := on, pend := e.pend &&& ~~~on }) none)) ∧
    (Begins (.wait 0 0 0) s s1 → on = 0 → e.evmask.toNat % 512 ≠ 128 → e.evmask.toNat % 512 ≠ 0 →
      Machine.exec (.wait 0 0 0) s = .next (After s
        (let s2 := s1.modCtx c fun e => { e with mode := .waiting, inWait := true }
         ({ s2 with core := { s2.core with disp := .idle } }).trigger) none)) ∧
    (Begins (.wait 0 0 0) s s1 → on = 0 → (e.evmask.toNat % 512 = 0 ∨ e.evmask.toNat % 512 = 128) →
      Machine.exec (.wait 0 0 0) s =
        .next (Aborted (.wait 0 0 0) s s1 (.trap 0x82 0 .none (insnWord (.wait 0 0 0))))) ∧
    (Begins (.yieldOp 0 0 0) s s1 → Machine.exec (.yieldOp 0 0 0) s = .next (After s
      (let s2 := s1.modCtx c fun e => { e with stamp := s1.now }
       ({ s2 with core := { s2.core with sliceExpired := true } }).trigger) none))

/-- R274, R275, R451: the context-group instructions in the reserve stall, on operands that name an aligned area and a stall
that may be saved or loaded: CTXSV.L and CTXSV.U write the halves of the stall's record, whose registers they read, the
latter empties the stall, and CTXLD.L and CTXLD.U load them and bind the context, with the in-use copies of ASID and root that
it had (R301; that a context keeps them while it is not resident is the model's reading, log entry 18). -/
def Obligations.ContextGroupMovesStalls : Prop :=
  ∀ (a b : Reg) (s s1 s2 : State) (va : Word) (v c : Nat) (ps : List (TlbEntry × Nat × Nat)) (h : Hold) (ar : Area),
    let ready := fun (i : Instr) (kind : Nat) =>
      Begins i s s1 ∧ contextOperands i a b s1 = .ok (va, v) s1 ∧ areaParts kind va s1 = .ok ps s2
    (ready (.ctxsvL 0 a b) 2 → savable v s1 = .ok c s1 →
      let s2 := s2.meetUpset v ((List.range 15).map (· + 1))
      let t := s2.stall v
      let s3 := writeArea ps (lowerBytes t c (s2.statusWord t (some c))) s2
      Machine.exec (.ctxsvL 0 a b) s =
        .next (After s (s3.setHold v { (s3.hold v).getD Hold.fresh with savedL := true }) none)) ∧
    (ready (.ctxsvU 0 a b) 2 → savable v s1 = .ok c s1 → ((s1.hold v).getD Hold.fresh).savedL = true →
      let s2 := s2.meetUpset v ((List.range 16).map (· + 16))
      let s3 := (writeArea ps (upperBytes (s2.stall v) c) s2).modCtx c fun e => { e with stall := none }
      Machine.exec (.ctxsvU 0 a b) s = .next (After s
        (({ s3 with core := { s3.core with stalls := s3.core.stalls.del v } } : State).setHold v
          { Hold.fresh with emptied := true }) none)) ∧
    (ready (.ctxldL 0 a b) 1 → loadable v s1 = .ok h s1 → (readAreaParts ps s2).1 = ar → ar.lowerBad = false →
      ar.hdrHalf = false → ar.hdrCtx = c →
      let s3 := (readAreaParts ps s2).2
      (s3.ctx c).started = true → (s3.ctx c).stall = none →
      Machine.exec (.ctxldL 0 a b) s = .next (After s
        ((s3.setStall v (ar.loadLower Stall.fresh)).setHold v { h with loadedL := some c }) none)) ∧
    (ready (.ctxldU 0 a b) 1 → loadable v s1 = .ok h s1 → h.loadedL = some c → (readAreaParts ps s2).1 = ar →
      ar.upperBad = false → ar.hdrHalf = true → ar.hdrCtx = c →
      let s3 := (readAreaParts ps s2).2
      (s3.ctx c).started = true → (s3.ctx c).stall = none →
      Machine.exec (.ctxldU 0 a b) s = .next (After s
        (((s3.setStall v (s3.bindInUse c (ar.loadUpper (s3.stall v)))).modCtx c fun e => { e with stall := some v }).setHold v Hold.fresh)
        none))

/-! ## The tile unit -/

/-- R197, R200: a tile instruction that works on the field is accepted at the end of its saddle's queue, with its operands as
they are at issue, once its rows are placed, the governor lets it issue and the queue has fewer than 64 entries. -/
def Obligations.TileInstructionIsQueued : Prop :=
  ∀ (i : Instr) (s s1 s3 s4 : State) (q : Issued) (n : Nat) (rows rows2 : List Row), queuedTile i = true →
    Begins i s s1 → Issues i s1 q n s3 → placeRows q.c q.k q.shape q.left q.right s3 = .ok (rows, rows2) s4 →
    s4.paced q.c = false → (s4.sad n).queue.length < 64 →
    let op : TileOp := { insn := i, shape := q.shape, left := q.left, right := q.right, rows := rows, rows2 := rows2 }
    Machine.exec i s =
      .next (After s ((s4.countIssue n q).modSad n fun d => { d with queue := d.queue ++ [op] }) none)

/-- R178, R202, R117, R116, R118, R121: TLD and TST, and their scale forms, take effect before they retire: where the context's
earlier tile instructions have completed and its saddle is active, the rows are moved and the errors of the operation recorded.
A TLD leaves in each row of its tile the 512 bytes read for it; a TST leaves in memory or buffer memory, for each row, the 512
bytes of the tile's row. One that is abandoned when it has moved some rows waits to be presented again (R119). -/
def Obligations.TileTransferCompletes : Prop :=
  ∀ (sh l r : Reg) (m : BitVec 1024) (s s1 s3 s4 : State) (q : Issued) (n : Nat) (rows rows2 : List Row),
    let ready := fun (i : Instr) =>
      Begins i s s1 ∧ Issues i s1 q n s3 ∧ placeRows q.c q.k q.shape q.left q.right s3 = .ok (rows, rows2) s4 ∧
      s4.paced q.c = false ∧ (s4.sad n).queue = [] ∧ s4.tile.active.toNat = n
    let goes := fun (i : Instr) => ready i →
      Machine.exec i s = .next (After s (((q.run rows).perform n (s4.countIssue n q)).inline q.c 1) none)
    let stops := fun (i : Instr) => ready i → Machine.exec i s = .next (Aborted i s
      ((({ q.run rows with cut := some m } : TileRun).perform n s4).inline q.c 1) (.wait .transfer 0 .none 0))
    (goes (.tld sh l r none) ∧ goes (.tldScale sh l r none) ∧ goes (.tst sh l r none) ∧ goes (.tstScale sh l r none)) ∧
    (stops (.tld sh l r (some m)) ∧ stops (.tldScale sh l r (some m)) ∧ stops (.tst sh l r (some m)) ∧
      stops (.tstScale sh l r (some m))) ∧
    (∀ (scale : Bool) (loc : Loc) (places : List Nat), rows = places.map (fun a => ⟨loc, [(a, 512)]⟩) →
      (∀ a ∈ places, s4.rowThere loc a) →
      let t := (((q.run rows).perform n (s4.countIssue n q)).inline q.c 1)
      let w := q.right.data
      (q.k = .tld scale → ∀ j a, places[j]? = some a →
        ((t.sad n).tileRow (twTile w) scale (twFirst w + j)).1 = s4.bytesAt loc a 512) ∧
      (q.k = .tst scale → (scale = true → (s4.sad n).status.scl (twTile w) = true) →
        places.Pairwise (fun a b => a + 512 ≤ b ∨ b + 512 ≤ a) → ∀ j a, places[j]? = some a →
        t.bytesAt loc a 512 = ((s4.sad n).tileRow (twTile w) scale (twFirst w + j)).1))

/-- R133, R180, R188 to R192, R203, R204: TZF.RELEASE, TCHK, TSYNC and the control-word instructions, where they need not wait
at issue: the release gives up the context's tile state; TCHK retires where every checksum agrees and takes TILE_CHK, code
0x55, where one does not; TSYNC changes nothing; TEW.R reads a control word into a register; TEW.D writes one. -/
def Obligations.TileControlCompletes : Prop :=
  ∀ (sh l : Reg) (w : BitVec 6) (s s1 s2 s3 : State) (q : Issued) (n : Nat),
    (Begins (.tzfRelease 0 0 0) s s1 → s1.curCtx = some q.c → issueTile (.tzfRelease 0 0 0) s1 = .ok q s2 →
      s2.paced q.c = false → s2.tileIdle (some q.c) = true →
      Machine.exec (.tzfRelease 0 0 0) s = .next (After s ((s2.releaseTile q.c).pmcAdd 4 1) none)) ∧
    (Begins (.tchk sh 0 0) s s1 → Issues (.tchk sh 0 0) s1 q n s3 → s3.paced q.c = false → (s3.sad n).queue = [] →
      s3.tile.active.toNat = n →
      let p := (q.run []).perform n (s3.countIssue n q)
      (p.errs = [] → Machine.exec (.tchk sh 0 0) s = .next (After s (p.inline q.c 4) none)) ∧
      (∀ e es, p.errs = e :: es → Machine.exec (.tchk sh 0 0) s =
        .next (Aborted (.tchk sh 0 0) s (p.inline q.c 4) (.trap 0x55 0 .none e.info)))) ∧
    (Begins (.tsync 0 0 0) s s1 → Issues (.tsync 0 0 0) s1 q n s3 → s3.paced q.c = false → (s3.sad n).queue = [] →
      s3.admitted q.c = none → Machine.exec (.tsync 0 0 0) s = .next (After s (s3.countIssue n q) none)) ∧
    (Begins (.tewR sh 0 0 w) s s1 → Issues (.tewR sh 0 0 w) s1 q n s3 → s3.paced q.c = false → (s3.sad n).queue = [] →
      Machine.exec (.tewR sh 0 0 w) s = .next (After s
        ((s3.countIssue n q).setReg sh ⟨(s3.sad n).status.control w.toNat, .int⟩) none)) ∧
    (Begins (.tewD 0 l 0 w) s s1 → Issues (.tewD 0 l 0 w) s1 q n s3 → s3.paced q.c = false → (s3.sad n).queue = [] →
      Machine.exec (.tewD 0 l 0 w) s = .next (After s ((q.run []).perform n (s3.countIssue n q)).s none)) ∧
    (Begins (.tewD 0 l 0 w) s s1 → Issues (.tewD 0 l 0 w) s1 q n s3 → s3.paced q.c = false → (s3.sad n).queue ≠ [] →
      Machine.exec (.tewD 0 l 0 w) s =
        .next (Aborted (.tewD 0 l 0 w) s s3 (.trap 0x54 0 .none (insnWord (.tewD 0 l 0 w)))))

/-- R193 to R195, R207, R217, R219: TRUN.LOAD, TRUN.GO, TRUN.GO.AT and TRUN.STAT, where they need not wait at issue: the image
becomes the context's loaded one; it is admitted on its saddle once pins, ranges and power are granted, which with gate is an
arrival (R380); its state word is read. An image that is not loaded takes RUN_STATE, code 0x57. That TRUN.LOAD and TRUN.STAT
take a saddle, and that the governor paces the group, is the model's reading (log entries 75 and 70). -/
def Obligations.SealedRunInstructions : Prop :=
  ∀ (sh l r : Reg) (gate : Bool) (s s1 s2 s3 s4 : State) (q : Issued) (n : Nat) (m : Image) (pins : List HeldPin),
    (Begins (.trunLoad 0 l 0) s s1 → Issues (.trunLoad 0 l 0) s1 q n s3 → s3.paced q.c = false → (s3.sad n).queue = [] →
      loadImage q.c q.left s3 = .ok () s4 → Machine.exec (.trunLoad 0 l 0) s = .next (After s (s4.countIssue n q) none)) ∧
    (Begins (.trunGo 0 0 0 gate) s s1 → Admits (.trunGo 0 0 0 gate) s1 q n m pins s4 → Machine.exec (.trunGo 0 0 0 gate) s =
      .next (After s (let t := (s4.admitRun q.c n m pins gate none).countIssue n q
        if gate then t.arrive q.c else t) none)) ∧
    (Begins (.trunGoAt 0 0 r) s s1 → Admits (.trunGoAt 0 0 r) s1 q n m pins s4 → Machine.exec (.trunGoAt 0 0 r) s =
      .next (After s ((s4.admitRun q.c n m pins false (some q.right.data)).countIssue n q) none)) ∧
    (Begins (.trunGo 0 0 0 gate) s s1 → issueTile (.trunGo 0 0 0 gate) s1 = .ok q s2 →
      s2.runs.images.find? (fun p => p.1 = q.c) = none → Machine.exec (.trunGo 0 0 0 gate) s =
        .next (Aborted (.trunGo 0 0 0 gate) s s2 (.trap 0x57 0 .none (s2.runWord q.c)))) ∧
    (Begins (.trunStat sh 0 0) s s1 → Issues (.trunStat sh 0 0) s1 q n s3 → s3.paced q.c = false →
      Machine.exec (.trunStat sh 0 0) s = .next (After s ((s3.countIssue n q).setReg sh ⟨s3.runWord q.c, .int⟩) none))

/-- R200, R100, R114, R342, R360: the events of the tile unit: the oldest accepted instruction of the active saddle leaves the queue
and takes effect; the active saddle changes to one that has work and may take the engines, which empties the rein caches; a
range wait of the dispatched context that has lasted bwlimit ACLK ends with BUFWAIT, code 0x33. R175 to R177, R179, R141: OPA
and OPK add the products of their vectors, from operand tiles or buffer memory, to every cell of their region and change no
other cell; TZF makes the cells of its region zero and changes no other; in each of them every block whose checksums
agree with its cells still has them agree. -/
def Obligations.TileEvents : Prop :=
  ∀ (sad : BitVec 1) (hw : HwFault) (s : State) (o : TileOp) (rest : List TileOp) (c k field : Nat) (tag : Tag) (v : Word)
      (w : Wait), s.live = true →
    let i := sad.toNat
    let s0 := s.modSad i fun d => { d with queue := rest }
    (s.tile.active = sad → (s.sad i).queue = o :: rest → (s.sad i).owner = some c →
      Machine.exec (.tileInsnComplete sad hw) s = .next (((o.run hw).perform i s0).inline c 1)) ∧
    (let x := o.run .none
     let t := (x.perform i s0).inline c 1
     x.r0 + x.m ≤ 1024 → x.c0 + x.n ≤ 1024 →
     (∀ (r col : Nat), r < 1024 → col < 1024 →
       let old := (s.sad i).cell r col
       let new := (t.sad i).cell r col
       let sum := fun (vs : List (List Elem × List Elem)) =>
         { old.accumAll (shAnchor o.shape) vs (r - x.r0) (col - x.c0) with perr := 0 }
       (∀ n : Nat, x.k = .op false n → (∀ p ∈ x.cells, ((s.sad i).cell p.1 p.2).perr = 0) →
         (x.holds r col → new = sum (x.tileVecs (s0.sad i) n)) ∧ (¬x.holds r col → new = old)) ∧
       (∀ n : Nat, x.k = .op true n → (∀ p ∈ x.cells, ((s.sad i).cell p.1 p.2).perr = 0) →
         (x.holds r col → new = sum (x.bufVecs ⟨s0, [], []⟩ n).1) ∧ (¬x.holds r col → new = old)) ∧
       (x.k = .tzf → (x.holds r col → new = Cell.zero) ∧ (¬x.holds r col → new = old))) ∧
     (∀ b : Nat, b < 16 → (x.k = .tzf ∨ ∃ mem n, x.k = .op mem n) → (s.sad i).blockGood b = true →
       (t.sad i).blockGood b = true)) ∧
    (s.mayActivate i = true → Machine.exec (.saddleSwitch sad) s =
      .next { s with tile := { s.tile with active := sad, reinL := [], reinR := [] } }) ∧
    (s.curCtx = some c → s.curStall = some k → (s.ctx c).waitAt = some w → w.why = .range →
      s.bufwait c w = some (field, tag, v) → w.since / 2 + s.cur.bwlimit.bits 31 0 ≤ s.now / 2 →
      Machine.exec .bufwaitExpiry s = .next (s.abort w.insn k (some c) s.cur.pc (.trap 0x33 field tag v)))

/-! ## Sealed runs -/

/-- R219, R223, R235, R225, R243, R244, R453: the events of an image on its saddle: cycle 0, with the control words as the context's
earlier instructions left them; the start of the instruction at the cursor, which takes effect while the cursor goes on; a
replay; its end, with RESULT 1 where no run was replayed, 2 and the last replayed run where one was, and the RESULT of a
charged error; a timing limit, RESULT 5; an abandonment, with the RESULT that was asked for. What an end leaves: RESULT, RUNIX
and STATE, the ranges released, and the event RUN. R230, R231, R237: preemption and pause at a boundary: the image of lower
priority is switched out for a context of priority 0, whose saddle becomes active; it is switched back once the other saddle
has no work; a requested pause is taken. That PREEMPTS counts at the switch out, that an abandonment is also taken while the
image is preempted, and what a switch back asks of the other saddle, is the model's reading (log entry 84), and so is the limit
of a memory-timed image as an event of its own (log entry 81). -/
def Obligations.RunEvents : Prop :=
  (∀ (sad : BitVec 1) (hw : HwFault) (after : BitVec 32) (s : State) (r : Run) (n tau : Nat) (v : BitVec 8), s.live = true →
     let i := sad.toNat
     let ends := fun (e : Instr) (code : BitVec 8) (ix : Nat) => Machine.exec e s = .next ((s.setRun i none).finishRun r code ix)
     (s.run i = some r → s.tile.active = sad → s.runReady i = true → ∃ t : State, Machine.exec (.runStart sad) s = .next t ∧
       t.run i = some { r with phase := .running, goCount := s.gcount, snaps := r.snaps.set 0 (snapOf (s.sad i).status) } ∧
       (t.ctx r.ctx).runSt = .running) ∧
     (s.mayStart i = true → Machine.exec (.runInsnStart sad hw after) s = .next (s.startInsn i hw after.toNat)) ∧
     (s.mayStart i = true → s.run i = some r →
       let p := (r.operation .none).perform i s
       p.errs = [] → ∃ (t : State) (u : Run), Machine.exec (.runInsnStart sad .none after) s = .next t ∧ t.run i = some u ∧
         (u.cursor, u.todo) = r.image.advance r.cursor r.todo ∧ u.charged = r.charged ∧ u.phase = .running ∧
         t.tile = p.s.tile ∧ t.mem = p.s.mem ∧ t.buf = p.s.buf) ∧
     (RunsOn s sad r → r.halt = some (.charge n tau 0) → r.abandon = none →
       Machine.exec (.runReplay sad) s = .next (((s.modSad i fun d =>
         { d with status := (r.snap n d.status).restore d.status }).setRun i (some (r.replay n tau))).pmcAdd 6 1)) ∧
     (RunsOn s sad r → r.halt = none → r.todo = [] → r.abandon = none →
       (r.replayed = [] → ends (.runEnd sad) 1 (r.image.runs.length - 1)) ∧
       (r.replayed ≠ [] → ∃ ix ∈ r.replayed, (∀ k ∈ r.replayed, k ≤ ix) ∧ ends (.runEnd sad) 2 ix)) ∧
     (RunsOn s sad r → r.halt = some (.charge n tau v) → v ≠ 0 → ends (.runEnd sad) v n) ∧
     (RunsOn s sad r → r.halt = some (.limit n) → ends (.runTimingLimit sad) 5 n) ∧
     (RunsOn s sad r → r.halt = none → r.image.namesVaddr = true → ends (.runTimingLimit sad) 5 r.firstOpen) ∧
     (s.run i = some r → r.abandon = some v → r.halt = none → ends (.runAbandon sad) v r.firstOpen)) ∧
  (∀ (s : State) (r : Run) (v : BitVec 8) (ix : Nat),
     let t := s.finishRun r v ix
     (t.ctx r.ctx).runResult = v ∧ (t.ctx r.ctx).runix = BitVec.ofNat 4 ix ∧
     (t.ctx r.ctx).runSt = (if v = 1 ∨ v = 2 then .done else .failed) ∧
     t.buf = r.ranges.foldl (HeldRange.giveUp (resultOk v)) s.buf ∧
     ((s.ctx r.ctx).started = true → (t.ctx r.ctx).pend.getLsbD 2 = true)) ∧
  (∀ (sad : BitVec 1) (s : State) (r : Run), s.live = true →
     let i := sad.toNat
     (RunsOn s sad r → r.halt = none → r.abandon = none → r.pauseReq = false → r.todo ≠ [] → s.preemptDue i = true →
       ∃ t : State, Machine.exec (.preemptSwitchOut sad) s = .next t ∧ t.tile.active = ~~~sad ∧ t.tile.reinL = [] ∧
         t.tile.reinR = [] ∧ t.run i = some { r with phase := .preempted, preempts := r.preempts + 1 } ∧
         (t.ctx r.ctx).runSt = .preempted) ∧
     (s.run i = some r → r.phase = .preempted → r.holdBack = false → s.otherQuiet i = true →
       ∃ t : State, Machine.exec (.preemptSwitchBack sad) s = .next t ∧ t.tile.active = sad ∧
         t.run i = some { r with phase := .running } ∧ (t.ctx r.ctx).runSt = .running) ∧
     (RunsOn s sad r → r.pauseReq = true → r.halt = none → r.abandon = none → r.todo ≠ [] →
       ∃ t : State, Machine.exec (.runPauseTaken sad) s = .next t ∧ t.run i = some r.pause ∧ r.pause.phase = .paused ∧
         (t.ctx r.ctx).runSt = .preempted))

/-! ## The scheduler's events -/

/-- R265 to R267, R261, R301, R451: a decision that chooses another resident context names it as the next to be dispatched, and
one that chooses a context without a stall asks for one: the fill of the lowest free stall, or an overflow. The switch
dispatches the context, loads the in-use translation and stamps it. An error of the arrays that is met there is recorded where
it was corrected; one in a general register leaves the register POISON with its data for its next read; one in the control
registers of a context's stall, or in its entry, stops the context with FILL_FAULT. A slice that has expired beside a READY
context of the same priority triggers a decision; a timer that fires disarms itself and raises TIMER. R265: the chosen context
is the RUNNING one while no READY one has a lower PRIO and its slice has not expired, and else the least recent READY one of
the lowest PRIO; a LOCK context that is READY without a stall asks for one at every decision. R266, R267: a switch to another
context ends the dispatch of the outgoing one, which becomes READY and keeps its stall. -/
def Obligations.SchedulerEvents : Prop :=
  (∀ (s : State), let runs := fun (c : Nat) => s.curCtx = some c ∧ (s.ctx c).mode = .running
    let cand := fun (c : Nat) => c ∈ s.readyCtxs ∨ runs c
    (s.best = none → ∀ c, ¬ cand c) ∧
    ∀ b, s.best = some b → cand b ∧ (∀ c, cand c → (s.ctx b).prio.toNat ≤ (s.ctx c).prio.toNat) ∧
      (∀ n, runs n → (s.ctx n).prio = (s.ctx b).prio → s.core.sliceExpired = false → b = n) ∧
      (s.core.sliceExpired = true → (∃ c ∈ s.readyCtxs, (s.ctx c).prio = (s.ctx b).prio) → b ∈ s.readyCtxs) ∧
      (¬ runs b → ∀ c ∈ s.readyCtxs, (s.ctx c).prio = (s.ctx b).prio → (s.ctx b).stamp ≤ (s.ctx c).stamp)) ∧
  (∀ (s : State) (b n k j : Nat) (p : Nat × Ctx), s.live = true →
    (s.core.disp ≠ .reserve → s.best = some b → (s.ctx b).stall = some k →
      s.core.ctxs.find? (fun p => p.2.lock && p.2.stall.isNone && p.2.mode = .ready) = some p →
      (∀ f ∈ s.core.fills, f.1 ≠ p.1) → s.freeStall = some j → s.schedule.core.fills = s.core.fills ++ [(p.1, j)]) ∧
    (s.dispatching = true → s.core.disp = .ctx n → n ≠ b → (s.ctx n).mode = .running → s.core.switchTo = some b →
      (s.ctx b).stall = some k → (s.ctx b).mode = .ready → ∃ t : State, Machine.exec (.contextSwitch .none) s = .next t ∧
        t.core.disp = .ctx b ∧ (t.ctx b).mode = .running ∧ (t.ctx b).stamp = s.now ∧ (t.ctx b).inWait = false ∧
        (t.ctx n).mode = .ready ∧ (t.ctx n).stall = (s.ctx n).stall ∧ (t.ctx n).waitAt = none)) ∧
  ∀ (s : State) (b k n : Nat) (c : BitVec 10), s.live = true →
    (s.core.decideDue = true → s.dispatching = true → Machine.exec .schedDecide s = .next s.schedule) ∧
    (s.core.disp ≠ .reserve → s.curCtx ≠ some b → s.best = some b → (s.ctx b).stall = some k →
      s.core.ctxs.all (fun p => !p.2.lock) = true →
      s.schedule = { s with core := { s.core with decideDue := false, switchTo := some b } }) ∧
    (s.core.disp = .reserve → s.schedule = { s with core := { s.core with decideDue := false, switchTo := none } }) ∧
    (s.core.disp ≠ .reserve → s.best = some b → (s.ctx b).stall = none → s.core.ctxs.all (fun p => !p.2.lock) = true →
      (∀ f ∈ s.core.fills, f.1 ≠ b) →
      let u := { s.core with decideDue := false, switchTo := none }
      let asked := { s.core.reserve with requests := s.core.reserve.requests ++ [b] }
      (s.freeStall = some k → s.schedule = { s with core := { u with fills := s.core.fills ++ [(b, k)] } }) ∧
      (s.freeStall = none → b ∉ s.core.reserve.requests → s.schedule = { s with core := { u with reserve := asked } })) ∧
    (s.dispatching = true → s.core.disp = .idle → s.core.switchTo = some b → (s.ctx b).stall = some k →
      (s.ctx b).mode = .ready → (s.ctx b).inWait = false → ∃ t : State, Machine.exec (.contextSwitch .none) s = .next t ∧
        t.core.disp = .ctx b ∧ t.core.switchTo = none ∧ t.core.dispatchedAt = s.now ∧ t.core.sliceExpired = false ∧
        t.stall k = (s.stall k).loadInUse ∧ (s.stall k).loadInUse.useRoot = (s.stall k).ptbase.bits 51 13 ∧
        (let u := (s.stall k).loadInUse
         u.useAsid = BitVec.ofNat 16 ((s.stall k).asid.bits 15 0) ∧
         t.ctx b = { s.ctx b with mode := .running, stamp := s.now, useAsid := u.useAsid, useRoot := u.useRoot }) ∧
        ∀ m, m ≠ b → t.ctx m = s.ctx m) ∧
    (s.dispatching = true → s.core.switchTo = none →
      (∀ e : Ecc, Machine.exec (.contextSwitch (.corrected e)) s = .next (s.record (.ecc e 0x101 4 0 none))) ∧
      (∀ (j : BitVec 5) (r : Reg) (e : Ecc), r ≠ 0 → ∃ t : State, Machine.exec (.contextSwitch (.register j r e)) s = .next t ∧
        (t.stall j.toNat).reg r.toNat = ⟨((s.stall j.toNat).reg r.toNat).data, .poison⟩ ∧ t.ras = s.ras ∧
        ∀ i, i ≠ r.toNat → (t.stall j.toNat).reg i = (s.stall j.toNat).reg i) ∧
      (∀ (e : Ecc) (j : BitVec 5), j.toNat ≠ 31 → s.resident j.toNat = some b → (s.ctx b).started = true →
        Machine.exec (.contextSwitch (.control j e)) s = .next (s.arrayStop b e) ∧
        ((s.arrayStop b e).ctx b).mode = .stopped ∧ ((s.arrayStop b e).ctx b).stopCause = 0x83) ∧
      (∀ e : Ecc, (s.ctx c.toNat).started = true →
        Machine.exec (.contextSwitch (.entry c e)) s = .next (s.arrayStop c.toNat e) ∧
        ((s.arrayStop c.toNat e).ctx c.toNat).mode = .stopped)) ∧
    (s.core.disp = .ctx n → s.cfgAct 2 0 ≠ 0 → (s.cfgAct 2 0).toNat ≤ s.now - s.core.dispatchedAt →
      s.readyCtxs.any (fun c => (s.ctx c).prio = (s.ctx n).prio) = true →
      Machine.exec .sliceExpiry s = .next { s with core := { s.core with sliceExpired := true, decideDue := true } }) ∧
    (s.timerDue c.toNat = true → (s.ctx c.toNat).started = true → Machine.exec (.timerFire c) s =
      .next ((s.modCtx c.toNat fun e => { e with evmask := e.evmask.putBit 8 false }).raiseEvent c.toNat 1))

/-- R269, R277, R271, R275: an alert that is due enters the trap handler of the dispatched context with code 0x81 and cause
bit 63; the fill that began first loads the two halves of the context's record into its stall, and binds it where their headers
name the context, no error was met and the context has not become resident meanwhile, or stops it; an overflow enters the
reserve stall, code 0x80, with the request, the victim stall and the victim in g1 to g3, and in g4 how many other READY
contexts have no stall. The in-use copies after a fill rest on R301 and log entry 18 (the model's reading); that the oldest
request is taken is its choice (log entry 119), and with no victim g2 and g3 hold free values (log entry 118). -/
def Obligations.StallEvents : Prop :=
  ∀ (s : State) (n k c v : Nat) (cs : List Nat) (fs : List (Nat × Nat)), s.live = true →
    (s.core.disp = .ctx n → s.curStall = some k → s.cur.status.bit 2 = true → (s.ctx n).alert.bits 3 0 ≠ 0 →
      Machine.exec .alertDelivery s =
        .next (s.trapEntry n k 0x81 0 .none true (BitVec.ofNat 64 ((s.ctx n).alert.toNat % 2 ^ 32)) s.cur.pc)) ∧
    (s.core.fills = (c, k) :: fs → Machine.exec .stallFill s = .next (s.fillStall c k)) ∧
    (let lo := (s.readArea (s.ctx c).saveLo (some c)).1
     let s1 := (s.readArea (s.ctx c).saveLo (some c)).2
     let hi := (s1.readArea (s.ctx c).saveHi (some c)).1
     (fillOk lo hi c = true → (s.ctx c).stall = none → ((s.fillStall c k).ctx c).stall = some k ∧ (s.fillStall c k).core.decideDue = true ∧
        (s.fillStall c k).core.fills = s.core.fills.filter (fun f => f ≠ (c, k)) ∧
        (s.fillStall c k).stall k = s.bindInUse c (hi.loadUpper (lo.loadLower Stall.fresh))) ∧
     (fillOk lo hi c = false ∨ (s.ctx c).stall ≠ none → ((s.fillStall c k).ctx c).mode = .stopped ∧ ((s.fillStall c k).ctx c).stopCause = 0x83)) ∧
    (s.core.reserve.setUp = true → s.dispatching = true → s.core.disp = .idle → s.liveRequests = c :: cs →
      ∃ t : State, Machine.exec .stallOverflow s = .next t ∧ t.core.disp = .reserve ∧
        t.core.reserve.current = some c ∧ t.core.reserve.requests = cs ∧
        (t.stall 31).pc = (s.stall 31).tvec ∧ (t.stall 31).cause = 0x80 ∧
        (t.stall 31).reg 1 = ⟨BitVec.ofNat 64 c, .int⟩ ∧
        (s.victim = some (v, k) → (t.stall 31).reg 2 = ⟨BitVec.ofNat 64 k, .int⟩ ∧
          (t.stall 31).reg 3 = ⟨BitVec.ofNat 64 v, .int⟩) ∧
        (t.stall 31).reg 4 =
          ⟨BitVec.ofNat 64 (s.core.ctxs.filter fun p => p.2.mode = .ready && p.2.stall.isNone && p.1 ≠ c).length, .int⟩)

/-! ## Streams and buffer ranges -/

/-- R341, R344, R346: BDECL records a range in the lowest free entry and answers its number, where it clashes with no declared
range and an entry is free, and otherwise the codes 0x121 and 0x120; BREL releases the entry; BQRY reads its state. -/
def Obligations.RangeInstructions : Prop :=
  ∀ (d a b : Reg) (s s1 : State) (x y : Word) (c : Nat), s1.curCtx = some c →
    let n := y.bits 31 0
    let off := s1.cur.relocate x
    let ready := Begins (.bdecl d a b) s s1 ∧ s1.reg a = ⟨x, .baddr⟩ ∧ s1.reg b = ⟨y, .int⟩ ∧ y.bits 63 34 = 0 ∧ n ≠ 0 ∧
      (y.bit 32 && y.bit 33) = false ∧ x.bits 3 0 = 0 ∧ n % 16 = 0 ∧ s1.cur.baddrOk x n = true
    (ready → (s1.ctx c).rangeClash off n (y.bit 32) = true →
      Machine.exec (.bdecl d a b) s = .next (After s (s1.setReg d ⟨0x121, .int⟩) none)) ∧
    (ready → (s1.ctx c).rangeClash off n (y.bit 32) = false → (s1.ctx c).freeRange = none →
      Machine.exec (.bdecl d a b) s = .next (After s (s1.setReg d ⟨0x120, .int⟩) none)) ∧
    (∀ i, ready → (s1.ctx c).rangeClash off n (y.bit 32) = false → (s1.ctx c).freeRange = some i →
      Machine.exec (.bdecl d a b) s = .next (After s ((s1.declare c i off n x.toNat (y.bit 32) (y.bit 33)).setReg d
        ⟨BitVec.ofNat 64 i, .int⟩) none)) ∧
    (Begins (.brel 0 a 0) s s1 → s1.reg a = ⟨x, .int⟩ → x.toNat < 64 →
      (((s1.ctx c).range x.toNat).isSome && !s1.tileIdle (some c)) = false →
      Machine.exec (.brel 0 a 0) s = .next (After s (s1.releaseEntry c x.toNat) none)) ∧
    (Begins (.bqry d a 0) s s1 → s1.reg a = ⟨x, .int⟩ → x.toNat < 64 → Machine.exec (.bqry d a 0) s =
      .next (After s (s1.setReg d ⟨RangeEntry.word ((s1.ctx c).range x.toNat), .int⟩) none))

/-- R346 to R348, R354, R355: SARM arms a slot of a present engine that has one free and answers its handle, and otherwise the
codes 0x102 and 0x101; SREARM gives a live slot without a shadow its shadow, and otherwise answers 0x112 or 0x111; SSTAT reads
a slot's state, 0 for a handle that is not live; SCANCEL cancels a live slot, and otherwise answers 0x112. R347: the handle holds
the engine, the slot, the slot's next generation and the context, and 0 elsewhere. R355, R356: a cancelled slot keeps its active
descriptor, marked to end at its next row boundary, and loses its shadow, whose record is written with STREAM_CANCELLED. -/
def Obligations.StreamInstructions : Prop :=
  (∀ (s : State) (c eng slot : Nat) (ds : StreamD), c < 1024 → eng < 16 → slot < 6 →
    let (h, t) := s.armSlot c eng slot ds
    let k := eng * 8 + slot
    h.bits 3 0 = eng ∧ h.bits 6 4 = slot ∧ h.bits 7 7 = 0 ∧ h.bits 15 8 = ((s.stream k).gen + 1).toNat ∧ h.bits 25 16 = c ∧
    h.bits 63 26 = 0 ∧
    (∃ g, t.stream k = { gen := (s.stream k).gen + 1, ctx := c, act := some { ds with granted := g }, shadow := none }) ∧
    ∀ j, j ≠ k → t.stream j = s.stream j) ∧
  (∀ (s : State) (k : Nat), let t := s.cancelSlot k
    let old := s.stream k
    t.stream k = { old with shadow := none, act := old.act.map fun d => { d with cancel := true } } ∧
    (∀ j, j ≠ k → t.stream j = s.stream j) ∧
    (∀ d pa, old.shadow = some d → d.statPa = some pa → pa % 16 = 0 → s.mem.lost (pa / 128) = false →
      t.mem.store = s.mem.store.write pa (leBytes 1 4 ++ [0] ++ leBytes 2 (min d.pchunks 65535) ++ leBytes 4 d.rowsDone ++
        leBytes 8 d.user.toNat) false)) ∧
  ∀ (d a b : Reg) (s s1 s2 : State) (x y h : Word) (ds : StreamD) (c slot : Nat),
    (Begins (.sarm d a b) s s1 → s1.reg a = ⟨x, .vaddr⟩ → s1.reg b = ⟨y, .int⟩ → y.toNat < 16 →
      readDescriptor x s1 = .ok ds s2 →
      (s2.enginePresent y.toNat = false →
        Machine.exec (.sarm d a b) s = .next (After s (s2.setReg d ⟨0x102, .int⟩) none)) ∧
      (s2.enginePresent y.toNat = true → s2.curCtx = some c → s2.freeSlot y.toNat = none →
        Machine.exec (.sarm d a b) s = .next (After s (s2.setReg d ⟨0x101, .int⟩) none)) ∧
      (s2.enginePresent y.toNat = true → s2.curCtx = some c → s2.freeSlot y.toNat = some slot →
        Machine.exec (.sarm d a b) s = .next (After s
          ((s2.armSlot c y.toNat slot ds).2.setReg d ⟨(s2.armSlot c y.toNat slot ds).1, .sdesc⟩) none))) ∧
    (Begins (.srearm d a b) s s1 → s1.reg a = ⟨x, .vaddr⟩ → s1.reg b = ⟨h, .sdesc⟩ → s1.handleOk h = true →
      readDescriptor x s1 = .ok ds s2 →
      let t := s2.stream (handleKey h)
      (s2.handleLive h = false → Machine.exec (.srearm d a b) s = .next (After s (s2.setReg d ⟨0x112, .int⟩) none)) ∧
      (s2.handleLive h = true → t.shadow.isSome = true →
        Machine.exec (.srearm d a b) s = .next (After s (s2.setReg d ⟨0x111, .int⟩) none)) ∧
      (s2.handleLive h = true → t.shadow = none → Machine.exec (.srearm d a b) s =
        .next (After s ((s2.setStream (handleKey h) { t with shadow := some ds }).setReg d ⟨0, .int⟩) none))) ∧
    (Begins (.sstat d 0 b) s s1 → s1.reg b = ⟨h, .sdesc⟩ → s1.handleOk h = true → Machine.exec (.sstat d 0 b) s =
      .next (After s (s1.setReg d ⟨if s1.handleLive h then (s1.stream (handleKey h)).statWord else 0, .int⟩) none)) ∧
    (Begins (.scancel d 0 b) s s1 → s1.reg b = ⟨h, .sdesc⟩ → s1.handleOk h = true → Machine.exec (.scancel d 0 b) s =
      .next (After s (if s1.handleLive h then (s1.cancelSlot (handleKey h)).setReg d ⟨0, .int⟩
        else s1.setReg d ⟨0x112, .int⟩) none))

/-- R349, R351, R352, R354 to R358, R340: the events of the stream engines and of the range-check port. A row whose memory
answers and whose bytes can be acquired is moved: a fill copies the memory row to the buffer row, the other kinds the buffer row
to the memory row, unless that lies in window space, and no other byte changes; the count of rows goes up by one; the last row
gives up what the descriptor holds; a row in flow mode restarts the watchdog. A completion ends the descriptor: its record is
written at STATVA, and the shadow becomes active, unless it ends with the same stall or cancel. A context whose watchdog has
counted to its limit loses the descriptors of its slots. A pending acquire whose condition holds is granted to the entry, window
or admission that asked. That a row written to window space leaves memory as it is, and which ROWS and PCHUNKS a record
holds, is the model's reading (log entries 43 and 47). -/
def Obligations.StreamEvents : Prop :=
  ∀ (s : State) (eng : BitVec 4) (slot : BitVec 3) (status : BitVec 8) (rows : BitVec 25) (pch : BitVec 16) (c : BitVec 10)
      (tag : BitVec 16) (d : StreamD) (b : Buffer) (q : Acq), s.live = true →
    let k := eng.toNat * 8 + slot.toNat
    let d1 := (d.acquire s.buf).1
    let b1 := (d.acquire s.buf).2
    ((s.stream k).act = some d → d.rowsDone < d.rows → s.rowLost d d.rowsDone = false → d1.granted = true →
      ∃ (t : State) (e : StreamD), Machine.exec (.streamRowDone eng slot) s = .next t ∧
        t = State.streamRow { s with buf := b1 } k (s.stream k) d1 ∧
        (t.stream k).act = some e ∧ e.rowsDone = d.rowsDone + 1 ∧ e.rows = d.rows ∧ (t.stream k).shadow = (s.stream k).shadow ∧
        (∀ pa, s.rowPa d d.rowsDone = some pa →
          (d.fills = true → t.mem = s.mem ∧
            (∀ i, i < d.rowLen → t.buf.store.byte (d.rowOff d.rowsDone + i) = s.mem.store.byte (pa + i)) ∧
            (∀ x, x < d.rowOff d.rowsDone ∨ d.rowOff d.rowsDone + d.rowLen ≤ x →
              t.buf.store.byte x = s.buf.store.byte x)) ∧
          (d.fills = false → (∀ x, t.buf.store.byte x = s.buf.store.byte x) ∧
            (windowSpace (pa / 128) = true → t.mem = s.mem) ∧
            (windowSpace (pa / 128) = false →
              (∀ i, i < d.rowLen → t.mem.store.byte (pa + i) = s.buf.store.byte (d.rowOff d.rowsDone + i)) ∧
              (∀ x, x < pa ∨ pa + d.rowLen ≤ x → t.mem.store.byte x = s.mem.store.byte x)))) ∧
        (d.flow = false → d.rowsDone + 1 = d.rows → t.buf.sb = (d1.release false b1).sb ∧ e.granted = false) ∧
        (d.flow = false → d.cancel = false → d.rowsDone + 1 < d.rows → t.buf.sb = b1.sb ∧ e.granted = true) ∧
        (d.flow = true → (t.ctx (s.stream k).ctx).flowCount = 0)) ∧
    ((s.stream k).act = some d → status.toNat % 64 ≤ 5 →
      ∃ t : State, Machine.exec (.streamDone eng slot status rows pch) s = .next t ∧
        t = (s.endStream k d (status.toNat % 64) rows.toNat pch.toNat).streamRecords (s.stream k).ctx eng.toNat d status
          pch.toNat ∧
        (t.stream k).shadow = none ∧
        ((s.stream k).shadow = none ∨ status.toNat % 64 = 3 ∨ status.toNat % 64 = 4 → (t.stream k).act = none) ∧
        (∀ d2, (s.stream k).shadow = some d2 → status.toNat % 64 ≠ 3 → status.toNat % 64 ≠ 4 →
          ∃ g, (t.stream k).act = some { d2 with granted := g }) ∧
        (∀ pa, (s.stream k).shadow = none → d.statPa = some pa → pa % 16 = 0 → s.mem.noTarget.get false (pa / 128) = false →
          windowSpace (pa / 128) = false →
          t.mem.store.read pa 16 = streamRecord (status.toNat % 64) (min pch.toNat 65535) rows.toNat d.user)) ∧
    (s.streamStalled c.toNat = true → ∃ t : State, Machine.exec (.streamWatchdog c) s = .next t ∧
      t = (s.streams.filter fun p => p.2.ctx = c.toNat).foldl (fun s p => s.stallSlot p.1) s ∧
      ∀ j, (s.stream j).ctx = c.toNat → (t.stream j).act = none ∧ (t.stream j).shadow = none) ∧
    ((s.buf.pend.find? fun a => a.tag = tag.toNat) = some q →
      (s.buf.cancel q.tag).tryAcquire q.lo q.hi q.write = (true, b) →
      ∃ t : State, Machine.exec (.rcResponse tag) s = .next t ∧ t = State.granted { s with buf := b } q.tag q.owner ∧
        t.buf = b ∧ (∀ a ∈ t.buf.pend, a.tag ≠ tag.toNat) ∧
        (∀ m i r, q.owner = .entry m i → (s.ctx m).range i = some r → (t.ctx m).range i = some { r with granted := true }) ∧
        (∀ w, q.owner = .window w → t.window w = { s.window w with granted := true }) ∧
        (∀ m i, q.owner = .admission m i → ∀ h ∈ (t.ctx m).askedRanges, h.tag = tag.toNat → h.granted = true))

/-! ## Queues, windows, the gate -/

/-- R365, R371: a doorbell of an enabled queue whose tail lies ahead of TAIL within the ring becomes TAIL and raises DOORBELL
for the bound context; one whose tail is the present one changes nothing; any other sets BADTAIL, and one of a disabled queue
DENIED. The queue port and a 64-bit register write have the same effect. R362: DOORBELL, QDONE, QTAKE and QTAKEANY take 64-bit
accesses only: a shorter one of the core takes DEVICE_ACCESS, one of the register port is answered with an error, every one of the
instruments too (R513), and every one of the Groom, whose accesses are shorter, takes ACCESS (log entry 56, the model's
reading). That a register doorbell takes its tail from bits [31:0], whatever the others hold, is its reading too (log entry
51). -/
def Obligations.DoorbellMovesTail : Prop :=
  ∀ (s : State) (who : Requester) (q : BitVec 12) (t : BitVec 32), s.live = true →
    let u := s.queue q.toNat
    let goes := fun (r : State) =>
      Machine.exec (.queuePortDoorbell q t) s = .next r ∧
      (Accesses s who → fromGroom who = false → ∀ x : Word, x.truncate 32 = t →
        Machine.exec (.doorbell who q .both x) s = .next (Written who r))
    (s.qEn q.toNat = false → goes (s.setQueue q.toNat { u with denied := true })) ∧
    (s.qEn q.toNat = true → t = u.tail → goes s) ∧
    (s.qEn q.toNat = true → t ≠ u.tail → (u.tail - u.done).toNat < (t - u.done).toNat →
      (t - u.done).toNat ≤ 2 ^ s.qLog2 q.toNat →
      goes ((s.setQueue q.toNat { u with tail := t }).raiseEvent (s.qCtx q.toNat) 0)) ∧
    (s.qEn q.toNat = true → t ≠ u.tail →
      ((t - u.done).toNat ≤ (u.tail - u.done).toNat ∨ 2 ^ s.qLog2 q.toNat < (t - u.done).toNat) →
      goes (s.setQueue q.toNat { u with badTail := true })) ∧
    (∀ (ln : Lanes) (x : Word) (v : TVal) (i : Instr),
      let forms := fun (w : Requester) => i ∈ [Instr.doorbell w q ln x, .qdone w q ln v, .qtake w q ln, .qtakeany w ln]
      (forms .core → ln ≠ .both → s.curStall.isSome = true → Machine.exec i s = .next s.deviceTrap) ∧
      (∀ cls, forms (.regp cls) → ln ≠ .both ∨ cls = 3 → Machine.exec i s = .next (s.answer (.regp cls) 0 false)) ∧
      (∀ th, forms (.groom th) → s.gCanIssue th.toNat = true → (s.gthread th.toNat).ext = false →
        ∃ a, Machine.exec i s = .next (s.groomFault th.toNat 3 (some a))) ∧
      (forms .ijtag → Machine.exec i s = .next (s.ijRespond 0 true))) ∧
    (∀ k n, s.curStall = some k → s.curCtx = some n → s.deviceTrap =
      State.trapEntry { s with free := s.free + 1 } n k 6 0 .none false (Config.freeWord s.free) s.cur.pc)

/-- R366, R367: a take by the dispatched context that is bound to an enabled queue with a waiting entry answers the entry's
number with VALID, counts it as taken and makes the context its holder; a take of an empty queue answers EMPTY, of a disabled
one DISABLED, and of a queue that is bound elsewhere, or by the register port, NOT_BOUND, and changes no queue; QTAKEANY of a
context with no takeable queue answers EMPTY; otherwise it takes from one of lowest PRIO, and among those from the first queue
number after the one it last took from so, in ascending order with wrap-around, which is 4,095 for a context that has just been
started. The reserve stall is no context, and takes nothing. -/
def Obligations.TakeMovesEntry : Prop :=
  (∀ (s : State) (c : Nat) (q : BitVec 12), s.live = true → s.core.disp = .ctx c → s.curStall.isSome = true →
    let u := s.queue q.toNat
    (s.qCtx q.toNat = c → s.qEn q.toNat = true → u.tail ≠ u.taken → Machine.exec (.qtake .core q .both) s =
      .next ((s.setQueue q.toNat { u with taken := u.taken + 1, holders := u.holders ++ [c] }).respond
        (takeWord u.taken.toNat true 0 0) false)) ∧
    (s.qCtx q.toNat = c → s.qEn q.toNat = true → u.tail = u.taken →
      Machine.exec (.qtake .core q .both) s = .next (s.respond (takeWord 0 false 1 0) false)) ∧
    (s.qCtx q.toNat = c → s.qEn q.toNat = false →
      Machine.exec (.qtake .core q .both) s = .next (s.respond (takeWord 0 false 3 0) false)) ∧
    (s.qCtx q.toNat ≠ c → Machine.exec (.qtake .core q .both) s = .next (s.respond (takeWord 0 false 2 0) false)) ∧
    Machine.exec (.qtakeany .core .both) s = .next ((s.qtakeAny c).2.respond (s.qtakeAny c).1 false) ∧
    (s.queues.all (fun e => !s.takeable c e.1) = true → s.qtakeAny c = (takeWord 0 false 1 0, s)) ∧
    (∀ e ∈ s.queues, s.takeable c e.1 = true → ∃ j : Nat, (∃ v, (j, v) ∈ s.queues) ∧ s.takeable c j = true ∧
      (∀ f ∈ s.queues, s.takeable c f.1 = true → s.qPrio j ≤ s.qPrio f.1) ∧
      (∀ f ∈ s.queues, s.takeable c f.1 = true → s.qPrio f.1 = s.qPrio j →
        let last := (s.ctx c).lastTake
        (last < j → last < f.1 → j ≤ f.1) ∧ (j ≤ last → f.1 ≤ last ∧ j ≤ f.1)) ∧
      (s.qtakeAny c).1 = takeWord (s.queue j).taken.toNat true 0 j ∧
      ((s.qtakeAny c).2.ctx c).lastTake = j ∧
      (s.qtakeAny c).2.queue j =
        { s.queue j with taken := (s.queue j).taken + 1, holders := (s.queue j).holders ++ [c] })) ∧
  (∀ (d : CtxDesc) (lo hi : Nat), (d.entry lo hi).lastTake = 4095) ∧
  (∀ (s : State) (q : BitVec 12), s.live = true → s.core.disp = .reserve →
    Machine.exec (.qtake .core q .both) s = .next (s.respond (takeWord 0 false 2 0) false) ∧
    Machine.exec (.qtakeany .core .both) s = .next (s.respond (takeWord 0 false 2 0) false)) ∧
  (∀ (s : State) (q : BitVec 12) (cls : BitVec 2), s.live = true → cls ≠ 3 →
    Machine.exec (.qtake (.regp cls) q .both) s = .next (s.respond (takeWord 0 false 2 0) false) ∧
    Machine.exec (.qtakeany (.regp cls) .both) s = .next (s.respond (takeWord 0 false 2 0) false))

/-- R368, R369, R371, R468: a QDONE by the holder of the oldest entry in flight, with that entry's number and a status up to
0x7FFF, writes its completion record in the entry's slot, announces it and counts it as done; a poisoned one writes status
0x8001, and so does one of a context whose SPOISON is set. One of the wrong number, or of a status above 0x7FFF, by the holder
changes nothing but SEQERR; one by a requester that is no context sets DENIED. -/
def Obligations.QdoneWritesCompletion : Prop :=
  (∀ (s : State) (c : Nat) (q : BitVec 12) (v : TVal) (hs : List Nat), s.live = true → s.core.disp = .ctx c →
    s.curStall.isSome = true → (s.queue q.toNat).holders = c :: hs →
    let u := s.queue q.toNat
    let status := v.data.bits 31 16
    let value := v.data.bits 63 32
    (v.data.bits 15 0 = u.done.toNat % 65536 → status ≤ 0x7FFF → v.tag ≠ .poison → s.spoison c = false →
      Machine.exec (.qdone .core q .both v) s = .next ((s.writeCompletion q.toNat status value (some c)).pump q.toNat)) ∧
    (v.data.bits 15 0 = u.done.toNat % 65536 → status ≤ 0x7FFF → v.tag ≠ .poison → s.spoison c = true →
      Machine.exec (.qdone .core q .both v) s = .next ((s.writeCompletion q.toNat 0x8001 status (some c)).pump q.toNat)) ∧
    (v.data.bits 15 0 = u.done.toNat % 65536 → status ≤ 0x7FFF → v.tag = .poison →
      Machine.exec (.qdone .core q .both v) s = .next ((s.writeCompletion q.toNat 0x8001 0 (some c)).pump q.toNat)) ∧
    (v.data.bits 15 0 ≠ u.done.toNat % 65536 ∨ 0x7FFF < status → Machine.exec (.qdone .core q .both v) s =
      .next (s.setQueue q.toNat { u with seqErr := true }))) ∧
  (∀ (s : State) (q : BitVec 12) (cls : BitVec 2) (v : TVal), s.live = true → cls ≠ 3 →
    Machine.exec (.qdone (.regp cls) q .both v) s =
      .next ((s.setQueue q.toNat { s.queue q.toNat with denied := true }).respond 0 false)) ∧
  (∀ (s : State) (q status value : Nat) (c : Option Nat),
    let u := s.queue q
    let t := s.writeCompletion q status value c
    let (tag, bad, _) := s.unitRead (s.qEntryPa q u.done) 8 c
    t.queue q = { u with done := u.done + 1, holders := u.holders.drop 1 } ∧
    t.ports.qc = s.ports.qc ++ [(q, u.done, BitVec.ofNat 16 status)] ∧
    (s.mem.noTarget.get false (s.qRecordPa q u.done / 128) = false → windowSpace (s.qRecordPa q u.done / 128) = false →
      t.mem.store.read (s.qRecordPa q u.done) 32 = queueRecord u.done status bad (leNat tag) value))

/-- R373, R374, R376: the owner's OPEN of a closed, enabled window with a BADDR target inside its bounds starts a new generation
and asks for its range, and the grant opens it; with a VADDR target that translates to a memory page it opens at once; LAST
tells why an OPEN is refused: 5 not enabled, 2 not closed, 3 and 4 a bad target. Its CLOSE makes it CLOSING, and the second
phase releases its target, CLOSED, with the record of a short one. A command by another context sets LAST to NOT_OWNER, and
one by the register port changes nothing. R375, R378: a remote write is answered with 0, 1 window closed, 2 other generation or 3
beyond its end; an accepted one changes the enabled bytes alone; a refused one sets REJECTED alone. -/
def Obligations.WindowCommands : Prop :=
  (∀ (s : State) (w : BitVec 10), s.live = true →
     let v := s.window w.toNat
     let fresh := { v with gen := v.gen + 1, count := 0, spoil := false }
     let owns : Prop := s.curStall.isSome = true ∧ s.curCtx = some (s.wOwner w.toNat)
     let closed : Prop := s.wEn w.toNat = true ∧ v.st = .closed
     (owns → closed → v.wtgt.bit 0 = false → s.cur.baddrOk v.addr v.bytes = true →
       let off := s.cur.relocate v.addr
       let (g, tag, b) := s.buf.acquire off (off + v.bytes) true (.window w.toNat)
       ∃ t : State, Machine.exec (.windowOpen .core w) s = .next t ∧ t.buf = b ∧
         t.window w.toNat =
           { fresh with st := .opening, last := 0, target := some (.buf, off), tag := tag, granted := g }) ∧
     (owns → closed → v.wtgt.bit 0 = true → ∀ pa s2,
       (s.setWindow w.toNat fresh).windowXlate v.addr v.bytes = (some pa, s2) →
       Machine.exec (.windowOpen .core w) s = .next ((s2.setWindow w.toNat
         { fresh with st := .opened, last := 0, target := some (.mem, pa), granted := true, evOpened := true }).windowEvent
           w.toNat)) ∧
     (owns → s.wEn w.toNat = false → Machine.exec (.windowOpen .core w) s = .next (s.windowLast w.toNat 5)) ∧
     (owns → s.wEn w.toNat = true → v.st ≠ .closed →
       Machine.exec (.windowOpen .core w) s = .next (s.windowLast w.toNat 2)) ∧
     (owns → closed → v.wtgt.bit 0 = false → s.cur.baddrOk v.addr v.bytes = false →
       Machine.exec (.windowOpen .core w) s = .next ((s.setWindow w.toNat fresh).windowLast w.toNat 3)) ∧
     (owns → closed → v.wtgt.bit 0 = true → ∀ s2,
       (s.setWindow w.toNat fresh).windowXlate v.addr v.bytes = (none, s2) →
       Machine.exec (.windowOpen .core w) s = .next (s2.windowLast w.toNat 4)) ∧
     (v.st = .opening → v.granted = true → Machine.exec (.windowOpened w) s =
       .next ((s.modWindow w.toNat fun v => { v with st := .opened, evOpened := true }).windowEvent w.toNat)) ∧
     (owns → (v.st = .opening ∨ v.st = .opened) → ∃ t : State, Machine.exec (.windowClose .core w) s = .next t ∧
       t = (s.setWindow w.toNat { v with st := .closing, spoil := false }).windowLast w.toNat 0) ∧
     (owns → v.st ≠ .opening → v.st ≠ .opened → Machine.exec (.windowClose .core w) s = .next (s.windowLast w.toNat 2)) ∧
     (v.st = .closing → ∃ t : State, Machine.exec (.windowCloseComplete w) s = .next t ∧
       t.window w.toNat = { v with st := .closed, evClosed := true, target := none, granted := false } ∧
       (∀ off, v.target = some (.buf, off) →
         t.buf = s.buf.drop off (off + v.bytes) true v.granted false v.spoil v.tag) ∧
       (v.expect = 0 ∨ v.expect ≤ v.count → t.ras = s.ras) ∧
       (v.expect ≠ 0 → v.count < v.expect → s.ras.fifo.length < 16 → ∃ r : ErrRec, t.ras.fifo = s.ras.fifo ++ [r] ∧
         r.code = 0x10A ∧ r.ctx = BitVec.ofNat 16 (s.wOwner w.toNat) ∧ r.unit = w.zeroExtend 16)) ∧
     (s.curStall.isSome = true → s.curCtx ≠ some (s.wOwner w.toNat) →
       Machine.exec (.windowOpen .core w) s = .next (s.windowLast w.toNat 1) ∧
       Machine.exec (.windowClose .core w) s = .next (s.windowLast w.toNat 1)) ∧
     (∀ cls, cls ≠ 3 → Machine.exec (.windowOpen (.regp cls) w) s = .next (s.respond 0 false) ∧
       Machine.exec (.windowClose (.regp cls) w) s = .next (s.respond 0 false))) ∧
  (∀ (s : State) (w : BitVec 11) (gen : BitVec 8) (off : BitVec 20) (data : List (Byte × Bool)) (pz : List Bool)
       (tag : BitVec 16), s.boot.por = false →
     let v := s.window w.toNat
     let code := s.windowCheck w.toNat gen off.toNat data
     let there : Prop := w.toNat < 1024 ∧ s.wEn w.toNat = true ∧ v.st = .opened ∧ s.power.pfDone = false
     let inside : Prop := ∀ i, i < data.length → (data.getD i (0, false)).2 = true → 16 * off.toNat + i < v.bytes
     ∃ t : State, Machine.exec (.windowWrite w gen off data pz tag) s = .next t ∧
       t.ports.wi = some (tag, BitVec.ofNat 2 code) ∧
       (¬ there → code = 1) ∧ (there → gen ≠ v.gen → code = 2) ∧ (there → gen = v.gen → ¬ inside → code = 3) ∧
       (there → gen = v.gen → inside → code = 0) ∧
       (code = 0 → t = { s.acceptWrite w.toNat off.toNat data pz with ports := t.ports } ∧
         (t.window w.toNat).count = v.count + enabledChunks data) ∧
       (∀ a, code = 0 → v.target = some (.buf, a) → a % 16 = 0 →
         a + 16 * off.toNat + 16 * ((data.length + 15) / 16) ≤ s.buf.size →
         let lo := a + 16 * off.toNat
         (∀ i b en, i < data.length → data.getD i (0, false) = (b, en) →
           t.buf.store.byte (lo + i) = if en then b else s.buf.store.byte (lo + i)) ∧
         (∀ x, x < lo ∨ lo + data.length ≤ x → t.buf.store.byte x = s.buf.store.byte x)) ∧
       (code ≠ 0 → t.mem = s.mem ∧ t.buf = s.buf) ∧
       (code ≠ 0 → w.toNat < 1024 → t.window w.toNat = { v with evRejected := true }))

/-- R379 to R385: the starting gate: an arrival is counted for its context, and one that completes the epoch raises GATE_OUT;
LOAD and UNLOAD arm and disarm the counter load; a rise of GATE_IN is sampled, or ends a measurement of the calibration, whose
largest count is stored after the sixteenth; a fall is sampled; the release begins a new epoch with no arrival and, armed, loads
the counter at the next TCLK edge; an arrival in the ACLK of a release counts in the new epoch; GATE_OUT drops in the PCLK after
the release; a time-out is reported. That a rise of GATE_IN counts only for a raised GATE_OUT and that arrivals are counted
without bound is the model's reading (log entries 87 and 42); TCLK edges at multiples of 16 CCLK, and the drop of GATE_OUT
on an idle tick, are its choice (log entry 2). -/
def Obligations.GateCommands : Prop :=
  ∀ (s : State) (c : Nat), s.live = true →
    let g := s.gate
    (s.core.disp = .ctx c → s.curStall.isSome = true → Machine.exec (.gateArrive .core) s = .next (s.arrive c) ∧
      (s.releaseDue = false → (s.arrive c).gate.arrived = g.arrived + 1 ∧ c ∈ (s.arrive c).gate.arrivedCtxs ∧
        (s.gParts ≠ 0 → s.gParts ≤ g.arrived + 1 → g.lowSeen = true → s.power.pfEnded = false →
          (s.arrive c).gate.out = true)) ∧
      (s.releaseDue = true → (s.arrive c).gate.arrived = 1 ∧ (s.arrive c).gate.epoch = g.epoch + 1)) ∧
    (∀ cls, cls ≠ 3 → Machine.exec (.gateArrive (.regp cls)) s = .next (s.respond 0 false)) ∧
    (∀ who, Accesses s who →
      Machine.exec (.gateLoad who) s = .next (Written who { s with gate := { g with loadArm := true } }) ∧
      Machine.exec (.gateUnload who) s =
        .next (Written who { s with gate := { g with loadArm := false, loadDue := false } })) ∧
    (g.gateIn = false → g.cal = none → Machine.exec .gateInRise s =
      .next { s with gate := { g with gateIn := true, riseAt := if g.out && g.dropAt.isNone then some s.now else none } }) ∧
    (∀ k : GateCal, g.gateIn = false → g.cal = some k → k.high = true → k.left ≠ 0 →
      let n := max k.best (aclkOf s.now - aclkOf g.outAt)
      ∃ t : State, Machine.exec .gateInRise s = .next t ∧ t.gate.out = false ∧
        t.gate.cal = some { left := k.left - 1, best := n, high := false } ∧
        t.gate.rtt = if k.left = 1 then BitVec.ofNat 12 n else g.rtt) ∧
    (g.gateIn = true → Machine.exec .gateInFall s =
      .next (State.driveGate { s with gate := { g with gateIn := false, lowSeen := true } }).calRaise) ∧
    (s.releaseDue = true → ∃ t : State, Machine.exec .gateRelease s = .next t ∧ t.gate.epoch = g.epoch + 1 ∧
      t.gate.arrived = 0 ∧ t.gate.arrivedCtxs = [] ∧ t.gate.out = true ∧ t.gate.dropAt = some (aclkOf s.now) ∧
      (g.loadArm = true → aclkOf s.now % 8 = 0 → t.gcount = g.gcountLd ∧ t.gate.loadArm = false) ∧
      (g.loadArm = true → aclkOf s.now % 8 ≠ 0 → t.gcount = s.gcount ∧ t.gate.loadDue = true)) ∧
    (∀ p, g.dropAt = some p → p < aclkOf s.now → g.arrived < s.gParts → s.dropGate.gate.out = false) ∧
    (s.gateTimeoutDue = true → ∃ t : State, Machine.exec .gateTimeout s = .next t ∧ t.gate.timeout = true ∧
      t.gate.timedOut = true ∧ t.gate.epoch = g.epoch)

/-! ## Ports, snoops, caches -/

/-- R319, R320, R335, R336, R338, R509: a port that answers one line of a read with GOOD gives memory the bytes it delivers,
unless a cache holds the line; NOTARGET marks the line; an answer of another tag than the request's changes nothing. A snoop
answers with its tag whether the line is dirty, with a dirty line's bytes; an invalidate removes the line from every cache, a
read leaves it clean. A good beat of a buffer read changes buffer memory as it delivers; a failed beat, or AERR, outside a run
poisons the chunks that it covers; a good acknowledge changes nothing. R322 to R325: an enabled way of a cache below its limit is
disabled, for an uncorrectable error in it, and for a corrected one where two others lie within 86,400 s. -/
def Obligations.PortsAndCaches : Prop :=
  (∀ (s : State) (tag mt : BitVec 8) (block : BitVec 44) (line : BitVec 45) (port : BitVec 3) (p2 : BitVec 2) (chunk : BitVec 28)
       (len : BitVec 5) (data : List Byte) (pm : BitVec 16) (rp : BitVec 32) (resp : PortResp) (write : Bool)
       (lmask : BitVec 2), s.live = true →
     Machine.exec (.memPortResponse 0 write block lmask resp data pm) s =
       .next (s.memAnswered write block.toNat lmask resp data pm) ∧
     (mt ≠ 0 → Machine.exec (.memPortResponse mt write block lmask resp data pm) s = .next s) ∧
     (s.caches.hasLine (block.toNat * 2) = false → data.length = 256 →
       ∃ t : State, Machine.exec (.memPortResponse 0 false block 1 .good data pm) s = .next t ∧
         t.mem.lost (block.toNat * 2) = windowSpace (block.toNat * 2) ∧
         (∀ i, i < 128 → t.mem.store.byte (block.toNat * 256 + i) = data.getD i 0) ∧
         (∀ a, (a < block.toNat * 256 ∨ block.toNat * 256 + 128 ≤ a) → t.mem.store.byte a = s.mem.store.byte a)) ∧
     (∃ t : State, Machine.exec (.memPortResponse 0 write block 1 .notarget data pm) s = .next t ∧
       t.mem.lost (block.toNat * 2) = true ∧ t.mem.store = s.mem.store ∧ t.caches = s.caches.removeLine (block.toNat * 2)) ∧
     (let answer : SnoopRsp := if s.caches.dirtyLine line.toNat then
        { tag := tag, dirty := true, data := (s.mem.store.line line.toNat).1, poison := (s.mem.store.line line.toNat).2 }
        else { tag := tag, dirty := false, data := [], poison := [] }
      let ports := { s.ports with snoop := some answer }
      Machine.exec (.snoopInvalidate line tag) s = .next { s with ports := ports, caches := s.caches.removeLine line.toNat } ∧
      Machine.exec (.snoopRead line tag) s = .next { s with ports := ports, caches := s.caches.cleanLine line.toNat }) ∧
     (data.length % 16 = 0 → chunk.toNat * 16 + data.length ≤ s.buf.size →
       ∃ t : State, Machine.exec (.bufReadData port chunk data rp false) s = .next t ∧
         (∀ i, i < data.length → t.buf.store.byte (chunk.toNat * 16 + i) = data.getD i 0) ∧
         (∀ j, j < data.length / 16 → t.buf.store.mark (chunk.toNat + j) = rp.getLsbD j) ∧
         (∀ x, x < chunk.toNat * 16 ∨ chunk.toNat * 16 + data.length ≤ x →
           t.buf.store.byte x = s.buf.store.byte x)) ∧
     ((s.portRun fun r => r.rangesBytes (chunk.toNat * 16) (16 * (data.length / 16))) = none →
       ∃ t : State, Machine.exec (.bufReadData port chunk data rp true) s = .next t ∧
         (∀ j, j < data.length / 16 → chunk.toNat * 16 + 16 * j + 16 ≤ s.buf.size →
           t.buf.store.mark (chunk.toNat + j) = true) ∧ t.buf.store.bytes = s.buf.store.bytes) ∧
     Machine.exec (.bufWriteAck p2 chunk len false) s = .next s ∧
     ((s.portRun fun r => r.rangesBytes (chunk.toNat * 16) (16 * (len.toNat + 1))) = none →
       ∃ t : State, Machine.exec (.bufWriteAck p2 chunk len true) s = .next t ∧
         (∀ j, j < len.toNat + 1 → chunk.toNat * 16 + 16 * j + 16 ≤ s.buf.size →
           t.buf.store.mark (chunk.toNat + j) = true) ∧ t.buf.store.bytes = s.buf.store.bytes)) ∧
  (∀ (s : State) (k : CacheId) (w : BitVec 4), s.live = true → 9 ≤ s.boot.sstep → w.toNat < cacheWays k →
     s.caches.wayOff k w.toNat = false → s.caches.waysOff k < cacheLimit k →
     (∃ t : State, Machine.exec (.wayDisable k w .none) s = .next t ∧
       { t.caches with stale := [] } = { s.caches.disable k w.toNat with stale := [] } ∧
       t.caches.wayOff k w.toNat = true) ∧
     (∀ (a : BitVec 52) (syn : BitVec 16), ∃ t : State, Machine.exec (.wayDisable k w (.uncorrectable a syn)) s = .next t ∧
       t.caches.wayOff k w.toNat = true) ∧
     (∀ (a : BitVec 52) (syn : BitVec 16), ∃ t : State, Machine.exec (.wayDisable k w (.corrected a syn)) s = .next t ∧
       (t.caches.wayOff k w.toNat = true ↔ 2 ≤ (s.recentErrors k w.toNat).length)))

/-! ## Mailboxes -/

/-- R422, R423, R419: a GO by a requester that may use the mailbox makes it BUSY and pends its Groom source; a GO while BUSY
sets OVERRUN; an ABORT while BUSY asks for it, and changes nothing otherwise. A GO, an ABORT or any other access that the requester
may not make is refused and counted; the instruments reach no mailbox. -/
def Obligations.MailboxGoAndAbort : Prop :=
  ∀ (s : State) (who : Requester) (m : BitVec 5) (off : BitVec 24),
    let b := s.mbox m.toNat
    let may : Prop := Accesses s who ∧ s.mbMay who m.toNat = true
    (may → b.st ≠ .busy → s.serves = false → ∃ t : State, Machine.exec (.mbGo who m) s = .next (Written who t) ∧
      (t.mbox m.toNat).st = .busy ∧ (t.mbox m.toNat).held = true ∧ t.bridle.goOrder = s.bridle.goOrder ++ [m.toNat] ∧
      t.groom.ipend = s.groom.ipend.putBit m.toNat true) ∧
    (may → Machine.exec (.mbGo who m) s = .next (Written who (s.mbSubmit m.toNat))) ∧
    (may → b.st = .busy → Machine.exec (.mbGo who m) s =
      .next (Written who (s.setMbox m.toNat { b with overrun := true }))) ∧
    (may → b.st = .busy → Machine.exec (.mbAbort who m) s =
      .next (Written who (s.setMbox m.toNat { b with abortReq := true }))) ∧
    (may → b.st ≠ .busy → Machine.exec (.mbAbort who m) s = .next (Written who s)) ∧
    (∀ i ∈ [Instr.mbGo who m, .mbAbort who m], Accesses s who → s.mbMay who m.toNat = false →
      (who = .core → Machine.exec i s = .next (s.mbRefuse who)) ∧
      (fromRegp who = true → Machine.exec i s = .next ((s.mbRefuse who).answer who 0 false))) ∧
    (∀ i ∈ [Instr.mbGo .ijtag m, .mbAbort .ijtag m], s.live = true → Machine.exec i s = .next (s.ijRespond 0 true)) ∧
    (s.live = true → mailboxOf off.toNat = some m.toNat → s.mbMay who m.toNat = false →
      Machine.exec (.mailboxAccessRefused who off) s = .next (s.mbRefuse who)) ∧
    (who ≠ .ijtag → (s.mbRefuse who).bridle.refused =
      if s.bridle.refused = 0xFFFFFFFF then s.bridle.refused else s.bridle.refused + 1)

/-- R421, R422: what the completion of a command leaves in its mailbox: DONE, the status in the response area and in LASTSTAT,
one more completion, no ABORTREQ, and the interrupt line of a host mailbox. -/
def Obligations.CommandCompletion : Prop :=
  ∀ (s : State) (m : BitVec 5) (status detail : Nat) (payload : List Byte), status < 65536 → detail < 65536 →
    payload.length ≤ 240 →
    let b := s.mbox m.toNat
    let r := (s.mbDone m.toNat status detail payload).mbox m.toNat
    r.st = .done ∧ r.lastStat.toNat = status ∧ r.doneCnt = b.doneCnt + 1 ∧ r.abortReq = false ∧
    r.resp.leAt 0 2 = status ∧ r.resp.leAt 2 2 = b.opcode ∧ r.resp.leAt 8 2 = payload.length ∧ r.resp.leAt 10 2 = detail ∧
    (m.toNat < 8 → r.irq = true) ∧ r.cmd = b.cmd

/-- R437, R440, R444, R445, R517: the reading commands complete with OK and their payload. INFO answers BR_INFO, BLK_ID, the
minor version and the security version of the running image, the committed anti-rollback counter, and whether an extension
runs, that is, whether thread 3 runs it. CFG_READ of a known item answers its active value, the value in this mailbox's set (the
active value where the set does not hold the item) and whether the set holds it; an item or an index that does not exist is a
field error. CTX_QUERY answers the bytes of R440; WAYMAP_READ the committed map and the ways disabled now; TACK_READ the committed
value. CFG_DISCARD empties the set of its mailbox. -/
def Obligations.ReadingCommands : Prop :=
  ∀ (s : State) (m : BitVec 5) (c : Nat),
    let b := s.mbox m.toNat
    let answers := fun (i : Instr) (payload : List Byte) => Machine.exec i s = .next (s.mbDone m.toNat 0 0 payload)
    let h := s.gthread 3
    let ext : Bool := h.run && h.ext && s.groom.extOk && s.groom.extEn && !s.groom.extHalted
    let item := b.pay 0 2
    let index := b.pay 2 2
    let active := leBytes 8 (s.cfgAct item index).toNat
    let held := b.set.find? fun x => x.item = item && x.index = index
    let e := s.ctx c
    (Served s m 0x01 → answers (.info m)
      (leBytes 8 s.brInfo.toNat ++ leBytes 8 s.blkId.toNat ++ leBytes 2 s.bridle.minor.toNat ++ leBytes 2 0 ++
        leBytes 4 s.bridle.svn.toNat ++ leBytes 4 ((s.tack.read 2).toNat % 2 ^ 32) ++ leBytes 1 (if ext then 1 else 0) ++ leBytes 3 0)) ∧
    (∀ f it, Served s m 0x13 → itemInfo item index = .ok f → held = some it →
      answers (.cfgRead m) (active ++ leBytes 8 it.value.toNat ++ leBytes 1 1)) ∧
    (∀ f, Served s m 0x13 → itemInfo item index = .ok f → held = none → answers (.cfgRead m) (active ++ active ++ leBytes 1 0)) ∧
    (Served s m 0x13 → itemInfo item index = .error false →
      Machine.exec (.cfgRead m) s = .next (s.mbDone m.toNat mbBAD_FIELD 0 [])) ∧
    (Served s m 0x13 → itemInfo item index = .error true →
      Machine.exec (.cfgRead m) s = .next (s.mbDone m.toNat mbBAD_FIELD 2 [])) ∧
    (ServedFor s m 0x23 c → answers (.ctxQuery m)
      (leBytes 1 (match e.mode with | .free => 0 | .ready => 1 | .running => 2 | .waiting => 3 | .stopped => 4) ++
        leBytes 1 (if e.stall.isSome then 1 else 0) ++ leBytes 1 (e.stall.getD 0) ++ leBytes 1 e.prio.toNat ++ leBytes 1 e.pend.toNat ++
        leBytes 1 (match s.sadOf c with | none => 0 | some i => 1 + 2 * i) ++ leBytes 1 ((s.runWord c).toNat % 8) ++
        leBytes 1 (if e.lock then 1 else 0) ++ leBytes 2 (if e.mode = .stopped then e.stopCause.toNat else 0))) ∧
    (Served s m 0x40 → answers (.waymapRead m) (leBytes 8 (s.tack.read 1).toNat ++ leBytes 8 s.caches.off.toNat)) ∧
    (Served s m 0x50 → b.pay 0 2 ≤ 511 → answers (.tackRead m) (leBytes 8 (s.tack.read (b.pay 0 2)).toNat)) ∧
    (Served s m 0x12 → Machine.exec (.cfgDiscard m) s =
      .next ((s.setMbox m.toNat { b with set := [] }).mbDone m.toNat 0 0 []))

/-- R428 to R433: staging adds every item of a command without a fault to the mailbox's set; a command with a fault, or one
that the pool cannot hold, stages nothing. A commit that breaks a rule completes with its failure and the set stays; one whose
turn comes at once, of a set without persistent fields, is in progress with every item written into its staged copy and no
active value changed. At its gate point the active value of every item of the set is the staged one, every other item is as it
was, and the set is empty. Where its deadline passes first, or ABORT comes, the active values stay, the staged copies equal them
again, and the set stays. -/
def Obligations.ConfigurationCommit : Prop :=
  ∀ (s : State) (m : BitVec 5) (c : Commit),
    let b := s.mbox m.toNat
    let n := b.pay 0 1
    let set := ((List.range n).map b.item).foldl addItem b.set
    let key := fun (it : CfgItem) => cfgKey it.item it.index
    let header : Prop := 1 ≤ n ∧ n ≤ 14 ∧ firstFrom (fun i => b.pay i 1 ≠ 0) 1 15 = none
    (Served s m 0x10 → header →
      (List.range n).findSome? (fun i => b.itemFault m.toNat i) = none → s.poolUsed - b.set.length + set.length ≤ 4096 →
      Machine.exec (.cfgStage m) s =
        .next ((s.setMbox m.toNat { b with set := set }).mbDone m.toNat 0 0 (leBytes 4 set.length))) ∧
    (Served s m 0x10 → header →
      (List.range n).findSome? (fun i => b.itemFault m.toNat i) = none → 4096 < s.poolUsed - b.set.length + set.length →
      Machine.exec (.cfgStage m) s = .next (s.mbDone m.toNat 7 0 [])) ∧
    (∀ st d, Served s m 0x10 → header → (List.range n).findSome? (fun i => b.itemFault m.toNat i) = some (st, d) →
      ∃ t : State, Machine.exec (.cfgStage m) s = .next t ∧ t = s.mbDone m.toNat st d [] ∧ (t.mbox m.toNat).set = b.set) ∧
    (∀ st d, Served s m 0x11 → b.waitFor = .fresh → b.pay 0 4 ≤ 1000000 → b.pay 4 4 ≤ 1 → b.set ≠ [] →
      s.commitFault b.set = some (st, d) → ∃ t : State, Machine.exec (.cfgCommit m) s = .next t ∧
        t = s.mbDone m.toNat st d (commitPayload 0 0 0) ∧ (t.mbox m.toNat).set = b.set ∧ t.cfg = s.cfg) ∧
    (Served s m 0x11 → b.waitFor = .fresh → b.pay 0 4 ≤ 1000000 → b.pay 4 4 ≤ 1 → b.set ≠ [] → s.commitFault b.set = none →
      b.abortReq = false → s.bridle.commit = none →
      (s.bridle.goOrder.takeWhile (· ≠ m.toNat)).any (fun j => (s.mbox j).opcode = 0x11) = false →
      (∀ it ∈ b.set, rwpFields it = []) → (b.set.map key).Nodup → ∃ t : State, Machine.exec (.cfgCommit m) s = .next t ∧
        t.bridle.commit = some { m := m.toNat, t0 := s.now, deadline := s.now + 2800 * b.pay 0 4,
                                 hold := b.pay 4 4 % 2 = 1, todo := [] } ∧
        (t.mbox m.toNat).waitFor = .committing ∧ t.cfg.active = s.cfg.active ∧
        ∀ it ∈ b.set, t.cfg.stg it.item it.index = it.value) ∧
    (s.live = true → s.gateReady = true → s.bridle.commit = some c → ((s.mbox c.m).set.map key).Nodup →
      ∃ t : State, Machine.exec .gatePoint s = .next t ∧ t = s.applyCommit c.m ∧
        (∀ it ∈ (s.mbox c.m).set, t.cfgAct it.item it.index = s.cfg.stg it.item it.index) ∧
        (∀ item index, cfgKey item index ∉ (s.mbox c.m).set.map key → t.cfgAct item index = s.cfgAct item index) ∧
        (t.mbox c.m).set = [] ∧ (t.mbox c.m).st = .done ∧ t.bridle.commit = none) ∧
    (Served s m 0x11 → b.waitFor = .committing → s.bridle.commit = some c → c.m = m.toNat → s.stagedAll c = true →
      (b.abortReq = true ∨ c.deadline ≤ s.now) → ∃ t : State, Machine.exec (.cfgCommitDeadline m) s = .next t ∧
        t = s.commitUndo m.toNat (if b.abortReq then mbABORTED else mbDEFERRED) 0 s.blocker ∧
        t.cfg.active = s.cfg.active ∧ (∀ it ∈ b.set, t.cfg.stg it.item it.index = s.cfgAct it.item it.index) ∧
        (t.mbox m.toNat).set = b.set ∧ t.bridle.commit = none) ∧
    (Served s m 0x11 → b.waitFor = .turn → b.abortReq = true → Machine.exec (.cfgCommitDeadline m) s =
      .next (s.mbDone m.toNat mbABORTED 0 (commitPayload 0 s.blocker 0)))

/-- R438 to R442: the context commands: CTX_START of a FREE context with a valid descriptor, whose save area translates,
starts it; CTX_STOP with no grace stops it and with a grace posts alert.STOP and waits; the grace that is over stops it, and
the command completes, with Groom source 49, once the items have been reported; one of a stopped context has nothing to stop;
CTX_REMOVE frees a STOPPED context; ALERT_POST posts its code; RSV_SETUP loads the reserve stall and enters it in system mode. -/
def Obligations.ContextCommands : Prop :=
  ∀ (s s1 s2 s3 : State) (m : BitVec 5) (c : Nat) (bs : List Byte) (lo hi : Nat),
    let b := s.mbox m.toNat
    (ServedFor s m 0x20 c → s.cfgAct 1 0 ≠ 0 → (s.ctx c).mode = .free →
      s.unitRead ((s.cfgAct 1 0).toNat + 256 * c) 128 none = (bs, false, s1) → (⟨bs⟩ : CtxDesc).ok = true →
      (⟨bs⟩ : CtxDesc).locked = false → saveAreaOf ((⟨bs⟩ : CtxDesc).word 8) s1 = (some lo, s2) →
      saveAreaOf ((⟨bs⟩ : CtxDesc).word 8 + 256) s2 = (some hi, s3) →
      Machine.exec (.ctxStart m) s = .next ((s3.startCtx c ⟨bs⟩ lo hi).mbDone m.toNat 0 0 []) ∧
      (s3.startCtx c ⟨bs⟩ lo hi).ctx c = (⟨bs⟩ : CtxDesc).entry lo hi) ∧
    (ServedFor s m 0x21 c → b.waitFor = .fresh → b.pay 2 2 = 0 → b.pay 4 4 = 0 → (s.ctx c).started = true →
      Machine.exec (.ctxStop m) s = .next (s.ctxStopNow m.toNat c 0 0)) ∧
    (ServedFor s m 0x21 c → b.waitFor = .fresh → b.pay 2 2 = 0 → b.pay 4 4 ≠ 0 → b.pay 4 4 ≤ 1000000 →
      (s.ctx c).started = true → Machine.exec (.ctxStop m) s = .next ((s.raiseAlert c 3).mbWait m.toNat .grace)) ∧
    (ServedFor s m 0x21 c → b.waitFor = .grace → b.abortReq = false → (s.ctx c).mode ≠ .stopped → s.graceOver c = true →
      Machine.exec (.ctxStopGraceEnd m) s = .next (s.ctxStopNow m.toNat c 1 ((s.now - b.since) / 2800))) ∧
    (ServedFor s m 0x21 c → b.waitFor = .grace → b.abortReq = false → (s.ctx c).mode ≠ .stopped → s.graceOver c = false →
      b.since + 2800 * b.pay 4 4 ≤ s.now →
      Machine.exec (.ctxStopGraceEnd m) s = .next (s.ctxStopNow m.toNat c 2 ((s.now - b.since) / 2800))) ∧
    (ServedFor s m 0x21 c → b.waitFor = .fresh → b.pay 2 2 = 0 → b.pay 4 4 ≤ 1000000 → (s.ctx c).mode = .stopped →
      Machine.exec (.ctxStop m) s = .next (s.ctxStopEnd m.toNat c 3 0)) ∧
    (ServedFor s m 0x21 c → b.waitFor = .cancelling → s.itemsDone c = true → ∃ how waited, Machine.exec (.ctxStop m) s =
      .next ((s.pendGroom 49).mbDone m.toNat 0 0 (stopPayload how waited))) ∧
    (∀ how waited,
      (s.itemsDone c = true → s.ctxStopEnd m.toNat c how waited =
        (s.pendGroom 49).mbDone m.toNat 0 0 (stopPayload how waited)) ∧
      (s.itemsDone c = false → ((s.ctxStopEnd m.toNat c how waited).mbox m.toNat).waitFor = .cancelling) ∧
      (((s.stopContext c 0).2.ctx c).mode = .stopped ∧ ((s.stopContext c 0).2.ctx c).stopCause = 0)) ∧
    (ServedFor s m 0x22 c → (s.ctx c).mode = .stopped → s.named c = false → s.itemsDone c = true →
      s.tileIdle (some c) = true → Machine.exec (.ctxRemove m) s = .next ((s.removeCtx c).mbDone m.toNat 0 0 []) ∧
      (s.removeCtx c).ctx c = Ctx.free) ∧
    (ServedFor s m 0x24 c → ¬(0xFF00 ≤ b.pay 2 2 ∧ b.pay 2 2 ≤ 0xFF1F) → (s.ctx c).started = true →
      Machine.exec (.alertPost m) s = .next ((s.postAlert c (b.pay 2 2)).mbDone m.toNat 0 0 []) ∧
      (((s.postAlert c (b.pay 2 2)).ctx c).alert.bits 31 16 = b.pay 2 2) ∧
      ((s.postAlert c (b.pay 2 2)).ctx c).alert.bit 0 = true) ∧
    (Served s m 0x25 → b.rsvFault = none → s.core.disp ≠ .reserve → Machine.exec (.rsvSetup m) s =
      .next ((s.setupReserve (BitVec.ofNat 64 (b.pay 0 8)) (BitVec.ofNat 64 (b.pay 8 8))
        (BitVec.ofNat 64 (b.pay 16 8))).mbDone m.toNat 0 0 [])) ∧
    (∀ asid ptbase tvec : Word, let u := s.setupReserve asid ptbase tvec
      u.core.disp = .reserve ∧ u.core.reserve.setUp = true ∧ (u.stall 31).asid = asid ∧ (u.stall 31).ptbase = ptbase ∧
      (u.stall 31).tvec = tvec ∧ (u.stall 31).pc = tvec ∧ (u.stall 31).cause = 0 ∧ (u.stall 31).status.bit 0 = true ∧
      (u.stall 31).useRoot = ptbase.bits 51 13)

/-- R443: the run commands on a context whose image is admitted on a saddle: RUN_PAUSE withholds it and answers where it
stands; RUN_PARK spills a withheld one; RUN_RESUME lets a withheld one go on, as RUNNING where its saddle is active and
otherwise as PREEMPTED (log entry 85); RUN_CANCEL of an image that has started nothing ends it with RESULT 0x0B. On a RUNNING
image RUN_PAUSE and RUN_PARK ask for the pause and wait until the image is withheld, RUN_CANCEL asks for the end with RESULT
0x0B and waits until the image has ended, and RUN_RESUME fails; a pause of a preempted image withholds the switch back. On a
context with no admitted image each fails with BAD_STATE, but for a RUN_CANCEL that was waiting, which completes. -/
def Obligations.RunCommands : Prop :=
  (∀ (s : State) (m : BitVec 5) (c : Nat), s.admitted c = none →
    (∀ p ∈ [(Instr.runPause m, 0x30), (.runPark m, 0x31), (.runResume m, 0x32)], ServedFor s m p.2 c →
      Machine.exec p.1 s = .next (s.mbFail m.toNat 6 0)) ∧
    (ServedFor s m 0x33 c → (s.mbox m.toNat).waitFor ≠ .cancelling → Machine.exec (.runCancel m) s = .next (s.mbFail m.toNat 6 0)) ∧
    (ServedFor s m 0x33 c → (s.mbox m.toNat).waitFor = .cancelling → Machine.exec (.runCancel m) s =
      .next (s.mbDone m.toNat 0 0 (leBytes 1 (s.ctx c).runix.toNat)))) ∧
  ∀ (s : State) (m : BitVec 5) (c i : Nat) (r : Run), s.runOf c = some i → s.admitted c = some r → s.run i = some r →
    (ServedFor s m 0x30 c → r.phase = .paused →
      Machine.exec (.runPause m) s = .next (s.mbDone m.toNat 0 0 r.wherePayload)) ∧
    (ServedFor s m 0x30 c → r.phase = .armed → Machine.exec (.runPause m) s =
      .next ((s.setRun i (some { r with pauseReq := true })).mbDone m.toNat 0 0 r.wherePayload)) ∧
    (ServedFor s m 0x31 c → r.phase = .paused → (s.sad i).queue = [] →
      Machine.exec (.runPark m) s = .next ((s.parkRun i).mbDone m.toNat 0 0 r.wherePayload) ∧ (s.parkRun i).run i = none ∧
      ∃ p : Run, (s.parkRun i).parkedOf r.ctx = some p ∧ p.phase = .parked ∧ p.pins = []) ∧
    (ServedFor s m 0x32 c → r.phase = .paused →
      Machine.exec (.runResume m) s = .next ((s.continueRun i r).resumeDone m.toNat c) ∧
      ∃ u : Run, (s.continueRun i r).run i = some u ∧
        u.phase = (if s.tile.active.toNat = i then RunPhase.running else .preempted)) ∧
    (r.phase = .running →
      let asked := s.setRun i (some { r with pauseReq := true })
      (ServedFor s m 0x30 c → Machine.exec (.runPause m) s = .next (asked.mbWaitOnce m.toNat .pausing)) ∧
      (ServedFor s m 0x31 c → Machine.exec (.runPark m) s = .next (asked.mbWaitOnce m.toNat .parking)) ∧
      (ServedFor s m 0x32 c → Machine.exec (.runResume m) s = .next (s.mbFail m.toNat 6 0)) ∧
      (ServedFor s m 0x33 c → r.abandon = none → Machine.exec (.runCancel m) s =
        .next ((s.setRun i (some { r with abandon := some 0x0B })).mbWaitOnce m.toNat .cancelling))) ∧
    (ServedFor s m 0x30 c → r.phase = .preempted → Machine.exec (.runPause m) s =
      .next ((s.setRun i (some { r with holdBack := true })).mbDone m.toNat 0 0 r.wherePayload)) ∧
    (ServedFor s m 0x33 c → (s.abandonOf c 0x0B).admitted c = none → Machine.exec (.runCancel m) s =
      .next ((s.abandonOf c 0x0B).mbDone m.toNat 0 0 (leBytes 1 ((s.abandonOf c 0x0B).ctx c).runix.toNat)))

/-- R444 to R447, R382, R415: WAYMAP_CLEAR and TACK_WRITE ask the Tack store for a write of their register, once, and wait for
it. GATE_CAL commits CALMODE = 1, which begins sixteen measurements, and, once they have ended or after ABORT, CALMODE = 0, and
answers RTT. A licensee command is copied to the service page, one at a time, and completes with the answer that the
extension leaves there; one that the extension has not answered for 10 ms fails with EXT_TIMEOUT. -/
def Obligations.PersistentAndLicenseeCommands : Prop :=
  ∀ (s : State) (m : BitVec 5),
    let b := s.mbox m.toNat
    let asks : Prop := s.live = true ∧ s.mbActive m.toNat licenseeOp = true
    (Served s m 0x41 → b.pay 0 8 < 2 ^ 28 → b.waitFor = .fresh → Machine.exec (.waymapClear m) s =
      .next ((s.mbWait m.toNat .tack).tackWrite 1 (s.tack.read 1 &&& ~~~(BitVec.ofNat 64 (b.pay 0 8))) (.mailbox m.toNat))) ∧
    (Served s m 0x51 → 384 ≤ b.pay 0 2 → b.pay 0 2 ≤ 511 → b.waitFor = .fresh → Machine.exec (.tackWrite m) s =
      .next ((s.mbWait m.toNat .tack).tackWrite (b.pay 0 2) (BitVec.ofNat 64 (b.pay 2 8)) (.mailbox m.toNat))) ∧
    (Served s m 0x60 → b.waitFor = .fresh → s.gParts ≠ 0 → Machine.exec (.gateCal m) s = .next (s.mbDone m.toNat 6 0 [])) ∧
    (Served s m 0x60 → b.waitFor = .fresh → s.gParts = 0 → b.abortReq = false → s.calGate = true → ∃ t : State,
      Machine.exec (.gateCal m) s = .next (t.mbWait m.toNat .calibrating) ∧ t.gateCfg = s.gateCfg.putBit 20 true ∧
      t.groom.ipend = s.groom.ipend.putBit 48 true ∧
      (s.gateCfg.bit 20 = false → ∃ up, t.gate.cal = some { left := 16, best := 0, high := up })) ∧
    (Served s m 0x60 → b.waitFor = .calibrating → s.calEnded = true → s.calGate = true → b.abortReq = false → ∃ t : State,
      Machine.exec (.gateCal m) s = .next (t.mbDone m.toNat 0 0 (leBytes 2 s.gate.rtt.toNat)) ∧
      t.gateCfg = s.gateCfg.putBit 20 false ∧ (s.gateCfg.bit 20 = true → t.gate.cal = none)) ∧
    (Served s m 0x60 → b.waitFor = .calibrating → b.abortReq = true → s.calGate = true → ∃ t : State,
      Machine.exec (.gateCal m) s = .next (t.mbDone m.toNat mbABORTED 0 []) ∧ t.gateCfg = s.gateCfg.putBit 20 false) ∧
    (asks → b.waitFor ≠ .licensee →
      s.mboxes.any (fun (p : Nat × Mailbox) => p.2.st = .busy && p.2.waitFor = .licensee) = false → ∃ t : State,
      Machine.exec (.licenseeCommand m) s = .next t ∧ (t.mbox m.toNat).waitFor = .licensee ∧
      t.groom.ipend.bit 43 = true ∧ t.groom.ipend.bit 40 = false ∧ ∀ i, i < 64 → t.gRead (0x2002F000 + 4 * i) 4 = b.cmdAt (4 * i) 4) ∧
    (asks → b.waitFor = .licensee → s.groom.ipend.bit 40 = true → s.groom.extHalted = false → answerOk s.extAnswer = true →
      let f := fun (o : Nat) => leNat ((s.extAnswer.drop o).take 2)
      Machine.exec (.licenseeCommand m) s =
        .next ((s.gClear 40).mbDone m.toNat (f 0) (f 10) ((s.extAnswer.drop 16).take (f 8)))) ∧
    (asks → b.waitFor = .licensee → b.since + 28000000 ≤ s.now →
      Machine.exec (.extTimeout m) s = .next (s.mbDone m.toNat 15 0 []))

/-! ## Registers, start-up, the Tack store -/

/-- R17, R461 to R463, R511, R379, R391, R399, R508, R513: register accesses by their requesters: what the aperture does for an
access is the command's effect, with the answer on the port of a requester that has one, and the Groom's thread held; an access
refused for its form, an unknown class among them, changes nothing and takes DEVICE_ACCESS in the core, an error on the register
port and ACCESS in the Groom (log entry 56). A POISON value that the core writes to the Tack window takes TAG_POISON (R50,
R472). The write of GCOUNT_LD replaces it; the control registers are the Groom's alone, so that such an access by another
requester changes nothing (log entry 1); the instruments read the BIST results and write PMC_CTL. ERR_ADV by the Groom copies
the oldest record to the log, counts and removes it, by REGP it is refused and by the core it is ignored; GRESTART restarts
the Groom; PMC_CTL.CLR clears the counters. R11, R12, R16, R20, R24, R490, R363: the first clauses say what the aperture does:
a write of a read-only register changes nothing; a 1 clears ERR_BUSY and the flags of QSTAT, and a 0 leaves them; a write
that reaches GCTL's S-class field while the performance monitor runs sets ERR_BUSY with the first offset; a write of a half
of a staged register keeps the other half, its reserved bits stay 0, and only the Groom makes it. -/
def Obligations.RegisterWriteCommands : Prop :=
  (∀ (s : State) (who : Requester) (t : BitVec 2) (ln : Lanes) (w : Word) (p : Bool) (q : Nat), q < 4096 →
    (∀ o ∈ [0x00, 0x60000, 0x60010, 0x60018, 0x60028, 0x1F0008, 0x1F0020], (s.apWrite who o ln w p).2 = s) ∧
    (fromGroom who || fromHost who → ln ≠ .hi → formRefused who 0x10 ln = false → s.apWrite who 0x10 ln w p =
      (true, if w.bit 0 then { s with boot := { s.boot with errBusy := false, busyOff := 0 } } else s)) ∧
    (∀ o ∈ [0x18, 0x20], fromHost who = true → ln ≠ .hi → formRefused who o ln = false → s.apWrite who o ln w p =
      (true, if s.pmc.en then { s with boot := { s.boot with
        errBusy := true, busyOff := if s.boot.errBusy then s.boot.busyOff else BitVec.ofNat 24 o } } else s)) ∧
    (who ≠ .ijtag → ln ≠ .lo → formRefused who (0x120018 + 32 * q) ln = false → s.apWrite who (0x120018 + 32 * q) ln w p =
      (true, s.modQueue q fun u =>
        { u with badTail := u.badTail && !w.bit 49, seqErr := u.seqErr && !w.bit 50, denied := u.denied && !w.bit 51 })) ∧
    (let old := s.cfg.stg 0x21 q
     let staged := fun (v : Word) => { s with cfg := { s.cfg with staged := s.cfg.staged.set (cfgKey 0x21 q) v } }
     s.apWrite (.groom t) (0x140008 + 32 * q) .lo w p = (true, staged ((old &&& 0xFFFFF00000000) ||| (w &&& 0xFFFFFC00))) ∧
     s.apWrite (.groom t) (0x14000C + 32 * q) .hi w p = (true, staged ((old &&& 0xFFFFFC00) ||| (w &&& 0xFFFFF00000000))) ∧
     (fromGroom who = false → (s.apWrite who (0x140008 + 32 * q) ln w p).2 = s))) ∧
  ∀ (s s1 : State) (who : Requester) (th : BitVec 2) (cls : BitVec 2) (off : BitVec 24) (ln : Lanes) (v : TVal) (ok : Bool)
      (x : Half) (w : Option Word) (r : ErrRec) (rs : List ErrRec), s.live = true →
    let write := fun (q : Requester) => Machine.exec (.regWrite q .aperture off ln (.write v)) s
    let read := fun (q : Requester) => Machine.exec (.regWrite q .aperture off ln .read) s
    let accepts : Prop := Accesses s (.groom th)
    (s.apWrite who off.toNat ln v.data (decide (v.tag = .poison)) = (ok, s1) →
      (who = .core → s.curStall.isSome = true → tackPoison off.toNat v = false → formRefused .core off.toNat ln = false →
        write who = .next s1) ∧
      (who = .regp cls → write who = .next (s1.answer who 0 ok)) ∧
      (who = .groom th → accepts → ok = true → gRestarted s s1 = false → write who = .next (s1.gHold th.toNat none)) ∧
      (who = .groom th → accepts → ok = false → ∃ a, write who = .next (s.groomFault th.toNat 3 (some a)))) ∧
    (s.apRead who off.toNat ln = (w, s1) →
      (who = .core → s.curStall.isSome = true → formRefused .core off.toNat ln = false →
        read who = .next (s1.respond (w.getD 0) false)) ∧
      (who = .regp cls → read who = .next (s1.answer who (w.getD 0) w.isSome))) ∧
    (s.curStall.isSome = true → formRefused .core off.toNat ln = true →
      (tackPoison off.toNat v = false → write .core = .next s.deviceTrap) ∧ read .core = .next s.deviceTrap) ∧
    (s.curStall.isSome = true → v.tag = .poison → 0x30000 ≤ off.toNat → off.toNat < 0x40000 →
      write .core = .next (s.accessTrap 0x41 1 .poison v.data)) ∧
    (formRefused (.regp cls) off.toNat ln = true →
      write (.regp cls) = .next (s.answer (.regp cls) 0 false) ∧ read (.regp cls) = .next (s.answer (.regp cls) 0 false)) ∧
    formRefused (.regp 3) off.toNat ln = true ∧
    (off.toNat % 4 ≠ 0 ∨ ln = .neither → formRefused who off.toNat ln = true) ∧
    (Accesses s who → fromGroom who = false → Machine.exec (.regWrite who .aperture 0x1F0028 .both (.write v)) s =
      .next (Written who { s with gate := { s.gate with gcountLd := v.data } })) ∧
    (accepts → s.gctlWrite th.toNat off.toNat (v.data.truncate 32) = some s1 →
      Machine.exec (.regWrite (.groom th) .groomCtl off ln (.write v)) s = .next s1) ∧
    (accepts → s.gctlWrite th.toNat off.toNat (v.data.truncate 32) = none →
      ∃ a, Machine.exec (.regWrite (.groom th) .groomCtl off ln (.write v)) s = .next (s.groomFault th.toNat 3 (some a))) ∧
    (accepts → s.gctlRead off.toNat = some x →
      Machine.exec (.regWrite (.groom th) .groomCtl off ln .read) s = .next (s.respond (x.zeroExtend 64) false)) ∧
    (∀ op, Machine.exec (.regWrite (.regp cls) .groomCtl off ln op) s = .next s ∧
      Machine.exec (.regWrite .core .groomCtl off ln op) s = .next s) ∧
    Machine.exec (.regWrite .ijtag .bist off ln .read) s = .next (s.ijRespond s.bistWord false) ∧
    Machine.exec (.regWrite .ijtag .aperture 0x400000 .lo (.write v)) s = .next (State.ijRespond
      { s with pmc := { en := v.data.bit 0, cnt := if v.data.bit 1 then [] else s.pmc.cnt } } 0 false) ∧
    (accepts → s.ras.fifo = r :: rs → ∃ t : State, Machine.exec (.errAdv (.groom th)) s = .next (t.gHold th.toNat none) ∧
      t.ras.fifo = rs ∧ { t with ras := s.ras } = s ∧ t.ras.logNext = s.ras.logNext + 1 ∧ t.ras.copied = s.ras.copied + 1 ∧
      (∀ i, i < 8 → t.ras.log.get 0 (8 * s.ras.logNext.toNat + i) = r.words.getD i 0) ∧
      let k := if r.outcome = 0 then 0 else r.src.toNat
      t.ras.counts.get 0 k = s.ras.counts.get 0 k + 1) ∧
    (accepts → s.ras.fifo = [] → Machine.exec (.errAdv (.groom th)) s = .next (s.gHold th.toNat none)) ∧
    Machine.exec (.errAdv (.regp cls)) s = .next (s.answer (.regp cls) 0 false) ∧
    Machine.exec (.errAdv .core) s = .next s ∧
    (accepts → Machine.exec (.grestart (.groom th)) s = .next (s.groomRestart 1 th.toNat)) ∧
    (9 ≤ s.boot.sstep → Machine.exec (.groomRestart .firmware th) s = .next (s.groomRestart 1 th.toNat)) ∧
    (9 ≤ s.boot.sstep → s.groom.inMc = true → Machine.exec (.groomRestart .nested th) s = .next (s.groomRestart 2 0)) ∧
    (accepts → Machine.exec (.pmcClear (.groom th)) s =
      .next (State.gHold { s with pmc := { s.pmc with cnt := [] } } th.toNat none))

/-- R481, R487, R490, R491 to R496, R465: start-up. PORESET_N puts every register at its Reset column and loses what the caches
alone held; its release samples the straps and is step 1; PLL lock records the band, drives TK_RESET_N high, and goes on to the
ROM and device tests, which end start-up where they fail, with every Tack register at its default, and to the image, by FW_VALID as
it is then; FWLOAD is accepted from the host class while FWWAIT is 1, and a refused image leaves FWWAIT at 1; firmware that can
be ready becomes ready. That a second PORESET_RELEASE changes nothing is the model's choice (log entry 1). -/
def Obligations.StartUpCommands : Prop :=
  ∀ (s : State) (cut : CommitCut) (straps : Straps) (test : SelfTest) (band icp : BitVec 6) (fwValid : Bool) (cls : BitVec 2)
      (v : Word),
    (∃ t : State, Machine.exec (.poresetAssert cut) s = .next t ∧ HeldInReset t ∧ t.mem = s.lostCaches ∧ t.buf = s.buf ∧
      t.pending = s.pending) ∧
    (s.boot.por = true → ∃ t : State, Machine.exec (.poresetRelease straps test) s = .next t ∧ t.boot.por = false ∧
      t.boot.sstep = 1 ∧ t.boot.straps = straps ∧ t.wir = .bypass ∧ t.buf.sb = [] ∧ t.core = s.core ∧ t.mem = s.mem) ∧
    (s.boot.por = false → Machine.exec (.poresetRelease straps test) s = .next s) ∧
    (s.live = true → s.boot.sstep = 1 → s.booting = true →
      let t := s.pllLock band icp fwValid
      Machine.exec (.pllLock band icp fwValid) s = .next t ∧
      ((s.boot.test.romOk && s.boot.test.tackOk) = false → t.boot.sfail = true ∧ t.ports.tkResetN = true) ∧
      (s.boot.test.romOk = true → s.boot.test.tackOk = false → t.tack.devFail = true ∧
        (∀ n, n = 0 ∨ tkClass n ≠ 0 → t.tack.read n = tkDefault n) ∧ t.cfgAct 0x40 0 = (tkDefault 3 &&& 0x7FFFF)) ∧
      (s.boot.test.romOk = true → s.boot.test.tackOk = true → fwValid = false → t =
        { s with boot := { s.boot with pllLocked := true, band := band, icp := icp, sstep := 4, fwWait := true, fwValid := false },
                 ports := { s.ports with tkResetN := true } })) ∧
    (s.live = true → cls ≠ 0 → Machine.exec (.fwloadGo cls v) s = .next (s.answer (.regp cls) 0 false)) ∧
    (s.live = true → s.boot.fwWait = false → Machine.exec (.fwloadGo 0 v) s = .next (s.respond 0 false)) ∧
    (s.live = true → s.boot.fwWait = true → s.booting = true →
      ∃ t : State, Machine.exec (.fwloadGo 0 v) s = .next t ∧ (s.fwOk (v.bits 51 12 * 4096) = false →
        t.boot.fwWait = true ∧ t.boot.fwloadAddr = v &&& 0xFFFFFFFFFF000 ∧ t.ports.rerr = false)) ∧
    (s.live = true → s.canBeReady = true → ∃ t : State, Machine.exec .bridleReady s = .next t ∧ t = s.bridleIsReady ∧
      t.bridle.ready = true ∧ t.bridle.stand = false ∧ t.ras.restarts = 0)

/-- R470, R473 to R476, R478, R486: the Tack store. A write of the low half of a Tack register is staged for its thread; a write
of the high half is one write of both halves, the low one as staged or as committed. A write that reaches a queue of fewer than 8
is refused with the first status of R474 that applies, which leaves the register and its budget as they are; else it takes the
place of a write of its counter-class register that is queued and has not started, for which no token is taken; else it joins the
queue and takes one token. A write that finds the queue full is held, with its thread, and is checked when an entry frees. A
commit whose first try of each copy reads back gives the register at the front of the queue its value, which the power limit shows
for register 3; one whose copy A fails three times leaves every register as it is and sets DEVFAIL, and one whose copy B does sets
SINGLE. From sealing, by TK_SEAL or 800 µs after the assertion of PWRFAIL_N, every write is refused with TK_SEALED. -/
def Obligations.TackStoreCommands : Prop :=
  ∀ (s : State) (t : BitVec 2) (n : BitVec 9) (v : Half) (w : TkWrite) (ws : List TkWrite), s.live = true →
    let put := fun (low : Nat) => ((({ s with tack := { s.tack with staging := s.tack.staging.del t.toNat } } : State).tackWrite
      n.toNat (BitVec.ofNat 64 (low + v.toNat * 2 ^ 32)) (.groom t.toNat)).tkHoldThread t.toNat).gHold t.toNat none
    let accepts : Prop := Accesses s (.groom t)
    (accepts → ∃ r : State, Machine.exec (.tkRegWriteLow t n v) s = .next (r.gHold t.toNat none) ∧
      r.tack.staging.get (512, 0) t.toNat = (n.toNat, v) ∧ { r with tack := { r.tack with staging := s.tack.staging } } = s) ∧
    (∀ lo : Half, accepts → s.tack.staging.get (512, 0) t.toNat = (n.toNat, lo) →
      Machine.exec (.tkRegWriteHigh t n v) s = .next (put lo.toNat)) ∧
    (accepts → (s.tack.staging.get (512, 0) t.toNat).1 ≠ n.toNat →
      Machine.exec (.tkRegWriteHigh t n v) s = .next (put ((s.tack.read n.toNat).bits 31 0))) ∧
    (∀ lo : Half, accepts → s.tack.staging.get (512, 0) t.toNat = (n.toNat, lo) →
      let k := s.tack
      let x : Word := BitVec.ofNat 64 (lo.toNat + v.toNat * 2 ^ 32) &&& tkMask n.toNat
      let later : Bool := tkClass n.toNat = 2 && (k.queue.drop 1).any fun u => u.reg = n.toNat
      let level := fun (j : Tack) => j.levelAt s.tclkNow n.toNat
      let code : Option Nat :=
        if k.ready = false then some 2 else if k.sealedNow then some 6 else if k.devFail then some 5
        else if tkClass n.toNat = 0 then some 3 else if n.toNat = 2 ∧ x < k.rollbackNext then some 4
        else if later = false ∧ level k < 256 then some 1 else none
      ∃ r : State, Machine.exec (.tkRegWriteHigh t n v) s = .next r ∧ (∀ j, r.tack.read j = k.read j) ∧
        (k.queue.length < 8 → ∀ e, code = some e → r.tack.wcode.toNat = e ∧ r.tack.wreg = n.toNat ∧
          r.groom.ipend.bit 37 = true ∧ r.tack.queue = k.queue ∧ r.tack.level = k.level ∧ r.tack.stamp = k.stamp) ∧
        (k.queue.length < 8 → code = none → later = true → r.tack.level = k.level ∧ r.tack.stamp = k.stamp ∧
          r.tack.queue.length = k.queue.length ∧ (r.tack.queue.drop 1).all (fun u => u.reg ≠ n.toNat || u.value = x) = true) ∧
        (k.queue.length < 8 → code = none → later = false → level r.tack + 256 = level k ∧
          r.tack.queue = k.queue ++ [⟨n.toNat, x, [.groom t.toNat]⟩]) ∧
        (8 ≤ k.queue.length → r.tack.queue = k.queue ∧ r.tack.level = k.level ∧ r.tkHolds t.toNat = true ∧
          r.tack.heldW = k.heldW ++ [⟨n.toNat, x, [.groom t.toNat]⟩])) ∧
    (s.tack.queue = w :: ws → s.tack.heldW = [] → w.srcs = [.groom t.toNat] → s.tack.ready = true → tkClass w.reg ≠ 0 →
      ∃ r : State, Machine.exec (.tackCommit 0 0) s = .next r ∧ r.tack.queue = ws ∧ r.tack.read w.reg = w.value ∧
        (∀ m, m ≠ w.reg → r.tack.read m = s.tack.read m) ∧ r.tack.wcode = 0 ∧ r.groom.ipend = s.groom.ipend.putBit 37 true ∧
        (w.reg = 3 → r.cfg.stg 0x40 0 = BitVec.ofNat 64 (w.value.bits 18 0))) ∧
    (∀ u : TkWrite, s.tack.queue = w :: ws → ws.length < 8 → s.tack.heldW = [u] → w.srcs = [.groom t.toNat] →
      u.srcs = [.groom t.toNat] → s.tack.ready = true → tkClass w.reg ≠ 0 → s.tack.sealedNow = true →
      ∃ r : State, Machine.exec (.tackCommit 0 0) s = .next r ∧ r.tack.queue = ws ∧ r.tack.heldW = [] ∧
        r.tack.read w.reg = w.value ∧ r.tack.wcode = 6 ∧ r.tack.wreg = u.reg) ∧
    (s.tack.queue = w :: ws → s.tack.heldW = [] → w.srcs = [.groom t.toNat] → s.tack.ready = true → tkClass w.reg ≠ 0 →
      (∃ r : State, Machine.exec (.tackCommit 3 0) s = .next r ∧ r.tack.queue = ws ∧ (∀ m, r.tack.read m = s.tack.read m) ∧
        r.tack.devFail = true ∧ r.tack.wcode = 5 ∧ r.tack.wreg = w.reg) ∧
      (∃ r : State, Machine.exec (.tackCommit 0 3) s = .next r ∧ r.tack.queue = ws ∧ r.tack.read w.reg = w.value ∧
        r.tack.single = true ∧ r.tack.wcode = 0)) ∧
    (accepts → ∃ r : State, Machine.exec (.tkSeal t) s = .next (r.gHold t.toNat none) ∧ r.tack.sealedNow = true ∧
      { r with tack := { r.tack with sealedNow := s.tack.sealedNow, staging := s.tack.staging } } = s) ∧
    (s.power.pfail = true → s.power.pfAt + 800 * 2800 ≤ s.now →
      Machine.exec .tackAutoSeal s = .next { s with tack := { s.tack with sealedNow := true } })

/-- R501 to R507, R512: power, inputs and the wrapper. A thermal sample sets the temperature and the thermal state that
R502 gives; THERM_N enters EMERGENCY, which abandons every image; the assertion of PWRFAIL_N starts the sequence, which ends
900 µs later; PF_DONE follows once every row of it is performed; an input's level is taken; the wrapper loads its instructions,
and its boundary register, only in reset. That PF_DONE before its condition changes nothing is the model's choice (log entry 1);
that every image is abandoned, parked ones among them, is its reading (log entry 23). -/
def Obligations.PowerAndInputCommands : Prop :=
  ∀ (s : State) (temp : BitVec 8) (level : Bool) (mw : BitVec 20) (n : BitVec 3) (cells : List Bool),
    let emergency := fun (p : Power) (t : State) =>
      let u := (State.abandonAll { s with power := p } 8).alertAll 2
      { t with power := u.power } = u ∧ t.power.therm = .emergency ∧ t.power.emAt = some (s.now / 2) ∧
      { t.power with emAt := u.power.emAt, emEnded := u.power.emEnded } = u.power
    (s.live = true → s.power.therm = .emergency ∨ s.thermNext temp.toNat (!level) ≠ .emergency →
      Machine.exec (.thermalSample temp level) s = .next { s with
        power := { s.power with temp := temp, thermN := level, therm := s.thermNext temp.toNat (!level) } }) ∧
    (s.live = true → s.power.therm ≠ .emergency → s.thermNext temp.toNat (!level) = .emergency → ∃ t : State,
      Machine.exec (.thermalSample temp level) s = .next t ∧
      emergency { s.power with temp := temp, thermN := level, therm := .emergency } t) ∧
    (s.live = true → s.power.therm = .emergency →
      Machine.exec .thermNAssert s = .next { s with power := { s.power with thermN := false } }) ∧
    (s.live = true → s.power.therm ≠ .emergency → ∃ t : State, Machine.exec .thermNAssert s = .next t ∧
      emergency { s.power with thermN := false, therm := .emergency } t) ∧
    (s.live = true → Machine.exec (.ptelSample mw) s = .next { s with power := { s.power with tel := mw } }) ∧
    (s.live = true → Machine.exec .pacingWindow s = .next { s with tile := { s.tile with winEnergy := 0 } }) ∧
    (s.live = true → s.power.pfail = false → let p := { s.power with pfail := true, pfAt := s.now }
      Machine.exec .pwrfailAssert s =
        .next ((State.abandonAll (State.alertAll { s with power := p } 2) 9).emergencyToPwrfail.pfWrites)) ∧
    (s.live = true → s.power.pfail = true → Machine.exec .pwrfailAssert s = .next s) ∧
    (s.live = true → s.power.pfail = true → s.power.pfEnded = false → s.power.pfAt + 900 * 2800 ≤ s.now →
      Machine.exec .pwrfailSequenceEnd s = .next s.pwrfailEnd ∧ s.pwrfailEnd.gate.out = false ∧
      s.pwrfailEnd.power.pfEnded = true) ∧
    (s.live = true → s.pfPerformed = true →
      Machine.exec .pfDone s = .next { s with power := { s.power with pfDone := true } }) ∧
    (s.live = true → s.tack.sealedNow = false → Machine.exec .pfDone s = .next s) ∧
    (∃ t : State, Machine.exec (.licIrq n level) s = .next t ∧ t.groom.lic.getLsbD n.toNat = level ∧
      (∀ i, i ≠ n.toNat → t.groom.lic.getLsbD i = s.groom.lic.getLsbD i) ∧
      { t with groom := { t.groom with lic := s.groom.lic } } = s) ∧
    (s.boot.por = true → s.wir = .bypass ∨ s.wir = .extest ∨ s.wir = .intest →
      Machine.exec (.wsIntest cells) s = .next { s with wir := .intest, wbr := cells }) ∧
    (s.boot.por = true → s.wir = .bypass ∨ s.wir = .extest →
      Machine.exec (.wsExtest cells) s = .next { s with wir := .extest, wbr := cells } ∧
      Machine.exec .wsScan s = .next { s with wir := .scan } ∧ Machine.exec .wsMbist s = .next { s with wir := .mbist }) ∧
    (s.wir = .bypass ∨ s.wir = .extest → Machine.exec .wsBypass s = .next { s with wir := .bypass }) ∧
    (s.boot.por = false ∨ (s.wir ≠ .bypass ∧ s.wir ≠ .extest) →
      Machine.exec (.wsExtest cells) s = .next s ∧ Machine.exec .wsScan s = .next s ∧ Machine.exec .wsMbist s = .next s) ∧
    (s.boot.por = false ∨ s.wir = .scan ∨ s.wir = .mbist → Machine.exec (.wsIntest cells) s = .next s)

/-! ## The Groom -/

/-- R394, R396: the register and immediate instructions of the Groom: each result, which takes effect for the next instruction
(1 GCLK), after 3 GCLK for the products; a division holds its thread on the divider, whose end writes the quotient or the
remainder of R65 at 32 bits. R395, R396: in threaded mode the thread's next instruction reads the result; in lunge mode, with
the results on their way in the order in which they take effect, which a result keeps, an instruction that issues before k GCLK
have passed reads what the register held, and a later one the result, unless a later write has taken effect. -/
def Obligations.GroomArithmetic : Prop :=
  (∀ (s : State) (t d n : Nat) (v : Half) (k clk : Nat),
    let h := s.gthread t
    let u := (s.gWrite t d v k).gthread t
    let due := s.groom.lclk + k
    (s.groom.threaded = true → u.reg d = v ∧ (n ≠ d → u.reg n = h.reg n)) ∧
    (s.groom.threaded = false → h.late.Pairwise (fun x y => x.2.2 ≤ y.2.2) →
      u.late.Pairwise (fun x y => x.2.2 ≤ y.2.2) ∧ u.reg n = h.reg n ∧
      (clk < due ∨ n ≠ d → (u.settle clk).reg n = (h.settle clk).reg n) ∧
      (due ≤ clk → (∀ x ∈ h.late, x.1 = d → x.2.2 ≤ due ∨ clk < x.2.2) → (u.settle clk).reg d = v))) ∧
  ∀ (t : BitVec 2) (d a b : BitVec 4) (imm : BitVec 18) (sh : BitVec 5) (s s1 : State) (h : GThread), GBegins t s s1 h →
    let x := h.reg a.toNat
    let y := h.reg b.toNat
    let m : Half := imm.signExtend 32
    let z : Half := imm.zeroExtend 32
    let goes := fun (i : Instr) (v : Half) (k : Nat) =>
      Machine.exec i s = .next (GAfter t h (s1.gWrite t.toNat d.toNat v k) none)
    let holds := fun (i : Instr) (op : Nat) (v : Half) => let w : GDiv := ⟨d.toNat, op, x, y, h.pc⟩
      w.result = v ∧ Machine.exec i s =
        .next ((State.gDivNext (s1.modGthread t.toNat fun u => { u with divOp := some w })).gAdvance false)
    goes (.gAdd t d a b) (x + y) 1 ∧ goes (.gSub t d a b) (x - y) 1 ∧ goes (.gAnd t d a b) (x &&& y) 1 ∧
    goes (.gOr t d a b) (x ||| y) 1 ∧ goes (.gXor t d a b) (x ^^^ y) 1 ∧ goes (.gSll t d a b) (x <<< (y.toNat % 32)) 1 ∧
    goes (.gSrl t d a b) (x >>> (y.toNat % 32)) 1 ∧ goes (.gSra t d a b) (x.sshiftRight (y.toNat % 32)) 1 ∧
    goes (.gSlt t d a b) (if x.toInt < y.toInt then 1 else 0) 1 ∧
    goes (.gSltu t d a b) (if x.toNat < y.toNat then 1 else 0) 1 ∧
    goes (.gAddi t d a imm) (x + m) 1 ∧ goes (.gAndi t d a imm) (x &&& z) 1 ∧ goes (.gOri t d a imm) (x ||| z) 1 ∧
    goes (.gXori t d a imm) (x ^^^ z) 1 ∧ goes (.gSlti t d a imm) (if x.toInt < m.toInt then 1 else 0) 1 ∧
    goes (.gSltui t d a imm) (if x.toNat < m.toNat then 1 else 0) 1 ∧ goes (.gLui t d 0 imm) (z <<< 14) 1 ∧
    goes (.gSlli t d a sh 0) (x <<< sh.toNat) 1 ∧ goes (.gSrli t d a sh 0) (x >>> sh.toNat) 1 ∧
    goes (.gSrai t d a sh 0) (x.sshiftRight sh.toNat) 1 ∧ goes (.gMul t d a b) (x * y) 3 ∧
    goes (.gMulhu t d a b) (BitVec.ofNat 32 (x.toNat * y.toNat / 2 ^ 32)) 3 ∧
    holds (.gDiv t d a b) 0 (if y = 0 then 0xFFFFFFFF else BitVec.ofInt 32 (x.toInt.tdiv y.toInt)) ∧
    holds (.gDivu t d a b) 1 (if y = 0 then 0xFFFFFFFF else BitVec.ofNat 32 (x.toNat / y.toNat)) ∧
    holds (.gRem t d a b) 2 (if y = 0 then x else BitVec.ofInt 32 (x.toInt.tmod y.toInt)) ∧
    holds (.gRemu t d a b) 3 (if y = 0 then x else BitVec.ofNat 32 (x.toNat % y.toNat)) ∧
    (a ≠ 0 → Machine.exec (.gLui t d a imm) s = .next (s1.groomFault t.toNat 1 none))

/-- R387, R389 to R392, R394, R399: the loads and stores of the Groom, by the region that the address lies in, and the
misaligned ones; ROM, IRAM and DRAM, where a load takes 2 GCLK to its first read and a word that holds an uncorrectable
error is not delivered (R390); the control registers; the external window, which holds the thread, reads 0 where there is no
target and faults on a poisoned chunk; the aperture. -/
def Obligations.GroomLoadsAndStores : Prop :=
  ∀ (t : BitVec 2) (d a : BitVec 4) (imm : BitVec 18) (s s1 s2 : State) (h : GThread) (v : Half) (w : Word),
    GBegins t s s1 h →
    let va := (h.reg a.toNat + imm.signExtend 32).toNat
    let x := h.reg d.toNat
    let pa := s1.groom.xwin.toNat % 2 ^ 24 * 2 ^ 28 + (va - 0x80000000)
    let same := s2.ras.restarts = s1.ras.restarts ∧ s2.groom.halted = s1.groom.halted
    let load := fun (i : Instr) (n : Nat) =>
      (va % n = 0 ∨ h.dataFault false va n 0 = some 2) ∧
      (∀ code, h.dataFault false va n 0 = some code →
        Machine.exec i s = .next (s1.groomFault t.toNat code (some (BitVec.ofNat 32 va)))) ∧
      (h.dataFault false va n 0 = none → (gRegion va = .rom ∨ gRegion va = .iram ∨ gRegion va = .dram) →
        (s1.gBad va = none → Machine.exec i s =
          .next (GAfter t h (s1.gWrite t.toNat d.toNat (BitVec.ofNat 32 (s1.gRead va n)) 2) none)) ∧
        (∀ e, s1.gBad va = some e → Machine.exec i s = .next (Held s1 (s1.gBadMet t.toNat e)))) ∧
      (h.dataFault false va n 0 = none → gRegion va = .window → s1.mem.lost (pa / 128) = false →
        s1.mem.store.poisoned pa n = false → Machine.exec i s =
          .next (GAfter t h ((s1.readRequests [pa / 128]).gHold t.toNat
            (some (d.toNat, BitVec.ofNat 32 (leNat (s1.mem.store.read pa n))))) none)) ∧
      (h.dataFault false va n 0 = none → gRegion va = .window → s1.mem.lost (pa / 128) = true →
        Machine.exec i s = .next (GAfter t h
          (((s1.readRequests [pa / 128]).noTargetRecord pa none).gHold t.toNat (some (d.toNat, 0))) none)) ∧
      (h.dataFault false va n 0 = none → gRegion va = .window → s1.mem.lost (pa / 128) = false →
        s1.mem.store.poisoned pa n = true →
        Machine.exec i s = .next ((s1.readRequests [pa / 128]).groomFault t.toNat 5 (some (BitVec.ofNat 32 va))))
    let store := fun (i : Instr) (n : Nat) =>
      (va % n = 0 ∨ h.dataFault true va n x = some 2) ∧
      (∀ code, h.dataFault true va n x = some code →
        Machine.exec i s = .next (s1.groomFault t.toNat code (some (BitVec.ofNat 32 va)))) ∧
      (h.dataFault true va n x = none → (gRegion va = .iram ∨ gRegion va = .dram) →
        Machine.exec i s = .next (GAfter t h (s1.gStore va n x.toNat) none)) ∧
      (h.dataFault true va n x = none → gRegion va = .window → s1.mem.lost (pa / 128) = false →
        ∃ r : State, Machine.exec i s = .next r ∧ (r.gthread t.toNat).held = some ⟨none⟩ ∧
          r.mem.store.read pa n = leBytes n x.toNat)
    load (.gLdw t d a imm) 4 ∧ load (.gLdhu t d a imm) 2 ∧ load (.gLdbu t d a imm) 1 ∧
    store (.gStw t d a imm) 4 ∧ store (.gSth t d a imm) 2 ∧ store (.gStb t d a imm) 1 ∧
    (h.dataFault false va 4 0 = none → gRegion va = .control → s1.gctlRead (va - 0x40000000) = some v →
      Machine.exec (.gLdw t d a imm) s = .next (GAfter t h (s1.gWrite t.toNat d.toNat v 2) none)) ∧
    (h.dataFault true va 4 x = none → gRegion va = .control →
      s1.gctlWrite t.toNat (va - 0x40000000) (s1.extValue h (va - 0x40000000) x) = some s2 → same →
      Machine.exec (.gStw t d a imm) s = .next (GAfter t h s2 none)) ∧
    (h.dataFault false va 4 0 = none → gRegion va = .aperture →
      s1.apRead (.groom t) (gApOff va) (gApLane va) = (some w, s2) → same →
      let v : Half := BitVec.ofNat 32 (if va % 8 = 4 then w.bits 63 32 else w.bits 31 0)
      Machine.exec (.gLdw t d a imm) s = .next (GAfter t h (s2.gHold t.toNat (some (d.toNat, v))) none)) ∧
    (h.dataFault true va 4 x = none → gRegion va = .aperture →
      s1.apWrite (.groom t) (gApOff va) (gApLane va) (BitVec.ofNat 64 (if va % 8 = 4 then x.toNat * 2 ^ 32 else x.toNat)) false
        = (true, s2) → same →
      Machine.exec (.gStw t d a imm) s = .next (GAfter t h (s2.gHold t.toNat none) none))

/-- R390, R394, R396, R400, R402, R405, R408: the branches and jumps of the Groom; SYNC, which completes the thread's pending
writes, and a word that no row spells, which takes ILLEGAL; WFI; IRET, which completes the pending writes and restores the
registers from the frame at w15, as it reads it, or enters the source that comes next in its place; a bad frame escalates, an
extension's frame outside what R415 lets it read takes EXT_DENIED, a vector word with an uncorrectable error is not delivered, and
the IRET of the machine check handler with another machine check pending restarts the Groom. -/
def Obligations.GroomControlFlow : Prop :=
  ∀ (t : BitVec 2) (d a b : BitVec 4) (imm : BitVec 18) (word : Half) (s s1 : State) (h : GThread), GBegins t s s1 h →
    let x := h.reg a.toNat
    let target : Half := h.pc + 4 * imm.signExtend 32
    let jump : Half := x + imm.signExtend 32
    Machine.exec (.gBz t 0 a imm) s = .next (GAfter t h s1 (if x = 0 then some target else none)) ∧
    Machine.exec (.gBnz t 0 a imm) s = .next (GAfter t h s1 (if x ≠ 0 then some target else none)) ∧
    Machine.exec (.gJl t d 0 imm) s = .next (GAfter t h (s1.gWrite t.toNat d.toNat (h.pc + 4) 1) (some target)) ∧
    (jump.toNat % 4 = 0 → Machine.exec (.gJlr t d a imm) s =
      .next (GAfter t h (s1.gWrite t.toNat d.toNat (h.pc + 4) 1) (some jump))) ∧
    (jump.toNat % 4 ≠ 0 → Machine.exec (.gJlr t d a imm) s = .next (s1.groomFault t.toNat 2 none)) ∧
    Machine.exec (.gSync t 0 0 0 none) s = .next (GAfter t h (s1.gSync t.toNat) none) ∧
    ((Instr.gSync t d a b (some word)).spells = true →
      Machine.exec (.gSync t d a b (some word)) s = .next (s1.groomFault t.toNat 1 none)) ∧
    Machine.exec (.gWfi t 0 0 0) s = .next (GAfter t h (s1.modGthread t.toNat fun u => { u with wfi := true }) none) ∧
    (h.frameThere = false → Machine.exec (.gIret t 0 0 0) s =
      .next (Held s1 ((s1.modGthread t.toNat fun u => { u with causeCode := 6 }).gMachineCheck t.toNat))) ∧
    (let s2 := (s1.gSync t.toNat).modGthread t.toNat GThread.settleAll
     let f := h.reg 15
     let w := fun i => s2.gWord (f.toNat + 4 * i)
     let ends := s2.gEndsMc t.toNat f
     let s3 := if ends then { s2 with groom := { s2.groom with inMc := false } } else s2
     let next := s3.gNext t.toNat ((w 7).toNat % 32) ((w 7).getLsbD 5)
     h.frameThere = true →
       (∀ x, h.frameDenied false f.toNat = some x →
         Machine.exec (.gIret t 0 0 0) s = .next (s1.groomFault t.toNat 4 (some (BitVec.ofNat 32 x)))) ∧
       (h.frameDenied false f.toNat = none →
       (∀ e, s2.gFrameBad f.toNat = some e → Machine.exec (.gIret t 0 0 0) s = .next (Held s1 (s1.gBadMet t.toNat e))) ∧
       (s2.gFrameBad f.toNat = none → ends = true → s2.groom.ipend.bit 33 = true →
         Machine.exec (.gIret t 0 0 0) s = .next (Held s1 (s2.groomRestart 2 t.toNat))) ∧
       (s2.gFrameBad f.toNat = none → (ends = false ∨ s2.groom.ipend.bit 33 = false) → next = none →
         ∃ r : State, Machine.exec (.gIret t 0 0 0) s = .next r ∧
         let u := r.gthread t.toNat
         u.pc = w 6 ∧ u.level = (w 7).toNat % 32 ∧ u.ie = (w 7).getLsbD 5 ∧ u.reg 0 = w 0 ∧ u.reg 1 = w 1 ∧ u.reg 2 = w 2 ∧
         u.reg 3 = w 3 ∧ u.reg 13 = w 4 ∧ u.reg 14 = w 5 ∧ u.reg 15 = BitVec.ofNat 32 (f.toNat + 32)) ∧
       (∀ n, s2.gFrameBad f.toNat = none → (ends = false ∨ s2.groom.ipend.bit 33 = false) → next = some n →
         s2.gVectorBad t.toNat n = none → ∃ r : State, Machine.exec (.gIret t 0 0 0) s = .next r ∧
         let u := r.gthread t.toNat
         u.pc = s2.gWord ((s2.gthread t.toNat).vbase.toNat + 4 * n) ∧ u.causeSrc = n ∧ u.level = s2.gPrio n ∧
         u.reg 15 = (s2.gthread t.toNat).reg 15) ∧
       (∀ n r, s2.gFrameBad f.toNat = none → (ends = false ∨ s2.groom.ipend.bit 33 = false) → next = some n →
         s2.gVectorBad t.toNat n = some r → Machine.exec (.gIret t 0 0 0) s = .next (Held s1 r))))

/-- R399, R401 to R404, R406, R408, R414 to R416: the Groom's events: the entry of the source that comes next, which stacks a
frame of eight words below w15 and goes on at the source's vector, or takes the place of a source of higher PRIO whose handler
has not begun, which stays pending; a machine check taken by thread 0; an error in the Groom's memories, corrected or not, which
marks its word (R390); the expiry of a timer; ISET; the hash engine, which brings a halted extension back (the model's choice, log
entry 95); the end of a division; the response of a held access. That ISET of other bits by an extension takes EXT_DENIED is the
model's reading (log entry 58), that an entry with no source and an ISET of a thread that cannot issue change nothing its
choice (log entry 1), and that a frame may end beyond DRAM its reading (log entry 96). -/
def Obligations.GroomEvents : Prop :=
  ∀ (t : BitVec 2) (s : State) (n e : Nat) (v word : Half) (w : GDiv) (hh : GHeld), s.live = true →
    let h := s.gthread t.toNat
    let next := s.gNext t.toNat h.level h.ie
    let atBoundary : Prop := s.gRuns t.toNat = true ∧ h.held = none
    let checks : Prop := s.groom.halted = false ∧ 2 ≤ s.boot.sstep
    (atBoundary → next = some n → n ≠ 33 → h.pending = [] → h.divOp = none → h.settleAll.frameOk = true →
      (s.groom.divBusy.map (·.1)) ≠ some t.toNat → s.gDisplaced t.toNat n = none → s.gBad (h.vbase.toNat + 4 * n) = none →
      let f := (h.settleAll.reg 15).toNat - 32
      h.frameDenied true f = none → ∃ r : State, Machine.exec (.groomInterruptEntry t) s = .next r ∧
        let u := r.gthread t.toNat
        u.causeSrc = n ∧ u.level = s.gPrio n ∧ u.wfi = false ∧ u.reg 15 = BitVec.ofNat 32 f ∧
        u.pc = r.gWord (h.vbase.toNat + 4 * n) ∧ (gLevelSource n = false → r.groom.ipend.bit n = false) ∧
        (∀ i, i < 8 → f + 4 * i + 4 ≤ 0x20040000 → r.gWord (f + 4 * i) = h.settleAll.frameWords.getD i 0)) ∧
    (atBoundary → next = some n → n ≠ 33 → s.gDisplaced t.toNat n = some e →
      s.gVectorBad t.toNat n = none → ∃ r : State, Machine.exec (.groomInterruptEntry t) s = .next r ∧
        let u := r.gthread t.toNat
        u.causeSrc = n ∧ u.level = s.gPrio n ∧ u.reg 15 = h.reg 15 ∧ u.pc = s.gWord (h.vbase.toNat + 4 * n) ∧
        r.groom.dram = s.groom.dram ∧ (gLevelSource e = false → e ≠ n → r.groom.ipend.bit e = true)) ∧
    (atBoundary → next = none → Machine.exec (.groomInterruptEntry t) s = .next s) ∧
    (checks → s.groom.ipend.bit 33 = true → s.gRuns 0 = true → (s.gthread 0).held = none →
      Machine.exec (.groomMachineCheck .escalated) s = .next (s.gBoundary 0) ∧
      (s.gNext 0 (s.gthread 0).level (s.gthread 0).ie = some 33 → s.gBoundary 0 = s.gTakeMachineCheck) ∧
      (s.groom.inMc = true → s.gTakeMachineCheck = s.groomRestart 2 0) ∧
      (s.groom.inMc = false → (s.gthread 0).settleAll.frameOk = true → s.gBad ((s.gthread 0).vbase.toNat + 132) = none →
        s.gTakeMachineCheck.groom.inMc = true)) ∧
    (∀ x : Ecc, checks → s.groom.ipend.bit 33 = false → s.ras.fifo.length < 16 →
      Machine.exec (.groomMachineCheck (.memoryCorrected x)) s = .next (s.record (.ecc x 0x101 0xE 0 none))) ∧
    (∀ x : Ecc, checks → s.gRuns 0 = true → (s.gthread 0).held = none → s.groom.inMc = false →
      Machine.exec (.groomMachineCheck (.memoryError word x)) s =
        .next ((((s.gMarkBad word.toNat x).record (.ecc x 0x102 0xE 6 none)).raiseMachineCheck).gBoundary 0) ∧
      (gRegion word.toNat = .iram ∨ gRegion word.toNat = .dram → (s.gMarkBad word.toNat x).gBad word.toNat = some x)) ∧
    ((s.groom.tmr.get (0, 0) t.toNat).1 ≠ 0 → s.gTimer t.toNat = 0 → Machine.exec (.groomTimerExpiry t) s =
      .next (State.pendGroom { s with groom := { s.groom with tmr := s.groom.tmr.set t.toNat (0, s.now) } } (44 + t.toNat))) ∧
    (s.gCanIssue t.toNat = true → h.ext = false ∨ v &&& 0xFFFFFFF8 = 0 → Machine.exec (.iset t v) s = .next (s.gIset v)) ∧
    (s.gCanIssue t.toNat = true → h.ext = true → v &&& 0xFFFFFFF8 ≠ 0 →
      Machine.exec (.iset t v) s = .next (s.groomFault t.toNat 4 (some 0x40000070))) ∧
    (s.gCanIssue t.toNat = false → Machine.exec (.iset t v) s = .next s) ∧
    Machine.exec .hashDone s =
      .next (if s.bridle.ready && s.groom.extHalted then (s.pendGroom 38).loadExtension else s.pendGroom 38) ∧
    (s.groom.divBusy = some (n, e) → s.groom.halted = false → e ≤ s.now / 4 → (s.gthread n).divOp = some w →
      ∃ r : State, Machine.exec .groomDivComplete s = .next r ∧ (r.gthread n).reg w.d = w.result ∧
        (r.gthread n).pc = w.pc + 4 ∧ (r.gthread n).divOp = none) ∧
    (h.held = some hh → s.tkHolds t.toNat = false → s.groom.halted = false →
      ∃ r : State, Machine.exec (.groomAccessResponse t) s = .next r ∧ (r.gthread t.toNat).held = none ∧
        (∀ d x, hh.dest = some (d, x) → (r.gthread t.toNat).reg d = x))

/-! ## Reset, encodings, invariants, frames -/

/-- R15, R37, R249, R373, R379, R418, R429, R461, R490, R493: what PORESET_N leaves: step 0, no context, no register of a
window, queue, mailbox or the gate away from its Reset column, an empty error FIFO, no way disabled and the wrapper
transparent. No rule gives what memory holds, nor a general register; the model takes memory as 0 (log entry 8), and a general
register as data 0 with tag NONE (log entry 5). -/
def Obligations.ResetState : Prop :=
  let s := State.reset
  s.boot.por = true ∧ s.boot.sstep = 0 ∧ s.gstatus = 0 ∧ s.core.disp = .idle ∧ (∀ n, (s.ctx n).mode = .free) ∧
  (∀ w, s.window w = Window.empty) ∧ (∀ q, (s.queue q).tail = 0 ∧ (s.queue q).done = 0 ∧ (s.queue q).taken = 0) ∧
  (∀ m, (s.mbox m).statusWord = 0) ∧ s.gateStat = 0 ∧ s.gcount = 0 ∧ s.errStat = 0 ∧ s.caches.off = 0 ∧ s.wir = .bypass ∧
  (∀ q, s.qring q = 0 ∧ s.qcring q = 0 ∧ s.wcfg q = 0) ∧ s.gateCfg = 0x1E000000 ∧ s.cfgAct 0x70 3 = 1 ∧
  s.cfgAct 0x70 0xC003 = 0x056E5F ∧ (∀ t, (s.gthread t).level = 16) ∧ (s.gthread 0).run = true ∧
  (∀ a, s.mem.store.byte a = 0 ∧ s.buf.store.byte a = 0) ∧ (∀ r : Reg, r ≠ 0 → s.reg r = ⟨0, .none⟩) ∧ s.reg 0 = ⟨0, .int⟩ ∧ FifoBound s ∧ HeldInReset s

/-- R491: while PORESET_N is asserted, no command but its release takes the block out of reset, and a command that is carried
out leaves every register at its Reset column. -/
def Obligations.ResetHolds : Prop :=
  ∀ (s t : State), HeldInReset s → Machine.step s = .next t →
    (∀ straps test rest, s.pending ≠ .poresetRelease straps test :: rest) → HeldInReset t

/-- R460, R461: a record enters the error FIFO with the next SEQ while it holds fewer than 16; a record that arrives while it
holds 16 is discarded, with its SEQ, and ERR_LOST increments (it saturates), ERR_STAT.OVF is set and a machine check is raised;
in both cases the alert of its context is raised as if the record had been kept. -/
def Obligations.RecordsEnterTheFifo : Prop :=
  ∀ (s : State) (r : ErrRec),
    let t := s.record r
    let lost := s.ras.lost
    t.ras.nextSeq = s.ras.nextSeq + 1 ∧
    (s.ras.fifo.length < 16 → t.ras.fifo = s.ras.fifo ++ [{ r with seq := s.ras.nextSeq, gstamp := s.gcount }] ∧
      t.ras.lost = lost ∧ t.ras.ovf = s.ras.ovf ∧ t.groom = s.groom) ∧
    (16 ≤ s.ras.fifo.length → t.ras.fifo = s.ras.fifo ∧ t.ras.ovf = true ∧
      t.ras.lost = (if lost = 0xFFFFFFFF then lost else lost + 1) ∧ t.groom.ipend = s.groom.ipend.putBit 33 true) ∧
    t.core = (if r.ctx = 0xFFFF then s.core else (s.raiseAlert r.ctx.toNat 1).core)

/-- R460: the error FIFO never holds more than 16 records: every step keeps the bound. -/
def Obligations.ErrorFifoBound : Prop :=
  ∀ (s t : State), FifoBound s → Machine.step s = .next t → FifoBound t

/-- R60 to R63, R394: for every legal instruction of the core, decoding its word gives it back, with every operand at every
value that the encoding admits, but for the rows that an abandoned transfer has moved, which no word holds; the same for
every legal instruction of the Groom, on the thread that executes it. -/
def Obligations.DecodeOfEncode : Prop :=
  (∀ (i : Instr) (w : Half), coreWord i = some w → i.legal = true → decodeCore w = some i.uncut) ∧
  (∀ (i : Instr) (w : Half), groomWord i = some w → i.legal = true → ∃ t : BitVec 2, decodeGroom t w = some i)

/-- R73, R76: the frame of the core's stores: memory changes only at the bytes of the parts that the translation gives, and
none changes where a part lies in buffer memory; a part in MEMORY that has a target holds the bytes stored. -/
def Obligations.StoreFrame : Prop :=
  ∀ (i : Instr) (n : Nat) (d a : Reg) (imm : BitVec 15) (s s1 s2 : State) (ps : List (TlbEntry × Nat × Nat)),
    (i = .stI8 d a imm ∧ n = 1 ∨ i = .stI16 d a imm ∧ n = 2 ∨ i = .stI32 d a imm ∧ n = 4 ∨ i = .stI d a imm ∧ n = 8) →
    Begins i s s1 → (s1.reg a).tag = .vaddr → (s1.reg d).tag ≠ .none →
    let va := (s1.reg a).data + imm.signExtend 64
    translateParts 2 va (splitParts va n) s1 = .ok ps s2 → s2.anyDevice ps = false →
    ∃ t : State, Machine.exec i s = .next t ∧
      (∀ x, (∀ p ∈ ps, s2.attr p.2.1 ≠ 2 → x < p.2.1 ∨ p.2.1 + p.2.2 ≤ x) → t.mem.store.byte x = s.mem.store.byte x) ∧
      (∀ x, (∀ p ∈ ps, s2.attr p.2.1 = 2 → x < s2.bufOffset p.2.1 ∨ s2.bufOffset p.2.1 + p.2.2 ≤ x) →
        t.buf.store.byte x = s.buf.store.byte x) ∧
      (∀ (e : TlbEntry) (pa : Nat), ps = [(e, pa, n)] → s2.attr pa = 1 → s2.mem.lost (pa / 128) = false →
        t.mem.store.read pa n = leBytes n (s1.reg d).data.toNat)
end

