-- ==== Sys2Proof/Laws/Core.lean ====
section
/-! SUPPORT. What the step of a core instruction can do, said once: it ends with its meaning's result or with its abort. -/

namespace Sys2Proof

open Sys2Proof.Machine

/-- A core instruction that begins and whose meaning succeeds retires with what its meaning left. -/
theorem coreStep_ok {i : Instr} {body : M (Option Word)} {s s1 s2 : State} {npc : Option Word} (h : Begins i s s1)
    (hb : body s1 = .ok npc s2) : coreStep i body s = .next (After s s2 npc) := by
  obtain ⟨hk, hi⟩ := h
  cases hc : s.curStall with
  | none => simp [hc] at hk
  | some k =>
    unfold State.issued at hi
    unfold coreStep State.runInsn
    cases hf : issueChecks i s with
    | error a t => simp [hf] at hi
    | ok u t =>
      simp only [hf, Option.some.injEq] at hi
      subst hi
      simp [hc, hb, After]

/-- A core instruction that begins and whose meaning aborts leaves what the abort makes of it. -/
theorem coreStep_error {i : Instr} {body : M (Option Word)} {s s1 s2 : State} {a : Abort} (h : Begins i s s1)
    (hb : body s1 = .error a s2) : coreStep i body s = .next (Aborted i s s2 a) := by
  obtain ⟨hk, hi⟩ := h
  cases hc : s.curStall with
  | none => simp [hc] at hk
  | some k =>
    unfold State.issued at hi
    unfold coreStep State.runInsn
    cases hf : issueChecks i s with
    | error a t => simp [hf] at hi
    | ok u t =>
      simp only [hf, Option.some.injEq] at hi
      subst hi
      simp [hc, hb, Aborted]

/-- A word that is not legal begins no instruction. -/
theorem issued_legal {i : Instr} {s s1 : State} (h : s.issued i = some s1) : i.legal = true := by
  unfold State.issued issueChecks at h
  cases hl : i.legal with
  | true => rfl
  | false =>
    revert h
    simp only [hl, bind, EStateM.bind, trapM, throw, throwThe, MonadExceptOf.throw]
    cases fetchCheck s <;> simp [EStateM.throw, EStateM.bind]

/-- R42 to R46: an instruction that propagates POISON, on operands that are all accepted. -/
theorem binary_ok {d a b : Reg} {okA okB : Tag → Bool} {rule : TagRule} {f : Word → Word → Word} {s : State} {x y : Word}
    {ta tb t : Tag} (ha : s.reg a = ⟨x, ta⟩) (hb : s.reg b = ⟨y, tb⟩) (hr : rule ta tb = some t)
    (na : ta ≠ .none ∧ ta ≠ .poison ∧ okA ta = true) (nb : tb ≠ .none ∧ tb ≠ .poison ∧ okB tb = true) :
    binary d a b okA okB rule f s = .ok none (s.setReg d ⟨f x y, t⟩) := by
  obtain ⟨a1, a2, a3⟩ := na
  obtain ⟨b1, b2, b3⟩ := nb
  simp [binary, propagating, checkNone, poisonOf, checkAccepted, ha, hb, hr, a1, a2, a3, b1, b2, b3, List.find?, bind,
    EStateM.bind, get, getThe, MonadStateOf.get, EStateM.get, modify, modifyGet, MonadStateOf.modifyGet, EStateM.modifyGet,
    pure, EStateM.pure]

end Sys2Proof
end

