-- ==== Sys2Proof/Laws/Table.lean ====
section
/-! SUPPORT. What sparse tables read after each of their operations, and that the operations keep the canonical form. -/

namespace Sys2Proof.Machine

@[simp] theorem Tbl.get_nil {α : Type} (d : α) (k : Nat) : Tbl.get d [] k = d := rfl

@[simp] theorem Tbl.get_set_same {α : Type} (d : α) (t : Tbl α) (k : Nat) (v : α) : (t.set k v).get d k = v := by
  induction t with
  | nil => simp [Tbl.set, Tbl.get]
  | cons p t ih =>
    obtain ⟨j, w⟩ := p
    simp only [Tbl.set]
    split
    · simp [Tbl.get]
    · split <;> simp_all [Tbl.get]

theorem Tbl.get_set_other {α : Type} (d : α) (t : Tbl α) {k j : Nat} (v : α) (h : j ≠ k) :
    (t.set k v).get d j = t.get d j := by
  induction t with
  | nil => simp [Tbl.set, Tbl.get, h]
  | cons p t ih =>
    obtain ⟨i, w⟩ := p
    simp only [Tbl.set]
    split
    · rename_i e; subst e; simp [Tbl.get, h]
    · split
      · simp [Tbl.get, h]
      · simp only [Tbl.get, ih]

@[simp] theorem Tbl.get_del_same {α : Type} (d : α) (t : Tbl α) (k : Nat) : (t.del k).get d k = d := by
  induction t with
  | nil => rfl
  | cons p t ih =>
    obtain ⟨i, w⟩ := p
    simp only [Tbl.del]
    split
    · exact ih
    · simp_all [Tbl.get]

theorem Tbl.get_del_other {α : Type} (d : α) (t : Tbl α) {k j : Nat} (h : j ≠ k) : (t.del k).get d j = t.get d j := by
  induction t with
  | nil => rfl
  | cons p t ih =>
    obtain ⟨i, w⟩ := p
    simp only [Tbl.del]
    split
    · rename_i e; subst e; simp [Tbl.get, h, ih]
    · simp only [Tbl.get, ih]

@[simp] theorem Tbl.get_put_same {α : Type} [DecidableEq α] (d : α) (t : Tbl α) (k : Nat) (v : α) :
    Tbl.get d (Tbl.put d t k v) k = v := by
  unfold Tbl.put
  split <;> simp_all

theorem Tbl.get_put_other {α : Type} [DecidableEq α] (d : α) (t : Tbl α) {k j : Nat} (v : α) (h : j ≠ k) :
    Tbl.get d (Tbl.put d t k v) j = Tbl.get d t j := by
  unfold Tbl.put
  split
  · exact Tbl.get_del_other d t h
  · exact Tbl.get_set_other d t v h

theorem Tbl.above_iff {α : Type} (k : Nat) (t : Tbl α) :
    t.above k = true ↔ t.sorted = true ∧ ∀ p ∈ t, k < p.1 := by
  induction t generalizing k with
  | nil => simp [Tbl.above, Tbl.sorted]
  | cons p t ih =>
    obtain ⟨j, v⟩ := p
    simp only [Tbl.above, Tbl.sorted, Bool.and_eq_true, decide_eq_true_eq, List.forall_mem_cons]
    constructor
    · rintro ⟨h, h2⟩
      exact ⟨h2, h, fun q hq => Nat.lt_trans h (((ih j).mp h2).2 q hq)⟩
    · rintro ⟨h2, h, -⟩
      exact ⟨h, h2⟩

theorem Tbl.sorted_set {α : Type} (t : Tbl α) (k : Nat) (v : α) (h : t.sorted = true) : (t.set k v).sorted = true := by
  have key : ∀ (t : Tbl α) (j : Nat), t.above j = true → j < k → (t.set k v).above j = true := by
    intro t
    induction t with
    | nil => intro j _ hk; simp [Tbl.set, Tbl.above, hk]
    | cons p t ih =>
      obtain ⟨i, w⟩ := p
      intro j ha hk
      simp only [Tbl.above, Bool.and_eq_true, decide_eq_true_eq] at ha
      simp only [Tbl.set]
      split
      · rename_i e; subst e; simp [Tbl.above, ha.1, ha.2]
      · split
        · simp [Tbl.above, ha.2, *]
        · simp only [Tbl.above, Bool.and_eq_true, decide_eq_true_eq]
          exact ⟨ha.1, ih i ha.2 (by omega)⟩
  cases t with
  | nil => rfl
  | cons p t =>
    obtain ⟨i, w⟩ := p
    simp only [Tbl.sorted] at h
    simp only [Tbl.set]
    split
    · rename_i e; subst e; exact h
    · split
      · simp [Tbl.sorted, Tbl.above, *]
      · exact key t i h (by omega)

theorem Tbl.mem_del {α : Type} {t : Tbl α} {k : Nat} {p : Nat × α} (h : p ∈ t.del k) : p ∈ t := by
  induction t with
  | nil => exact h
  | cons q t ih =>
    simp only [Tbl.del] at h
    split at h
    · exact List.mem_cons_of_mem _ (ih h)
    · rcases List.mem_cons.mp h with h | h
      · exact h ▸ List.mem_cons_self
      · exact List.mem_cons_of_mem _ (ih h)

theorem Tbl.sorted_del {α : Type} (t : Tbl α) (k : Nat) (h : t.sorted = true) : (t.del k).sorted = true := by
  induction t with
  | nil => rfl
  | cons q t ih =>
    obtain ⟨i, w⟩ := q
    have h2 := (Tbl.above_iff i t).mp h
    simp only [Tbl.del]
    split
    · exact ih h2.1
    · exact (Tbl.above_iff i _).mpr ⟨ih h2.1, fun p hp => h2.2 p (Tbl.mem_del hp)⟩

theorem Tbl.mem_set {α : Type} {t : Tbl α} {k : Nat} {v : α} {p : Nat × α} (h : p ∈ t.set k v) : p = (k, v) ∨ p ∈ t := by
  induction t with
  | nil => simpa [Tbl.set] using h
  | cons q t ih =>
    simp only [Tbl.set] at h
    split at h
    · rcases List.mem_cons.mp h with h | h
      · exact .inl h
      · exact .inr (List.mem_cons_of_mem _ h)
    · split at h
      · rcases List.mem_cons.mp h with h | h
        · exact .inl h
        · exact .inr h
      · rcases List.mem_cons.mp h with h | h
        · exact .inr (h ▸ List.mem_cons_self)
        · exact (ih h).imp_right (List.mem_cons_of_mem _)

/-- The canonical write keeps the canonical form. -/
theorem Tbl.wf_put {α : Type} [DecidableEq α] (d : α) (t : Tbl α) (k : Nat) (v : α) (h : Tbl.wf d t = true) :
    Tbl.wf d (Tbl.put d t k v) = true := by
  simp only [Tbl.wf, Bool.and_eq_true, List.all_eq_true, decide_eq_true_eq] at h ⊢
  unfold Tbl.put
  split
  · exact ⟨Tbl.sorted_del t k h.1, fun p hp => h.2 p (Tbl.mem_del hp)⟩
  · rename_i hv
    refine ⟨Tbl.sorted_set t k v h.1, fun p hp => ?_⟩
    rcases Tbl.mem_set hp with rfl | hp
    · exact hv
    · exact h.2 p hp

end Sys2Proof.Machine
end

