-- ==== Sys2Proof/Laws/Memory.lean ====
section
/-! SUPPORT. The byte stores: every operation on one keeps its canonical form, and what a byte reads after a write. -/

namespace Sys2Proof.Machine

/-! ## The canonical form -/

theorem Store.wf_iff (m : Store) : m.wf = true ↔ Tbl.wf 0 m.bytes = true ∧ Tbl.wf false m.poison = true := by
  simp [Store.wf]

theorem Store.wf_putByte (m : Store) (a : Nat) (b : Byte) (h : m.wf = true) : (m.putByte a b).wf = true := by
  rw [Store.wf_iff] at *
  exact ⟨Tbl.wf_put 0 m.bytes a b h.1, h.2⟩

theorem Store.wf_putMark (m : Store) (c : Nat) (b : Bool) (h : m.wf = true) : (m.putMark c b).wf = true := by
  rw [Store.wf_iff] at *
  exact ⟨h.1, Tbl.wf_put false m.poison c b h.2⟩

theorem Store.wf_putBytes (m : Store) (a : Nat) (bs : List Byte) (h : m.wf = true) : (m.putBytes a bs).wf = true := by
  induction bs generalizing m a with
  | nil => exact h
  | cons b bs ih => exact ih _ _ (m.wf_putByte a b h)

theorem Store.wf_putMarks (m : Store) (b : Bool) (cs : List Nat) (h : m.wf = true) : (m.putMarks b cs).wf = true := by
  induction cs generalizing m with
  | nil => exact h
  | cons c cs ih => exact ih _ (m.wf_putMark c b h)

theorem Store.wf_foldl {β : Type} (f : Store → β → Store) (hf : ∀ m x, m.wf = true → (f m x).wf = true) (xs : List β)
    (m : Store) (h : m.wf = true) : (xs.foldl f m).wf = true := by
  induction xs generalizing m with
  | nil => exact h
  | cons x xs ih => exact ih _ (hf m x h)

theorem Store.wf_write (m : Store) (a : Nat) (bs : List Byte) (p : Bool) (h : m.wf = true) : (m.write a bs p).wf = true := by
  simp only [Store.write]
  split <;> exact Store.wf_putMarks _ _ _ (m.wf_putBytes a bs h)

theorem Store.wf_writeChunk (m : Store) (c : Nat) (data : List (Byte × Bool)) (p : Bool) (h : m.wf = true) :
    (m.writeChunk c data p).wf = true := by
  have h1 : (data.zipIdx.foldl (fun m p => if p.1.2 then m.putByte (16 * c + p.2) p.1.1 else m) m).wf = true :=
    Store.wf_foldl _ (fun m x hm => by split; exact m.wf_putByte _ _ hm; exact hm) _ _ h
  simp only [Store.writeChunk]
  split
  · exact Store.wf_putMark _ _ _ h1
  · split
    · exact Store.wf_putMark _ _ _ h1
    · exact h1

theorem Store.wf_putChunk (m : Store) (a : Nat) (ch : Chunk) (h : m.wf = true) : (m.putChunk a ch).wf = true := by
  have h1 := m.wf_putBytes a ch.1 h
  simp only [Store.putChunk]
  split
  · exact Store.wf_putMark _ _ _ h1
  · split
    · exact Store.wf_putMark _ _ _ h1
    · exact h1

theorem Store.wf_putChunks (m : Store) (a : Nat) (cs : List Chunk) (h : m.wf = true) : (m.putChunks a cs).wf = true := by
  induction cs generalizing m a with
  | nil => exact h
  | cons c cs ih => exact ih _ _ (m.wf_putChunk a c h)

theorem Store.wf_copyChunks (m : Store) (src dst n : Nat) (h : m.wf = true) : (m.copyChunks src dst n).wf = true := by
  induction n generalizing m with
  | zero => exact h
  | succ n ih => exact ih _ (Store.wf_putMark _ _ _ (m.wf_putBytes _ _ h))

theorem Store.wf_putLineMarks (m : Store) (line : Nat) (marks : List Bool) (h : m.wf = true) :
    (m.putLineMarks line marks).wf = true :=
  Store.wf_foldl _ (fun m _ hm => m.wf_putMark _ _ hm) _ _ h

theorem copyMarks_wf (src dst : Store) (a b n : Nat) (h : dst.wf = true) : (copyMarks src dst a b n).wf = true := by
  induction n generalizing dst with
  | zero => exact h
  | succ n ih => exact Store.wf_putMark _ _ _ (ih dst h)

theorem Store.wf_move (src dst : Store) (a b n : Nat) (h : dst.wf = true) : (src.move dst a b n).wf = true :=
  copyMarks_wf _ _ _ _ _ (dst.wf_putBytes _ _ h)

theorem HostMem.wf_noTarget (m : HostMem) (line : Nat) (b : Bool) (h : m.wf = true) :
    ({ m with noTarget := m.noTarget.put false line b } : HostMem).wf = true := by
  simp only [HostMem.wf, Bool.and_eq_true] at *
  exact ⟨h.1, Tbl.wf_put false m.noTarget line b h.2⟩

theorem HostMem.wf_store (m : HostMem) (st : Store) (h : m.wf = true) (hs : st.wf = true) :
    ({ m with store := st } : HostMem).wf = true := by
  simp only [HostMem.wf, Bool.and_eq_true] at *
  exact ⟨hs, h.2⟩

theorem HostMem.wf_putChunks (m : HostMem) (a : Nat) (cs : List Chunk) (h : m.wf = true) : (m.putChunks a cs).1.wf = true := by
  have key : ∀ (xs : List (Chunk × Nat)) (m : HostMem), m.wf = true →
      (xs.foldl (fun m p => if m.lost ((a + 16 * p.2) / 128) then m
        else { m with store := m.store.putChunk (a + 16 * p.2) p.1 }) m).wf = true := by
    intro xs
    induction xs with
    | nil => intro m h; exact h
    | cons x xs ih =>
      intro m h
      refine ih _ ?_
      dsimp only
      split
      · exact h
      · refine m.wf_store _ h (Store.wf_putChunk _ _ _ ?_)
        simp only [HostMem.wf, Bool.and_eq_true] at h
        exact h.1
  exact key _ _ h

/-- Memory and buffer memory have the canonical form at reset. -/
theorem State.reset_mem_wf : State.reset.mem.wf = true ∧ State.reset.buf.store.wf = true := by decide

/-! ## Bytes after a write -/

@[simp] theorem Store.byte_putMark (m : Store) (c : Nat) (b : Bool) (x : Nat) : (m.putMark c b).byte x = m.byte x := rfl

@[simp] theorem Store.byte_putMarks (m : Store) (b : Bool) (cs : List Nat) (x : Nat) : (m.putMarks b cs).byte x = m.byte x := by
  induction cs generalizing m with
  | nil => rfl
  | cons c cs ih => exact ih (m.putMark c b)

theorem Store.byte_putBytes_outside (m : Store) (a : Nat) (bs : List Byte) (x : Nat) (h : x < a ∨ a + bs.length ≤ x) :
    (m.putBytes a bs).byte x = m.byte x := by
  induction bs generalizing m a with
  | nil => rfl
  | cons b bs ih =>
    simp only [List.length_cons] at h
    rw [Store.putBytes, ih _ _ (by omega)]
    exact Tbl.get_put_other 0 m.bytes b (by omega)

theorem Store.byte_putBytes_inside (m : Store) (a : Nat) (bs : List Byte) (i : Nat) (h : i < bs.length) :
    (m.putBytes a bs).byte (a + i) = bs[i] := by
  induction bs generalizing m a i with
  | nil => exact absurd h (Nat.not_lt_zero i)
  | cons b bs ih =>
    rw [Store.putBytes]
    cases i with
    | zero =>
      rw [Store.byte_putBytes_outside _ _ _ _ (by omega)]
      exact Tbl.get_put_same 0 m.bytes a b
    | succ i =>
      have := ih (m.putByte a b) (a + 1) i (by simpa using h)
      rw [show a + (i + 1) = a + 1 + i by omega, this]
      rfl

/-- Outside the bytes written, a store reads as before. -/
theorem Store.byte_write_outside (m : Store) (a : Nat) (bs : List Byte) (p : Bool) (x : Nat) (h : x < a ∨ a + bs.length ≤ x) :
    (m.write a bs p).byte x = m.byte x := by
  simp only [Store.write]
  split <;> simp [Store.byte_putBytes_outside m a bs x h]

/-- The bytes written read back. -/
theorem Store.read_write (m : Store) (a : Nat) (bs : List Byte) (p : Bool) : (m.write a bs p).read a bs.length = bs := by
  apply List.ext_getElem
  · simp [Store.read]
  · intro i h1 h2
    simp only [Store.read, List.getElem_map, List.getElem_range, Store.write]
    split <;> simp [Store.byte_putBytes_inside m a bs i h2]

end Sys2Proof.Machine
end

