-- ==== Sys2Proof/Laws/PerInstr.lean ====
section
/-! SUPPORT. For each command: the word of a legal core instruction has an op other than 0, so that the word 0 is always illegal
(R61, R63). -/

namespace Sys2Proof.Laws

/-! ## The op field of each format (R60) -/

theorem fmtA_op (op : BitVec 7) (d a b : Reg) (fn : BitVec 10) : (fmtA op d a b fn).extractLsb' 25 7 = op := by
  ext i h
  simp only [fmtA, BitVec.getElem_extractLsb', BitVec.getLsbD_append, show ¬(25 + i < 10) by omega,
    show ¬(25 + i - 10 < 5) by omega, show ¬(25 + i - 10 - 5 < 5) by omega, show ¬(25 + i - 10 - 5 - 5 < 5) by omega,
    ite_false, show 25 + i - 10 - 5 - 5 - 5 = i by omega]
  exact BitVec.getLsbD_eq_getElem h

theorem fmtI_op (op : BitVec 7) (d a : Reg) (imm : BitVec 15) : (fmtI op d a imm).extractLsb' 25 7 = op := by
  ext i h
  simp only [fmtI, BitVec.getElem_extractLsb', BitVec.getLsbD_append, show ¬(25 + i < 15) by omega,
    show ¬(25 + i - 15 < 5) by omega, show ¬(25 + i - 15 - 5 < 5) by omega, ite_false, show 25 + i - 15 - 5 - 5 = i by omega]
  exact BitVec.getLsbD_eq_getElem h

theorem fmtB_op (op : BitVec 7) (a : Reg) (off : BitVec 20) : (fmtB op a off).extractLsb' 25 7 = op := by
  ext i h
  simp only [fmtB, BitVec.getElem_extractLsb', BitVec.getLsbD_append, show ¬(25 + i < 20) by omega,
    show ¬(25 + i - 20 < 5) by omega, ite_false, show 25 + i - 20 - 5 = i by omega]
  exact BitVec.getLsbD_eq_getElem h

theorem fmtT_op (op : BitVec 7) (x l r : Reg) (tfn : BitVec 6) (fl : BitVec 4) :
    (fmtT op x l r tfn fl).extractLsb' 25 7 = op := by
  ext i h
  simp only [fmtT, BitVec.getElem_extractLsb', BitVec.getLsbD_append, show ¬(25 + i < 4) by omega,
    show ¬(25 + i - 4 < 6) by omega, show ¬(25 + i - 4 - 6 < 5) by omega, show ¬(25 + i - 4 - 6 - 5 < 5) by omega,
    show ¬(25 + i - 4 - 6 - 5 - 5 < 5) by omega, ite_false, show 25 + i - 4 - 6 - 5 - 5 - 5 = i by omega]
  exact BitVec.getLsbD_eq_getElem h

/-! ## One lemma per command -/

/-- The op field of the word of a legal command, if it has a word, is not 0. -/
def OpNonzero.Statement (i : Instr) : Prop := i.legal = true → ∀ w, coreWord i = some w → w.extractLsb' 25 7 ≠ 0

namespace OpNonzero

theorem add (d a b : Reg) : Statement (.add d a b) := by intro _ w h; cases h; rw [fmtA_op]; decide
theorem sub (d a b : Reg) : Statement (.sub d a b) := by intro _ w h; cases h; rw [fmtA_op]; decide
theorem and (d a b : Reg) : Statement (.and d a b) := by intro _ w h; cases h; rw [fmtA_op]; decide
theorem or (d a b : Reg) : Statement (.or d a b) := by intro _ w h; cases h; rw [fmtA_op]; decide
theorem xor (d a b : Reg) : Statement (.xor d a b) := by intro _ w h; cases h; rw [fmtA_op]; decide
theorem sll (d a b : Reg) : Statement (.sll d a b) := by intro _ w h; cases h; rw [fmtA_op]; decide
theorem srl (d a b : Reg) : Statement (.srl d a b) := by intro _ w h; cases h; rw [fmtA_op]; decide
theorem sra (d a b : Reg) : Statement (.sra d a b) := by intro _ w h; cases h; rw [fmtA_op]; decide
theorem mul (d a b : Reg) : Statement (.mul d a b) := by intro _ w h; cases h; rw [fmtA_op]; decide
theorem mulh (d a b : Reg) : Statement (.mulh d a b) := by intro _ w h; cases h; rw [fmtA_op]; decide
theorem mulhu (d a b : Reg) : Statement (.mulhu d a b) := by intro _ w h; cases h; rw [fmtA_op]; decide
theorem div (d a b : Reg) : Statement (.div d a b) := by intro _ w h; cases h; rw [fmtA_op]; decide
theorem divu (d a b : Reg) : Statement (.divu d a b) := by intro _ w h; cases h; rw [fmtA_op]; decide
theorem rem (d a b : Reg) : Statement (.rem d a b) := by intro _ w h; cases h; rw [fmtA_op]; decide
theorem remu (d a b : Reg) : Statement (.remu d a b) := by intro _ w h; cases h; rw [fmtA_op]; decide
theorem min (d a b : Reg) : Statement (.min d a b) := by intro _ w h; cases h; rw [fmtA_op]; decide
theorem max (d a b : Reg) : Statement (.max d a b) := by intro _ w h; cases h; rw [fmtA_op]; decide
theorem minu (d a b : Reg) : Statement (.minu d a b) := by intro _ w h; cases h; rw [fmtA_op]; decide
theorem maxu (d a b : Reg) : Statement (.maxu d a b) := by intro _ w h; cases h; rw [fmtA_op]; decide
theorem ceq (d a b : Reg) : Statement (.ceq d a b) := by intro _ w h; cases h; rw [fmtA_op]; decide
theorem cne (d a b : Reg) : Statement (.cne d a b) := by intro _ w h; cases h; rw [fmtA_op]; decide
theorem clt (d a b : Reg) : Statement (.clt d a b) := by intro _ w h; cases h; rw [fmtA_op]; decide
theorem cltu (d a b : Reg) : Statement (.cltu d a b) := by intro _ w h; cases h; rw [fmtA_op]; decide
theorem cle (d a b : Reg) : Statement (.cle d a b) := by intro _ w h; cases h; rw [fmtA_op]; decide
theorem cleu (d a b : Reg) : Statement (.cleu d a b) := by intro _ w h; cases h; rw [fmtA_op]; decide
theorem addi (d a : Reg) (imm : BitVec 15) : Statement (.addi d a imm) := by intro _ w h; cases h; rw [fmtI_op]; decide
theorem andi (d a : Reg) (imm : BitVec 15) : Statement (.andi d a imm) := by intro _ w h; cases h; rw [fmtI_op]; decide
theorem ori (d a : Reg) (imm : BitVec 15) : Statement (.ori d a imm) := by intro _ w h; cases h; rw [fmtI_op]; decide
theorem xori (d a : Reg) (imm : BitVec 15) : Statement (.xori d a imm) := by intro _ w h; cases h; rw [fmtI_op]; decide
theorem slli (d a : Reg) (sh : BitVec 6) (hi : BitVec 7) :
    Statement (.slli d a sh hi) := by intro _ w h; cases h; rw [fmtI_op]; decide
theorem srli (d a : Reg) (sh : BitVec 6) (hi : BitVec 7) :
    Statement (.srli d a sh hi) := by intro _ w h; cases h; rw [fmtI_op]; decide
theorem srai (d a : Reg) (sh : BitVec 6) (hi : BitVec 7) :
    Statement (.srai d a sh hi) := by intro _ w h; cases h; rw [fmtI_op]; decide
theorem ceqi (d a : Reg) (imm : BitVec 15) : Statement (.ceqi d a imm) := by intro _ w h; cases h; rw [fmtI_op]; decide
theorem clti (d a : Reg) (imm : BitVec 15) : Statement (.clti d a imm) := by intro _ w h; cases h; rw [fmtI_op]; decide
theorem cltui (d a : Reg) (imm : BitVec 15) : Statement (.cltui d a imm) := by intro _ w h; cases h; rw [fmtI_op]; decide
theorem movi (d a : Reg) (imm : BitVec 15) : Statement (.movi d a imm) := by intro _ w h; cases h; rw [fmtI_op]; decide
theorem orsh (d a : Reg) (imm : BitVec 15) : Statement (.orsh d a imm) := by intro _ w h; cases h; rw [fmtI_op]; decide
theorem tagof (d a b : Reg) (t : BitVec 4) : Statement (.tagof d a b t) := by intro _ w h; cases h; rw [fmtA_op]; decide
theorem retag (d a b : Reg) (t : BitVec 4) : Statement (.retag d a b t) := by intro _ w h; cases h; rw [fmtA_op]; decide
theorem mov (d a b : Reg) (t : BitVec 4) : Statement (.mov d a b t) := by intro _ w h; cases h; rw [fmtA_op]; decide
theorem cmovnz (d a b : Reg) : Statement (.cmovnz d a b) := by intro _ w h; cases h; rw [fmtA_op]; decide
theorem cmovz (d a b : Reg) : Statement (.cmovz d a b) := by intro _ w h; cases h; rw [fmtA_op]; decide
theorem faddD (d a b : Reg) (rm : Rm) : Statement (.faddD d a b rm) := by intro _ w h; cases h; rw [fmtA_op]; decide
theorem fsubD (d a b : Reg) (rm : Rm) : Statement (.fsubD d a b rm) := by intro _ w h; cases h; rw [fmtA_op]; decide
theorem fmulD (d a b : Reg) (rm : Rm) : Statement (.fmulD d a b rm) := by intro _ w h; cases h; rw [fmtA_op]; decide
theorem fdivD (d a b : Reg) (rm : Rm) : Statement (.fdivD d a b rm) := by intro _ w h; cases h; rw [fmtA_op]; decide
theorem fsqrtD (d a b : Reg) (rm : Rm) : Statement (.fsqrtD d a b rm) := by intro _ w h; cases h; rw [fmtA_op]; decide
theorem fmaddD (d a b : Reg) (rm : Rm) : Statement (.fmaddD d a b rm) := by intro _ w h; cases h; rw [fmtA_op]; decide
theorem fmsubD (d a b : Reg) (rm : Rm) : Statement (.fmsubD d a b rm) := by intro _ w h; cases h; rw [fmtA_op]; decide
theorem fnmaddD (d a b : Reg) (rm : Rm) : Statement (.fnmaddD d a b rm) := by intro _ w h; cases h; rw [fmtA_op]; decide
theorem fminD (d a b : Reg) (rm : Rm) : Statement (.fminD d a b rm) := by intro _ w h; cases h; rw [fmtA_op]; decide
theorem fmaxD (d a b : Reg) (rm : Rm) : Statement (.fmaxD d a b rm) := by intro _ w h; cases h; rw [fmtA_op]; decide
theorem fabsD (d a b : Reg) (rm : Rm) : Statement (.fabsD d a b rm) := by intro _ w h; cases h; rw [fmtA_op]; decide
theorem fnegD (d a b : Reg) (rm : Rm) : Statement (.fnegD d a b rm) := by intro _ w h; cases h; rw [fmtA_op]; decide
theorem fceqD (d a b : Reg) (rm : Rm) : Statement (.fceqD d a b rm) := by intro _ w h; cases h; rw [fmtA_op]; decide
theorem fcltD (d a b : Reg) (rm : Rm) : Statement (.fcltD d a b rm) := by intro _ w h; cases h; rw [fmtA_op]; decide
theorem fcleD (d a b : Reg) (rm : Rm) : Statement (.fcleD d a b rm) := by intro _ w h; cases h; rw [fmtA_op]; decide
theorem fcunD (d a b : Reg) (rm : Rm) : Statement (.fcunD d a b rm) := by intro _ w h; cases h; rw [fmtA_op]; decide
theorem faddS (d a b : Reg) (rm : Rm) : Statement (.faddS d a b rm) := by intro _ w h; cases h; rw [fmtA_op]; decide
theorem fsubS (d a b : Reg) (rm : Rm) : Statement (.fsubS d a b rm) := by intro _ w h; cases h; rw [fmtA_op]; decide
theorem fmulS (d a b : Reg) (rm : Rm) : Statement (.fmulS d a b rm) := by intro _ w h; cases h; rw [fmtA_op]; decide
theorem fdivS (d a b : Reg) (rm : Rm) : Statement (.fdivS d a b rm) := by intro _ w h; cases h; rw [fmtA_op]; decide
theorem fsqrtS (d a b : Reg) (rm : Rm) : Statement (.fsqrtS d a b rm) := by intro _ w h; cases h; rw [fmtA_op]; decide
theorem fmaddS (d a b : Reg) (rm : Rm) : Statement (.fmaddS d a b rm) := by intro _ w h; cases h; rw [fmtA_op]; decide
theorem fmsubS (d a b : Reg) (rm : Rm) : Statement (.fmsubS d a b rm) := by intro _ w h; cases h; rw [fmtA_op]; decide
theorem fnmaddS (d a b : Reg) (rm : Rm) : Statement (.fnmaddS d a b rm) := by intro _ w h; cases h; rw [fmtA_op]; decide
theorem fminS (d a b : Reg) (rm : Rm) : Statement (.fminS d a b rm) := by intro _ w h; cases h; rw [fmtA_op]; decide
theorem fmaxS (d a b : Reg) (rm : Rm) : Statement (.fmaxS d a b rm) := by intro _ w h; cases h; rw [fmtA_op]; decide
theorem fabsS (d a b : Reg) (rm : Rm) : Statement (.fabsS d a b rm) := by intro _ w h; cases h; rw [fmtA_op]; decide
theorem fnegS (d a b : Reg) (rm : Rm) : Statement (.fnegS d a b rm) := by intro _ w h; cases h; rw [fmtA_op]; decide
theorem fceqS (d a b : Reg) (rm : Rm) : Statement (.fceqS d a b rm) := by intro _ w h; cases h; rw [fmtA_op]; decide
theorem fcltS (d a b : Reg) (rm : Rm) : Statement (.fcltS d a b rm) := by intro _ w h; cases h; rw [fmtA_op]; decide
theorem fcleS (d a b : Reg) (rm : Rm) : Statement (.fcleS d a b rm) := by intro _ w h; cases h; rw [fmtA_op]; decide
theorem fcunS (d a b : Reg) (rm : Rm) : Statement (.fcunS d a b rm) := by intro _ w h; cases h; rw [fmtA_op]; decide
theorem fcvtDI (d a b : Reg) (rm : Rm) : Statement (.fcvtDI d a b rm) := by intro _ w h; cases h; rw [fmtA_op]; decide
theorem fcvtDIu (d a b : Reg) (rm : Rm) : Statement (.fcvtDIu d a b rm) := by intro _ w h; cases h; rw [fmtA_op]; decide
theorem fcvtID (d a b : Reg) (rm : Rm) : Statement (.fcvtID d a b rm) := by intro _ w h; cases h; rw [fmtA_op]; decide
theorem fcvtIuD (d a b : Reg) (rm : Rm) : Statement (.fcvtIuD d a b rm) := by intro _ w h; cases h; rw [fmtA_op]; decide
theorem fcvtSI (d a b : Reg) (rm : Rm) : Statement (.fcvtSI d a b rm) := by intro _ w h; cases h; rw [fmtA_op]; decide
theorem fcvtSIu (d a b : Reg) (rm : Rm) : Statement (.fcvtSIu d a b rm) := by intro _ w h; cases h; rw [fmtA_op]; decide
theorem fcvtIS (d a b : Reg) (rm : Rm) : Statement (.fcvtIS d a b rm) := by intro _ w h; cases h; rw [fmtA_op]; decide
theorem fcvtIuS (d a b : Reg) (rm : Rm) : Statement (.fcvtIuS d a b rm) := by intro _ w h; cases h; rw [fmtA_op]; decide
theorem fcvtDS (d a b : Reg) (rm : Rm) : Statement (.fcvtDS d a b rm) := by intro _ w h; cases h; rw [fmtA_op]; decide
theorem fcvtSD (d a b : Reg) (rm : Rm) : Statement (.fcvtSD d a b rm) := by intro _ w h; cases h; rw [fmtA_op]; decide
theorem ldI8 (d a : Reg) (imm : BitVec 15) : Statement (.ldI8 d a imm) := by intro _ w h; cases h; rw [fmtI_op]; decide
theorem ldI8u (d a : Reg) (imm : BitVec 15) : Statement (.ldI8u d a imm) := by intro _ w h; cases h; rw [fmtI_op]; decide
theorem ldI16 (d a : Reg) (imm : BitVec 15) : Statement (.ldI16 d a imm) := by intro _ w h; cases h; rw [fmtI_op]; decide
theorem ldI16u (d a : Reg) (imm : BitVec 15) :
    Statement (.ldI16u d a imm) := by intro _ w h; cases h; rw [fmtI_op]; decide
theorem ldI32 (d a : Reg) (imm : BitVec 15) : Statement (.ldI32 d a imm) := by intro _ w h; cases h; rw [fmtI_op]; decide
theorem ldI32u (d a : Reg) (imm : BitVec 15) :
    Statement (.ldI32u d a imm) := by intro _ w h; cases h; rw [fmtI_op]; decide
theorem ldI (d a : Reg) (imm : BitVec 15) : Statement (.ldI d a imm) := by intro _ w h; cases h; rw [fmtI_op]; decide
theorem ldF32 (d a : Reg) (imm : BitVec 15) : Statement (.ldF32 d a imm) := by intro _ w h; cases h; rw [fmtI_op]; decide
theorem ldF64 (d a : Reg) (imm : BitVec 15) : Statement (.ldF64 d a imm) := by intro _ w h; cases h; rw [fmtI_op]; decide
theorem ldVa (d a : Reg) (imm : BitVec 15) : Statement (.ldVa d a imm) := by intro _ w h; cases h; rw [fmtI_op]; decide
theorem ldBa (d a : Reg) (imm : BitVec 15) : Statement (.ldBa d a imm) := by intro _ w h; cases h; rw [fmtI_op]; decide
theorem ldSh (d a : Reg) (imm : BitVec 15) : Statement (.ldSh d a imm) := by intro _ w h; cases h; rw [fmtI_op]; decide
theorem ldSd (d a : Reg) (imm : BitVec 15) : Statement (.ldSd d a imm) := by intro _ w h; cases h; rw [fmtI_op]; decide
theorem ldW (d a : Reg) (imm : BitVec 15) : Statement (.ldW d a imm) := by intro _ w h; cases h; rw [fmtI_op]; decide
theorem stI8 (d a : Reg) (imm : BitVec 15) : Statement (.stI8 d a imm) := by intro _ w h; cases h; rw [fmtI_op]; decide
theorem stI16 (d a : Reg) (imm : BitVec 15) : Statement (.stI16 d a imm) := by intro _ w h; cases h; rw [fmtI_op]; decide
theorem stI32 (d a : Reg) (imm : BitVec 15) : Statement (.stI32 d a imm) := by intro _ w h; cases h; rw [fmtI_op]; decide
theorem stI (d a : Reg) (imm : BitVec 15) : Statement (.stI d a imm) := by intro _ w h; cases h; rw [fmtI_op]; decide
theorem bz (a : Reg) (off : BitVec 20) : Statement (.bz a off) := by intro _ w h; cases h; rw [fmtB_op]; decide
theorem bnz (a : Reg) (off : BitVec 20) : Statement (.bnz a off) := by intro _ w h; cases h; rw [fmtB_op]; decide
theorem jal (a : Reg) (off : BitVec 20) : Statement (.jal a off) := by intro _ w h; cases h; rw [fmtB_op]; decide
theorem jalr (d a : Reg) (imm : BitVec 15) : Statement (.jalr d a imm) := by intro _ w h; cases h; rw [fmtI_op]; decide
theorem fence (d a b : Reg) : Statement (.fence d a b) := by intro _ w h; cases h; rw [fmtA_op]; decide
theorem fenceSt (d a b : Reg) : Statement (.fenceSt d a b) := by intro _ w h; cases h; rw [fmtA_op]; decide
theorem ifence (d a b : Reg) : Statement (.ifence d a b) := by intro _ w h; cases h; rw [fmtA_op]; decide
theorem ssync (d a b : Reg) : Statement (.ssync d a b) := by intro _ w h; cases h; rw [fmtA_op]; decide
theorem srd (d a : Reg) (n : BitVec 15) : Statement (.srd d a n) := by intro _ w h; cases h; rw [fmtI_op]; decide
theorem swr (d a : Reg) (n : BitVec 15) : Statement (.swr d a n) := by intro _ w h; cases h; rw [fmtI_op]; decide
theorem tret (d a b : Reg) : Statement (.tret d a b) := by intro _ w h; cases h; rw [fmtA_op]; decide
theorem wait (d a b : Reg) : Statement (.wait d a b) := by intro _ w h; cases h; rw [fmtA_op]; decide
theorem yieldOp (d a b : Reg) : Statement (.yieldOp d a b) := by intro _ w h; cases h; rw [fmtA_op]; decide
theorem keysw (d a b : Reg) : Statement (.keysw d a b) := by intro _ w h; cases h; rw [fmtA_op]; decide
theorem trap (d a : Reg) (imm : BitVec 15) (word : Option Half) :
    Statement (.trap d a imm word) := by
  intro l w h
  cases word with
  | none => cases h; rw [fmtI_op]; decide
  | some v => simp [Instr.legal] at l
theorem ctxsvL (d a b : Reg) : Statement (.ctxsvL d a b) := by intro _ w h; cases h; rw [fmtA_op]; decide
theorem ctxsvU (d a b : Reg) : Statement (.ctxsvU d a b) := by intro _ w h; cases h; rw [fmtA_op]; decide
theorem ctxldL (d a b : Reg) : Statement (.ctxldL d a b) := by intro _ w h; cases h; rw [fmtA_op]; decide
theorem ctxldU (d a b : Reg) : Statement (.ctxldU d a b) := by intro _ w h; cases h; rw [fmtA_op]; decide
theorem sarm (d a b : Reg) : Statement (.sarm d a b) := by intro _ w h; cases h; rw [fmtA_op]; decide
theorem srearm (d a b : Reg) : Statement (.srearm d a b) := by intro _ w h; cases h; rw [fmtA_op]; decide
theorem sstat (d a b : Reg) : Statement (.sstat d a b) := by intro _ w h; cases h; rw [fmtA_op]; decide
theorem scancel (d a b : Reg) : Statement (.scancel d a b) := by intro _ w h; cases h; rw [fmtA_op]; decide
theorem bdecl (d a b : Reg) : Statement (.bdecl d a b) := by intro _ w h; cases h; rw [fmtA_op]; decide
theorem brel (d a b : Reg) : Statement (.brel d a b) := by intro _ w h; cases h; rw [fmtA_op]; decide
theorem bqry (d a b : Reg) : Statement (.bqry d a b) := by intro _ w h; cases h; rw [fmtA_op]; decide
theorem opaT (sh l r : Reg) : Statement (.opaT sh l r) := by intro _ w h; cases h; rw [fmtT_op]; decide
theorem opaM (sh l r : Reg) : Statement (.opaM sh l r) := by intro _ w h; cases h; rw [fmtT_op]; decide
theorem opkT (sh l r : Reg) (k : BitVec 6) : Statement (.opkT sh l r k) := by intro _ w h; cases h; rw [fmtT_op]; decide
theorem opkM (sh l r : Reg) (k : BitVec 6) : Statement (.opkM sh l r k) := by intro _ w h; cases h; rw [fmtT_op]; decide
theorem tld (sh l r : Reg) (cut : CutRows) : Statement (.tld sh l r cut) := by intro _ w h; cases h; rw [fmtT_op]; decide
theorem tldScale (sh l r : Reg) (cut : CutRows) :
    Statement (.tldScale sh l r cut) := by intro _ w h; cases h; rw [fmtT_op]; decide
theorem tst (sh l r : Reg) (cut : CutRows) : Statement (.tst sh l r cut) := by intro _ w h; cases h; rw [fmtT_op]; decide
theorem tstScale (sh l r : Reg) (cut : CutRows) :
    Statement (.tstScale sh l r cut) := by intro _ w h; cases h; rw [fmtT_op]; decide
theorem tzf (sh l r : Reg) : Statement (.tzf sh l r) := by intro _ w h; cases h; rw [fmtT_op]; decide
theorem tzfRelease (sh l r : Reg) : Statement (.tzfRelease sh l r) := by intro _ w h; cases h; rw [fmtT_op]; decide
theorem tdr (sh l r : Reg) (dfmt act : BitVec 3) (clr bias xr xc : Bool) :
    Statement (.tdr sh l r dfmt act clr bias xr xc) := by intro _ w h; cases h; rw [fmtT_op]; decide
theorem tdw (sh l r : Reg) (clr : Bool) : Statement (.tdw sh l r clr) := by intro _ w h; cases h; rw [fmtT_op]; decide
theorem taw (sh l r : Reg) : Statement (.taw sh l r) := by intro _ w h; cases h; rw [fmtT_op]; decide
theorem tchk (sh l r : Reg) : Statement (.tchk sh l r) := by intro _ w h; cases h; rw [fmtT_op]; decide
theorem tsync (sh l r : Reg) : Statement (.tsync sh l r) := by intro _ w h; cases h; rw [fmtT_op]; decide
theorem tewQ (sh l r : Reg) (w : BitVec 6) : Statement (.tewQ sh l r w) := by intro _ w h; cases h; rw [fmtT_op]; decide
theorem tewR (sh l r : Reg) (w : BitVec 6) : Statement (.tewR sh l r w) := by intro _ w h; cases h; rw [fmtT_op]; decide
theorem tewD (sh l r : Reg) (w : BitVec 6) : Statement (.tewD sh l r w) := by intro _ w h; cases h; rw [fmtT_op]; decide
theorem trunLoad (sh l r : Reg) : Statement (.trunLoad sh l r) := by intro _ w h; cases h; rw [fmtT_op]; decide
theorem trunGo (sh l r : Reg) (gate : Bool) :
    Statement (.trunGo sh l r gate) := by intro _ w h; cases h; rw [fmtT_op]; decide
theorem trunGoAt (sh l r : Reg) : Statement (.trunGoAt sh l r) := by intro _ w h; cases h; rw [fmtT_op]; decide
theorem trunStat (sh l r : Reg) : Statement (.trunStat sh l r) := by intro _ w h; cases h; rw [fmtT_op]; decide
theorem gAdd (t : BitVec 2) (d a b : BitVec 4) : Statement (.gAdd t d a b) := by intro _ w h; cases h
theorem gSub (t : BitVec 2) (d a b : BitVec 4) : Statement (.gSub t d a b) := by intro _ w h; cases h
theorem gAnd (t : BitVec 2) (d a b : BitVec 4) : Statement (.gAnd t d a b) := by intro _ w h; cases h
theorem gOr (t : BitVec 2) (d a b : BitVec 4) : Statement (.gOr t d a b) := by intro _ w h; cases h
theorem gXor (t : BitVec 2) (d a b : BitVec 4) : Statement (.gXor t d a b) := by intro _ w h; cases h
theorem gSll (t : BitVec 2) (d a b : BitVec 4) : Statement (.gSll t d a b) := by intro _ w h; cases h
theorem gSrl (t : BitVec 2) (d a b : BitVec 4) : Statement (.gSrl t d a b) := by intro _ w h; cases h
theorem gSra (t : BitVec 2) (d a b : BitVec 4) : Statement (.gSra t d a b) := by intro _ w h; cases h
theorem gSlt (t : BitVec 2) (d a b : BitVec 4) : Statement (.gSlt t d a b) := by intro _ w h; cases h
theorem gSltu (t : BitVec 2) (d a b : BitVec 4) : Statement (.gSltu t d a b) := by intro _ w h; cases h
theorem gAddi (t : BitVec 2) (d a : BitVec 4) (imm : BitVec 18) : Statement (.gAddi t d a imm) := by intro _ w h; cases h
theorem gAndi (t : BitVec 2) (d a : BitVec 4) (imm : BitVec 18) : Statement (.gAndi t d a imm) := by intro _ w h; cases h
theorem gOri (t : BitVec 2) (d a : BitVec 4) (imm : BitVec 18) : Statement (.gOri t d a imm) := by intro _ w h; cases h
theorem gXori (t : BitVec 2) (d a : BitVec 4) (imm : BitVec 18) : Statement (.gXori t d a imm) := by intro _ w h; cases h
theorem gSlti (t : BitVec 2) (d a : BitVec 4) (imm : BitVec 18) : Statement (.gSlti t d a imm) := by intro _ w h; cases h
theorem gSltui (t : BitVec 2) (d a : BitVec 4) (imm : BitVec 18) :
    Statement (.gSltui t d a imm) := by intro _ w h; cases h
theorem gLui (t : BitVec 2) (d a : BitVec 4) (imm : BitVec 18) : Statement (.gLui t d a imm) := by intro _ w h; cases h
theorem gSlli (t : BitVec 2) (d a : BitVec 4) (sh : BitVec 5) (hi : BitVec 11) :
    Statement (.gSlli t d a sh hi) := by intro _ w h; cases h
theorem gSrli (t : BitVec 2) (d a : BitVec 4) (sh : BitVec 5) (hi : BitVec 11) :
    Statement (.gSrli t d a sh hi) := by intro _ w h; cases h
theorem gSrai (t : BitVec 2) (d a : BitVec 4) (sh : BitVec 5) (hi : BitVec 11) :
    Statement (.gSrai t d a sh hi) := by intro _ w h; cases h
theorem gMul (t : BitVec 2) (d a b : BitVec 4) : Statement (.gMul t d a b) := by intro _ w h; cases h
theorem gMulhu (t : BitVec 2) (d a b : BitVec 4) : Statement (.gMulhu t d a b) := by intro _ w h; cases h
theorem gDiv (t : BitVec 2) (d a b : BitVec 4) : Statement (.gDiv t d a b) := by intro _ w h; cases h
theorem gDivu (t : BitVec 2) (d a b : BitVec 4) : Statement (.gDivu t d a b) := by intro _ w h; cases h
theorem gRem (t : BitVec 2) (d a b : BitVec 4) : Statement (.gRem t d a b) := by intro _ w h; cases h
theorem gRemu (t : BitVec 2) (d a b : BitVec 4) : Statement (.gRemu t d a b) := by intro _ w h; cases h
theorem gLdw (t : BitVec 2) (d a : BitVec 4) (imm : BitVec 18) : Statement (.gLdw t d a imm) := by intro _ w h; cases h
theorem gLdhu (t : BitVec 2) (d a : BitVec 4) (imm : BitVec 18) : Statement (.gLdhu t d a imm) := by intro _ w h; cases h
theorem gLdbu (t : BitVec 2) (d a : BitVec 4) (imm : BitVec 18) : Statement (.gLdbu t d a imm) := by intro _ w h; cases h
theorem gStw (t : BitVec 2) (d a : BitVec 4) (imm : BitVec 18) : Statement (.gStw t d a imm) := by intro _ w h; cases h
theorem gSth (t : BitVec 2) (d a : BitVec 4) (imm : BitVec 18) : Statement (.gSth t d a imm) := by intro _ w h; cases h
theorem gStb (t : BitVec 2) (d a : BitVec 4) (imm : BitVec 18) : Statement (.gStb t d a imm) := by intro _ w h; cases h
theorem gBz (t : BitVec 2) (d a : BitVec 4) (imm : BitVec 18) : Statement (.gBz t d a imm) := by intro _ w h; cases h
theorem gBnz (t : BitVec 2) (d a : BitVec 4) (imm : BitVec 18) : Statement (.gBnz t d a imm) := by intro _ w h; cases h
theorem gJl (t : BitVec 2) (d a : BitVec 4) (imm : BitVec 18) : Statement (.gJl t d a imm) := by intro _ w h; cases h
theorem gJlr (t : BitVec 2) (d a : BitVec 4) (imm : BitVec 18) : Statement (.gJlr t d a imm) := by intro _ w h; cases h
theorem gSync (t : BitVec 2) (d a b : BitVec 4) (word : Option Half) :
    Statement (.gSync t d a b word) := by intro _ w h; cases h
theorem gIret (t : BitVec 2) (d a b : BitVec 4) : Statement (.gIret t d a b) := by intro _ w h; cases h
theorem gWfi (t : BitVec 2) (d a b : BitVec 4) : Statement (.gWfi t d a b) := by intro _ w h; cases h
theorem tileInsnComplete (sad : BitVec 1) (hw : HwFault) :
    Statement (.tileInsnComplete sad hw) := by intro _ w h; cases h
theorem saddleSwitch (sad : BitVec 1) : Statement (.saddleSwitch sad) := by intro _ w h; cases h
theorem bufwaitExpiry : Statement (.bufwaitExpiry) := by intro _ w h; cases h
theorem runStart (sad : BitVec 1) : Statement (.runStart sad) := by intro _ w h; cases h
theorem runInsnStart (sad : BitVec 1) (hw : HwFault) (after : BitVec 32) :
    Statement (.runInsnStart sad hw after) := by intro _ w h; cases h
theorem runReplay (sad : BitVec 1) : Statement (.runReplay sad) := by intro _ w h; cases h
theorem runEnd (sad : BitVec 1) : Statement (.runEnd sad) := by intro _ w h; cases h
theorem runTimingLimit (sad : BitVec 1) : Statement (.runTimingLimit sad) := by intro _ w h; cases h
theorem preemptSwitchOut (sad : BitVec 1) : Statement (.preemptSwitchOut sad) := by intro _ w h; cases h
theorem preemptSwitchBack (sad : BitVec 1) : Statement (.preemptSwitchBack sad) := by intro _ w h; cases h
theorem runPauseTaken (sad : BitVec 1) : Statement (.runPauseTaken sad) := by intro _ w h; cases h
theorem runAbandon (sad : BitVec 1) : Statement (.runAbandon sad) := by intro _ w h; cases h
theorem schedDecide : Statement (.schedDecide) := by intro _ w h; cases h
theorem contextSwitch (err : StallErr) : Statement (.contextSwitch err) := by intro _ w h; cases h
theorem alertDelivery : Statement (.alertDelivery) := by intro _ w h; cases h
theorem stallFill : Statement (.stallFill) := by intro _ w h; cases h
theorem stallOverflow : Statement (.stallOverflow) := by intro _ w h; cases h
theorem sliceExpiry : Statement (.sliceExpiry) := by intro _ w h; cases h
theorem timerFire (c : BitVec 10) : Statement (.timerFire c) := by intro _ w h; cases h
theorem doorbell (who : Requester) (q : BitVec 12) (lanes : Lanes) (data : Word) :
    Statement (.doorbell who q lanes data) := by intro _ w h; cases h
theorem qtake (who : Requester) (q : BitVec 12) (lanes : Lanes) :
    Statement (.qtake who q lanes) := by intro _ w h; cases h
theorem qtakeany (who : Requester) (lanes : Lanes) : Statement (.qtakeany who lanes) := by intro _ w h; cases h
theorem qdone (who : Requester) (q : BitVec 12) (lanes : Lanes) (v : TVal) :
    Statement (.qdone who q lanes v) := by intro _ w h; cases h
theorem queuePortDoorbell (q : BitVec 12) (tail : BitVec 32) :
    Statement (.queuePortDoorbell q tail) := by intro _ w h; cases h
theorem windowOpen (who : Requester) (w : BitVec 10) : Statement (.windowOpen who w) := by intro _ w h; cases h
theorem windowOpened (w : BitVec 10) : Statement (.windowOpened w) := by intro _ w h; cases h
theorem windowClose (who : Requester) (w : BitVec 10) : Statement (.windowClose who w) := by intro _ w h; cases h
theorem windowCloseComplete (w : BitVec 10) : Statement (.windowCloseComplete w) := by intro _ w h; cases h
theorem windowWrite (w : BitVec 11) (gen : BitVec 8) (off : BitVec 20) (data : List (Byte × Bool)) (poison : List Bool) (tag : BitVec 16) :
    Statement (.windowWrite w gen off data poison tag) := by intro _ w h; cases h
theorem gateArrive (who : Requester) : Statement (.gateArrive who) := by intro _ w h; cases h
theorem gateLoad (who : Requester) : Statement (.gateLoad who) := by intro _ w h; cases h
theorem gateUnload (who : Requester) : Statement (.gateUnload who) := by intro _ w h; cases h
theorem gateInRise : Statement (.gateInRise) := by intro _ w h; cases h
theorem gateRelease : Statement (.gateRelease) := by intro _ w h; cases h
theorem gateTimeout : Statement (.gateTimeout) := by intro _ w h; cases h
theorem memPortResponse (tag : BitVec 8) (write : Bool) (block : BitVec 44) (lmask : BitVec 2) (resp : PortResp) (data : List Byte) (pmask : BitVec 16) :
    Statement (.memPortResponse tag write block lmask resp data pmask) := by intro _ w h; cases h
theorem snoopInvalidate (line : BitVec 45) (tag : BitVec 8) :
    Statement (.snoopInvalidate line tag) := by intro _ w h; cases h
theorem snoopRead (line : BitVec 45) (tag : BitVec 8) : Statement (.snoopRead line tag) := by intro _ w h; cases h
theorem bufReadData (port : BitVec 3) (chunk : BitVec 28) (data : List Byte) (rpoison : BitVec 32) (rerr : Bool) :
    Statement (.bufReadData port chunk data rpoison rerr) := by intro _ w h; cases h
theorem bufWriteAck (port : BitVec 2) (chunk : BitVec 28) (len : BitVec 5) (aerr : Bool) :
    Statement (.bufWriteAck port chunk len aerr) := by intro _ w h; cases h
theorem rcResponse (tag : BitVec 16) : Statement (.rcResponse tag) := by intro _ w h; cases h
theorem streamRowDone (eng : BitVec 4) (slot : BitVec 3) : Statement (.streamRowDone eng slot) := by intro _ w h; cases h
theorem streamDone (eng : BitVec 4) (slot : BitVec 3) (status : BitVec 8) (rows : BitVec 25) (pchunks : BitVec 16) :
    Statement (.streamDone eng slot status rows pchunks) := by intro _ w h; cases h
theorem streamWatchdog (c : BitVec 10) : Statement (.streamWatchdog c) := by intro _ w h; cases h
theorem wayDisable (cache : CacheId) (way : BitVec 4) (err : CacheErr) :
    Statement (.wayDisable cache way err) := by intro _ w h; cases h
theorem mbGo (who : Requester) (m : BitVec 5) : Statement (.mbGo who m) := by intro _ w h; cases h
theorem mbAbort (who : Requester) (m : BitVec 5) : Statement (.mbAbort who m) := by intro _ w h; cases h
theorem info (m : BitVec 5) : Statement (.info m) := by intro _ w h; cases h
theorem cfgStage (m : BitVec 5) : Statement (.cfgStage m) := by intro _ w h; cases h
theorem cfgCommit (m : BitVec 5) : Statement (.cfgCommit m) := by intro _ w h; cases h
theorem cfgCommitDeadline (m : BitVec 5) : Statement (.cfgCommitDeadline m) := by intro _ w h; cases h
theorem gatePoint : Statement (.gatePoint) := by intro _ w h; cases h
theorem cfgDiscard (m : BitVec 5) : Statement (.cfgDiscard m) := by intro _ w h; cases h
theorem cfgRead (m : BitVec 5) : Statement (.cfgRead m) := by intro _ w h; cases h
theorem ctxStart (m : BitVec 5) : Statement (.ctxStart m) := by intro _ w h; cases h
theorem ctxStop (m : BitVec 5) : Statement (.ctxStop m) := by intro _ w h; cases h
theorem ctxStopGraceEnd (m : BitVec 5) : Statement (.ctxStopGraceEnd m) := by intro _ w h; cases h
theorem ctxRemove (m : BitVec 5) : Statement (.ctxRemove m) := by intro _ w h; cases h
theorem ctxQuery (m : BitVec 5) : Statement (.ctxQuery m) := by intro _ w h; cases h
theorem alertPost (m : BitVec 5) : Statement (.alertPost m) := by intro _ w h; cases h
theorem rsvSetup (m : BitVec 5) : Statement (.rsvSetup m) := by intro _ w h; cases h
theorem runPause (m : BitVec 5) : Statement (.runPause m) := by intro _ w h; cases h
theorem runPark (m : BitVec 5) : Statement (.runPark m) := by intro _ w h; cases h
theorem runResume (m : BitVec 5) : Statement (.runResume m) := by intro _ w h; cases h
theorem runCancel (m : BitVec 5) : Statement (.runCancel m) := by intro _ w h; cases h
theorem waymapRead (m : BitVec 5) : Statement (.waymapRead m) := by intro _ w h; cases h
theorem waymapClear (m : BitVec 5) : Statement (.waymapClear m) := by intro _ w h; cases h
theorem tackRead (m : BitVec 5) : Statement (.tackRead m) := by intro _ w h; cases h
theorem tackWrite (m : BitVec 5) : Statement (.tackWrite m) := by intro _ w h; cases h
theorem gateCal (m : BitVec 5) : Statement (.gateCal m) := by intro _ w h; cases h
theorem licenseeCommand (m : BitVec 5) : Statement (.licenseeCommand m) := by intro _ w h; cases h
theorem extTimeout (m : BitVec 5) : Statement (.extTimeout m) := by intro _ w h; cases h
theorem regWrite (who : Requester) (space : RegSpace) (off : BitVec 24) (lanes : Lanes) (op : RegOp) :
    Statement (.regWrite who space off lanes op) := by intro _ w h; cases h
theorem errAdv (who : Requester) : Statement (.errAdv who) := by intro _ w h; cases h
theorem grestart (who : Requester) : Statement (.grestart who) := by intro _ w h; cases h
theorem groomRestart (reason : RestartReason) (t : BitVec 2) :
    Statement (.groomRestart reason t) := by intro _ w h; cases h
theorem bridleReady : Statement (.bridleReady) := by intro _ w h; cases h
theorem tkRegWriteLow (t : BitVec 2) (n : BitVec 9) (v : Half) :
    Statement (.tkRegWriteLow t n v) := by intro _ w h; cases h
theorem tkRegWriteHigh (t : BitVec 2) (n : BitVec 9) (v : Half) :
    Statement (.tkRegWriteHigh t n v) := by intro _ w h; cases h
theorem tackCommit (failA failB : BitVec 2) : Statement (.tackCommit failA failB) := by intro _ w h; cases h
theorem tkSeal (t : BitVec 2) : Statement (.tkSeal t) := by intro _ w h; cases h
theorem tackAutoSeal : Statement (.tackAutoSeal) := by intro _ w h; cases h
theorem pmcClear (who : Requester) : Statement (.pmcClear who) := by intro _ w h; cases h
theorem fwloadGo (cls : BitVec 2) (v : Word) : Statement (.fwloadGo cls v) := by intro _ w h; cases h
theorem poresetAssert (cut : CommitCut) : Statement (.poresetAssert cut) := by intro _ w h; cases h
theorem poresetRelease (straps : Straps) (test : SelfTest) :
    Statement (.poresetRelease straps test) := by intro _ w h; cases h
theorem pllLock (band icp : BitVec 6) (fwValid : Bool) : Statement (.pllLock band icp fwValid) := by intro _ w h; cases h
theorem pwrfailAssert : Statement (.pwrfailAssert) := by intro _ w h; cases h
theorem pwrfailSequenceEnd : Statement (.pwrfailSequenceEnd) := by intro _ w h; cases h
theorem pfDone : Statement (.pfDone) := by intro _ w h; cases h
theorem thermalSample (temp : BitVec 8) (thermN : Bool) :
    Statement (.thermalSample temp thermN) := by intro _ w h; cases h
theorem thermNAssert : Statement (.thermNAssert) := by intro _ w h; cases h
theorem ptelSample (mw : BitVec 20) : Statement (.ptelSample mw) := by intro _ w h; cases h
theorem pacingWindow : Statement (.pacingWindow) := by intro _ w h; cases h
theorem licIrq (n : BitVec 3) (level : Bool) : Statement (.licIrq n level) := by intro _ w h; cases h
theorem groomDivComplete : Statement (.groomDivComplete) := by intro _ w h; cases h
theorem groomAccessResponse (t : BitVec 2) : Statement (.groomAccessResponse t) := by intro _ w h; cases h
theorem groomInterruptEntry (t : BitVec 2) : Statement (.groomInterruptEntry t) := by intro _ w h; cases h
theorem groomMachineCheck (why : MachineCheck) : Statement (.groomMachineCheck why) := by intro _ w h; cases h
theorem groomTimerExpiry (n : BitVec 2) : Statement (.groomTimerExpiry n) := by intro _ w h; cases h
theorem iset (t : BitVec 2) (v : Half) : Statement (.iset t v) := by intro _ w h; cases h
theorem hashDone : Statement (.hashDone) := by intro _ w h; cases h
theorem wsBypass : Statement (.wsBypass) := by intro _ w h; cases h
theorem wsExtest (cells : List Bool) : Statement (.wsExtest cells) := by intro _ w h; cases h
theorem wsIntest (cells : List Bool) : Statement (.wsIntest cells) := by intro _ w h; cases h
theorem wsScan : Statement (.wsScan) := by intro _ w h; cases h
theorem wsMbist : Statement (.wsMbist) := by intro _ w h; cases h
theorem gateInFall : Statement (.gateInFall) := by intro _ w h; cases h
theorem mailboxAccessRefused (who : Requester) (off : BitVec 24) :
    Statement (.mailboxAccessRefused who off) := by intro _ w h; cases h

end OpNonzero

end Sys2Proof.Laws
end

