-- ==== Sys2Proof/Laws/Ports.lean ====
section
/-! SUPPORT. What a request of a memory access port and a change of the Tack controller can do: nothing but the ports (R509). -/

namespace Sys2Proof.Machine

theorem State.maLines_ports (s : State) (op : Nat) (ls : List Nat) (wd : List (Nat × Byte)) (wp : List Nat) :
    s.maLines op ls wd wp = { s with ports := (s.maLines op ls wd wp).ports } := by
  cases ls <;> rfl

/-- A fold of steps that change the ports alone changes the ports alone. -/
theorem foldl_ports {α : Type} (f : State → α → State) (h : ∀ s x, f s x = { s with ports := (f s x).ports }) (xs : List α)
    (s : State) : xs.foldl f s = { s with ports := (xs.foldl f s).ports } := by
  induction xs generalizing s with
  | nil => rfl
  | cons x xs ih =>
    rw [List.foldl_cons, ih (f s x)]
    generalize (xs.foldl f (f s x)).ports = p
    rw [h s x]

theorem State.readRequests_ports (s : State) (ls : List Nat) :
    s.readRequests ls = { s with ports := (s.readRequests ls).ports } :=
  foldl_ports _ (fun s _ => s.maLines_ports 0 _ [] []) _ s

@[simp] theorem State.readRequests_mem (s : State) (ls : List Nat) : (s.readRequests ls).mem = s.mem := by
  rw [State.readRequests_ports]

@[simp] theorem State.readRequests_core (s : State) (ls : List Nat) : (s.readRequests ls).core = s.core := by
  rw [State.readRequests_ports]

@[simp] theorem State.readRequests_groom (s : State) (ls : List Nat) : (s.readRequests ls).groom = s.groom := by
  rw [State.readRequests_ports]

@[simp] theorem State.readRequests_caches (s : State) (ls : List Nat) : (s.readRequests ls).caches = s.caches := by
  rw [State.readRequests_ports]

theorem State.unitRequest_ports (s : State) (l o : Nat) (bs : List Byte) (p : Bool) :
    s.unitRequest l o bs p = { s with ports := (s.unitRequest l o bs p).ports } := by
  unfold State.unitRequest
  split
  · rfl
  · exact s.maLines_ports 1 [l] _ _

@[simp] theorem State.setTack_tack (s : State) (k : Tack) : (s.setTack k).tack = k := rfl
@[simp] theorem State.setTack_groom (s : State) (k : Tack) : (s.setTack k).groom = s.groom := rfl
@[simp] theorem State.setTack_cfg (s : State) (k : Tack) : (s.setTack k).cfg = s.cfg := rfl
@[simp] theorem State.setTack_ras (s : State) (k : Tack) : (s.setTack k).ras = s.ras := rfl
@[simp] theorem State.setTack_mem (s : State) (k : Tack) : (s.setTack k).mem = s.mem := rfl
@[simp] theorem State.setTack_csN (s : State) (k : Tack) : (s.setTack k).ports.tkCsN = k.queue.isEmpty := rfl

end Sys2Proof.Machine
end

