-- ==== Sys2Proof/Laws/State.lean ====
section
/-! SUPPORT. What each named update of State leaves: every field that it does not change, by computation, and what it reads
afterwards at the place it changed. -/

namespace Sys2Proof.Machine

variable (s : State)

/-! ### setCtx changes core only -/

@[simp] theorem State.setCtx_pending (n : Nat) (c : Ctx) : (s.setCtx n c).pending = s.pending := rfl
@[simp] theorem State.setCtx_now (n : Nat) (c : Ctx) : (s.setCtx n c).now = s.now := rfl
@[simp] theorem State.setCtx_gcount (n : Nat) (c : Ctx) : (s.setCtx n c).gcount = s.gcount := rfl
@[simp] theorem State.setCtx_free (n : Nat) (c : Ctx) : (s.setCtx n c).free = s.free := rfl
@[simp] theorem State.setCtx_tile (n : Nat) (c : Ctx) : (s.setCtx n c).tile = s.tile := rfl
@[simp] theorem State.setCtx_runs (n : Nat) (c : Ctx) : (s.setCtx n c).runs = s.runs := rfl
@[simp] theorem State.setCtx_mem (n : Nat) (c : Ctx) : (s.setCtx n c).mem = s.mem := rfl
@[simp] theorem State.setCtx_buf (n : Nat) (c : Ctx) : (s.setCtx n c).buf = s.buf := rfl
@[simp] theorem State.setCtx_streams (n : Nat) (c : Ctx) : (s.setCtx n c).streams = s.streams := rfl
@[simp] theorem State.setCtx_queues (n : Nat) (c : Ctx) : (s.setCtx n c).queues = s.queues := rfl
@[simp] theorem State.setCtx_windows (n : Nat) (c : Ctx) : (s.setCtx n c).windows = s.windows := rfl
@[simp] theorem State.setCtx_gate (n : Nat) (c : Ctx) : (s.setCtx n c).gate = s.gate := rfl
@[simp] theorem State.setCtx_mboxes (n : Nat) (c : Ctx) : (s.setCtx n c).mboxes = s.mboxes := rfl
@[simp] theorem State.setCtx_bridle (n : Nat) (c : Ctx) : (s.setCtx n c).bridle = s.bridle := rfl
@[simp] theorem State.setCtx_cfg (n : Nat) (c : Ctx) : (s.setCtx n c).cfg = s.cfg := rfl
@[simp] theorem State.setCtx_ras (n : Nat) (c : Ctx) : (s.setCtx n c).ras = s.ras := rfl
@[simp] theorem State.setCtx_tack (n : Nat) (c : Ctx) : (s.setCtx n c).tack = s.tack := rfl
@[simp] theorem State.setCtx_groom (n : Nat) (c : Ctx) : (s.setCtx n c).groom = s.groom := rfl
@[simp] theorem State.setCtx_power (n : Nat) (c : Ctx) : (s.setCtx n c).power = s.power := rfl
@[simp] theorem State.setCtx_boot (n : Nat) (c : Ctx) : (s.setCtx n c).boot = s.boot := rfl
@[simp] theorem State.setCtx_pmc (n : Nat) (c : Ctx) : (s.setCtx n c).pmc = s.pmc := rfl
@[simp] theorem State.setCtx_wir (n : Nat) (c : Ctx) : (s.setCtx n c).wir = s.wir := rfl
@[simp] theorem State.setCtx_caches (n : Nat) (c : Ctx) : (s.setCtx n c).caches = s.caches := rfl
@[simp] theorem State.setCtx_ports (n : Nat) (c : Ctx) : (s.setCtx n c).ports = s.ports := rfl

/-! ### modCtx changes core only -/

@[simp] theorem State.modCtx_pending (n : Nat) (f : Ctx → Ctx) : (s.modCtx n f).pending = s.pending := rfl
@[simp] theorem State.modCtx_now (n : Nat) (f : Ctx → Ctx) : (s.modCtx n f).now = s.now := rfl
@[simp] theorem State.modCtx_gcount (n : Nat) (f : Ctx → Ctx) : (s.modCtx n f).gcount = s.gcount := rfl
@[simp] theorem State.modCtx_free (n : Nat) (f : Ctx → Ctx) : (s.modCtx n f).free = s.free := rfl
@[simp] theorem State.modCtx_tile (n : Nat) (f : Ctx → Ctx) : (s.modCtx n f).tile = s.tile := rfl
@[simp] theorem State.modCtx_runs (n : Nat) (f : Ctx → Ctx) : (s.modCtx n f).runs = s.runs := rfl
@[simp] theorem State.modCtx_mem (n : Nat) (f : Ctx → Ctx) : (s.modCtx n f).mem = s.mem := rfl
@[simp] theorem State.modCtx_buf (n : Nat) (f : Ctx → Ctx) : (s.modCtx n f).buf = s.buf := rfl
@[simp] theorem State.modCtx_streams (n : Nat) (f : Ctx → Ctx) : (s.modCtx n f).streams = s.streams := rfl
@[simp] theorem State.modCtx_queues (n : Nat) (f : Ctx → Ctx) : (s.modCtx n f).queues = s.queues := rfl
@[simp] theorem State.modCtx_windows (n : Nat) (f : Ctx → Ctx) : (s.modCtx n f).windows = s.windows := rfl
@[simp] theorem State.modCtx_gate (n : Nat) (f : Ctx → Ctx) : (s.modCtx n f).gate = s.gate := rfl
@[simp] theorem State.modCtx_mboxes (n : Nat) (f : Ctx → Ctx) : (s.modCtx n f).mboxes = s.mboxes := rfl
@[simp] theorem State.modCtx_bridle (n : Nat) (f : Ctx → Ctx) : (s.modCtx n f).bridle = s.bridle := rfl
@[simp] theorem State.modCtx_cfg (n : Nat) (f : Ctx → Ctx) : (s.modCtx n f).cfg = s.cfg := rfl
@[simp] theorem State.modCtx_ras (n : Nat) (f : Ctx → Ctx) : (s.modCtx n f).ras = s.ras := rfl
@[simp] theorem State.modCtx_tack (n : Nat) (f : Ctx → Ctx) : (s.modCtx n f).tack = s.tack := rfl
@[simp] theorem State.modCtx_groom (n : Nat) (f : Ctx → Ctx) : (s.modCtx n f).groom = s.groom := rfl
@[simp] theorem State.modCtx_power (n : Nat) (f : Ctx → Ctx) : (s.modCtx n f).power = s.power := rfl
@[simp] theorem State.modCtx_boot (n : Nat) (f : Ctx → Ctx) : (s.modCtx n f).boot = s.boot := rfl
@[simp] theorem State.modCtx_pmc (n : Nat) (f : Ctx → Ctx) : (s.modCtx n f).pmc = s.pmc := rfl
@[simp] theorem State.modCtx_wir (n : Nat) (f : Ctx → Ctx) : (s.modCtx n f).wir = s.wir := rfl
@[simp] theorem State.modCtx_caches (n : Nat) (f : Ctx → Ctx) : (s.modCtx n f).caches = s.caches := rfl
@[simp] theorem State.modCtx_ports (n : Nat) (f : Ctx → Ctx) : (s.modCtx n f).ports = s.ports := rfl

/-! ### setStall changes core only -/

@[simp] theorem State.setStall_pending (k : Nat) (t : Stall) : (s.setStall k t).pending = s.pending := rfl
@[simp] theorem State.setStall_now (k : Nat) (t : Stall) : (s.setStall k t).now = s.now := rfl
@[simp] theorem State.setStall_gcount (k : Nat) (t : Stall) : (s.setStall k t).gcount = s.gcount := rfl
@[simp] theorem State.setStall_free (k : Nat) (t : Stall) : (s.setStall k t).free = s.free := rfl
@[simp] theorem State.setStall_tile (k : Nat) (t : Stall) : (s.setStall k t).tile = s.tile := rfl
@[simp] theorem State.setStall_runs (k : Nat) (t : Stall) : (s.setStall k t).runs = s.runs := rfl
@[simp] theorem State.setStall_mem (k : Nat) (t : Stall) : (s.setStall k t).mem = s.mem := rfl
@[simp] theorem State.setStall_buf (k : Nat) (t : Stall) : (s.setStall k t).buf = s.buf := rfl
@[simp] theorem State.setStall_streams (k : Nat) (t : Stall) : (s.setStall k t).streams = s.streams := rfl
@[simp] theorem State.setStall_queues (k : Nat) (t : Stall) : (s.setStall k t).queues = s.queues := rfl
@[simp] theorem State.setStall_windows (k : Nat) (t : Stall) : (s.setStall k t).windows = s.windows := rfl
@[simp] theorem State.setStall_gate (k : Nat) (t : Stall) : (s.setStall k t).gate = s.gate := rfl
@[simp] theorem State.setStall_mboxes (k : Nat) (t : Stall) : (s.setStall k t).mboxes = s.mboxes := rfl
@[simp] theorem State.setStall_bridle (k : Nat) (t : Stall) : (s.setStall k t).bridle = s.bridle := rfl
@[simp] theorem State.setStall_cfg (k : Nat) (t : Stall) : (s.setStall k t).cfg = s.cfg := rfl
@[simp] theorem State.setStall_ras (k : Nat) (t : Stall) : (s.setStall k t).ras = s.ras := rfl
@[simp] theorem State.setStall_tack (k : Nat) (t : Stall) : (s.setStall k t).tack = s.tack := rfl
@[simp] theorem State.setStall_groom (k : Nat) (t : Stall) : (s.setStall k t).groom = s.groom := rfl
@[simp] theorem State.setStall_power (k : Nat) (t : Stall) : (s.setStall k t).power = s.power := rfl
@[simp] theorem State.setStall_boot (k : Nat) (t : Stall) : (s.setStall k t).boot = s.boot := rfl
@[simp] theorem State.setStall_pmc (k : Nat) (t : Stall) : (s.setStall k t).pmc = s.pmc := rfl
@[simp] theorem State.setStall_wir (k : Nat) (t : Stall) : (s.setStall k t).wir = s.wir := rfl
@[simp] theorem State.setStall_caches (k : Nat) (t : Stall) : (s.setStall k t).caches = s.caches := rfl
@[simp] theorem State.setStall_ports (k : Nat) (t : Stall) : (s.setStall k t).ports = s.ports := rfl

/-! ### modStall changes core only -/

@[simp] theorem State.modStall_pending (k : Nat) (f : Stall → Stall) : (s.modStall k f).pending = s.pending := rfl
@[simp] theorem State.modStall_now (k : Nat) (f : Stall → Stall) : (s.modStall k f).now = s.now := rfl
@[simp] theorem State.modStall_gcount (k : Nat) (f : Stall → Stall) : (s.modStall k f).gcount = s.gcount := rfl
@[simp] theorem State.modStall_free (k : Nat) (f : Stall → Stall) : (s.modStall k f).free = s.free := rfl
@[simp] theorem State.modStall_tile (k : Nat) (f : Stall → Stall) : (s.modStall k f).tile = s.tile := rfl
@[simp] theorem State.modStall_runs (k : Nat) (f : Stall → Stall) : (s.modStall k f).runs = s.runs := rfl
@[simp] theorem State.modStall_mem (k : Nat) (f : Stall → Stall) : (s.modStall k f).mem = s.mem := rfl
@[simp] theorem State.modStall_buf (k : Nat) (f : Stall → Stall) : (s.modStall k f).buf = s.buf := rfl
@[simp] theorem State.modStall_streams (k : Nat) (f : Stall → Stall) : (s.modStall k f).streams = s.streams := rfl
@[simp] theorem State.modStall_queues (k : Nat) (f : Stall → Stall) : (s.modStall k f).queues = s.queues := rfl
@[simp] theorem State.modStall_windows (k : Nat) (f : Stall → Stall) : (s.modStall k f).windows = s.windows := rfl
@[simp] theorem State.modStall_gate (k : Nat) (f : Stall → Stall) : (s.modStall k f).gate = s.gate := rfl
@[simp] theorem State.modStall_mboxes (k : Nat) (f : Stall → Stall) : (s.modStall k f).mboxes = s.mboxes := rfl
@[simp] theorem State.modStall_bridle (k : Nat) (f : Stall → Stall) : (s.modStall k f).bridle = s.bridle := rfl
@[simp] theorem State.modStall_cfg (k : Nat) (f : Stall → Stall) : (s.modStall k f).cfg = s.cfg := rfl
@[simp] theorem State.modStall_ras (k : Nat) (f : Stall → Stall) : (s.modStall k f).ras = s.ras := rfl
@[simp] theorem State.modStall_tack (k : Nat) (f : Stall → Stall) : (s.modStall k f).tack = s.tack := rfl
@[simp] theorem State.modStall_groom (k : Nat) (f : Stall → Stall) : (s.modStall k f).groom = s.groom := rfl
@[simp] theorem State.modStall_power (k : Nat) (f : Stall → Stall) : (s.modStall k f).power = s.power := rfl
@[simp] theorem State.modStall_boot (k : Nat) (f : Stall → Stall) : (s.modStall k f).boot = s.boot := rfl
@[simp] theorem State.modStall_pmc (k : Nat) (f : Stall → Stall) : (s.modStall k f).pmc = s.pmc := rfl
@[simp] theorem State.modStall_wir (k : Nat) (f : Stall → Stall) : (s.modStall k f).wir = s.wir := rfl
@[simp] theorem State.modStall_caches (k : Nat) (f : Stall → Stall) : (s.modStall k f).caches = s.caches := rfl
@[simp] theorem State.modStall_ports (k : Nat) (f : Stall → Stall) : (s.modStall k f).ports = s.ports := rfl

/-! ### modCur changes core only -/

@[simp] theorem State.modCur_pending (f : Stall → Stall) : (s.modCur f).pending = s.pending := rfl
@[simp] theorem State.modCur_now (f : Stall → Stall) : (s.modCur f).now = s.now := rfl
@[simp] theorem State.modCur_gcount (f : Stall → Stall) : (s.modCur f).gcount = s.gcount := rfl
@[simp] theorem State.modCur_free (f : Stall → Stall) : (s.modCur f).free = s.free := rfl
@[simp] theorem State.modCur_tile (f : Stall → Stall) : (s.modCur f).tile = s.tile := rfl
@[simp] theorem State.modCur_runs (f : Stall → Stall) : (s.modCur f).runs = s.runs := rfl
@[simp] theorem State.modCur_mem (f : Stall → Stall) : (s.modCur f).mem = s.mem := rfl
@[simp] theorem State.modCur_buf (f : Stall → Stall) : (s.modCur f).buf = s.buf := rfl
@[simp] theorem State.modCur_streams (f : Stall → Stall) : (s.modCur f).streams = s.streams := rfl
@[simp] theorem State.modCur_queues (f : Stall → Stall) : (s.modCur f).queues = s.queues := rfl
@[simp] theorem State.modCur_windows (f : Stall → Stall) : (s.modCur f).windows = s.windows := rfl
@[simp] theorem State.modCur_gate (f : Stall → Stall) : (s.modCur f).gate = s.gate := rfl
@[simp] theorem State.modCur_mboxes (f : Stall → Stall) : (s.modCur f).mboxes = s.mboxes := rfl
@[simp] theorem State.modCur_bridle (f : Stall → Stall) : (s.modCur f).bridle = s.bridle := rfl
@[simp] theorem State.modCur_cfg (f : Stall → Stall) : (s.modCur f).cfg = s.cfg := rfl
@[simp] theorem State.modCur_ras (f : Stall → Stall) : (s.modCur f).ras = s.ras := rfl
@[simp] theorem State.modCur_tack (f : Stall → Stall) : (s.modCur f).tack = s.tack := rfl
@[simp] theorem State.modCur_groom (f : Stall → Stall) : (s.modCur f).groom = s.groom := rfl
@[simp] theorem State.modCur_power (f : Stall → Stall) : (s.modCur f).power = s.power := rfl
@[simp] theorem State.modCur_boot (f : Stall → Stall) : (s.modCur f).boot = s.boot := rfl
@[simp] theorem State.modCur_pmc (f : Stall → Stall) : (s.modCur f).pmc = s.pmc := rfl
@[simp] theorem State.modCur_wir (f : Stall → Stall) : (s.modCur f).wir = s.wir := rfl
@[simp] theorem State.modCur_caches (f : Stall → Stall) : (s.modCur f).caches = s.caches := rfl
@[simp] theorem State.modCur_ports (f : Stall → Stall) : (s.modCur f).ports = s.ports := rfl

/-! ### setReg changes core only -/

@[simp] theorem State.setReg_pending (r : Reg) (v : TVal) : (s.setReg r v).pending = s.pending := rfl
@[simp] theorem State.setReg_now (r : Reg) (v : TVal) : (s.setReg r v).now = s.now := rfl
@[simp] theorem State.setReg_gcount (r : Reg) (v : TVal) : (s.setReg r v).gcount = s.gcount := rfl
@[simp] theorem State.setReg_free (r : Reg) (v : TVal) : (s.setReg r v).free = s.free := rfl
@[simp] theorem State.setReg_tile (r : Reg) (v : TVal) : (s.setReg r v).tile = s.tile := rfl
@[simp] theorem State.setReg_runs (r : Reg) (v : TVal) : (s.setReg r v).runs = s.runs := rfl
@[simp] theorem State.setReg_mem (r : Reg) (v : TVal) : (s.setReg r v).mem = s.mem := rfl
@[simp] theorem State.setReg_buf (r : Reg) (v : TVal) : (s.setReg r v).buf = s.buf := rfl
@[simp] theorem State.setReg_streams (r : Reg) (v : TVal) : (s.setReg r v).streams = s.streams := rfl
@[simp] theorem State.setReg_queues (r : Reg) (v : TVal) : (s.setReg r v).queues = s.queues := rfl
@[simp] theorem State.setReg_windows (r : Reg) (v : TVal) : (s.setReg r v).windows = s.windows := rfl
@[simp] theorem State.setReg_gate (r : Reg) (v : TVal) : (s.setReg r v).gate = s.gate := rfl
@[simp] theorem State.setReg_mboxes (r : Reg) (v : TVal) : (s.setReg r v).mboxes = s.mboxes := rfl
@[simp] theorem State.setReg_bridle (r : Reg) (v : TVal) : (s.setReg r v).bridle = s.bridle := rfl
@[simp] theorem State.setReg_cfg (r : Reg) (v : TVal) : (s.setReg r v).cfg = s.cfg := rfl
@[simp] theorem State.setReg_ras (r : Reg) (v : TVal) : (s.setReg r v).ras = s.ras := rfl
@[simp] theorem State.setReg_tack (r : Reg) (v : TVal) : (s.setReg r v).tack = s.tack := rfl
@[simp] theorem State.setReg_groom (r : Reg) (v : TVal) : (s.setReg r v).groom = s.groom := rfl
@[simp] theorem State.setReg_power (r : Reg) (v : TVal) : (s.setReg r v).power = s.power := rfl
@[simp] theorem State.setReg_boot (r : Reg) (v : TVal) : (s.setReg r v).boot = s.boot := rfl
@[simp] theorem State.setReg_pmc (r : Reg) (v : TVal) : (s.setReg r v).pmc = s.pmc := rfl
@[simp] theorem State.setReg_wir (r : Reg) (v : TVal) : (s.setReg r v).wir = s.wir := rfl
@[simp] theorem State.setReg_caches (r : Reg) (v : TVal) : (s.setReg r v).caches = s.caches := rfl
@[simp] theorem State.setReg_ports (r : Reg) (v : TVal) : (s.setReg r v).ports = s.ports := rfl

/-! ### trigger changes core only -/

@[simp] theorem State.trigger_pending : (s.trigger).pending = s.pending := rfl
@[simp] theorem State.trigger_now : (s.trigger).now = s.now := rfl
@[simp] theorem State.trigger_gcount : (s.trigger).gcount = s.gcount := rfl
@[simp] theorem State.trigger_free : (s.trigger).free = s.free := rfl
@[simp] theorem State.trigger_tile : (s.trigger).tile = s.tile := rfl
@[simp] theorem State.trigger_runs : (s.trigger).runs = s.runs := rfl
@[simp] theorem State.trigger_mem : (s.trigger).mem = s.mem := rfl
@[simp] theorem State.trigger_buf : (s.trigger).buf = s.buf := rfl
@[simp] theorem State.trigger_streams : (s.trigger).streams = s.streams := rfl
@[simp] theorem State.trigger_queues : (s.trigger).queues = s.queues := rfl
@[simp] theorem State.trigger_windows : (s.trigger).windows = s.windows := rfl
@[simp] theorem State.trigger_gate : (s.trigger).gate = s.gate := rfl
@[simp] theorem State.trigger_mboxes : (s.trigger).mboxes = s.mboxes := rfl
@[simp] theorem State.trigger_bridle : (s.trigger).bridle = s.bridle := rfl
@[simp] theorem State.trigger_cfg : (s.trigger).cfg = s.cfg := rfl
@[simp] theorem State.trigger_ras : (s.trigger).ras = s.ras := rfl
@[simp] theorem State.trigger_tack : (s.trigger).tack = s.tack := rfl
@[simp] theorem State.trigger_groom : (s.trigger).groom = s.groom := rfl
@[simp] theorem State.trigger_power : (s.trigger).power = s.power := rfl
@[simp] theorem State.trigger_boot : (s.trigger).boot = s.boot := rfl
@[simp] theorem State.trigger_pmc : (s.trigger).pmc = s.pmc := rfl
@[simp] theorem State.trigger_wir : (s.trigger).wir = s.wir := rfl
@[simp] theorem State.trigger_caches : (s.trigger).caches = s.caches := rfl
@[simp] theorem State.trigger_ports : (s.trigger).ports = s.ports := rfl

/-! ### setHold changes core only -/

@[simp] theorem State.setHold_pending (v : Nat) (h : Hold) : (s.setHold v h).pending = s.pending := rfl
@[simp] theorem State.setHold_now (v : Nat) (h : Hold) : (s.setHold v h).now = s.now := rfl
@[simp] theorem State.setHold_gcount (v : Nat) (h : Hold) : (s.setHold v h).gcount = s.gcount := rfl
@[simp] theorem State.setHold_free (v : Nat) (h : Hold) : (s.setHold v h).free = s.free := rfl
@[simp] theorem State.setHold_tile (v : Nat) (h : Hold) : (s.setHold v h).tile = s.tile := rfl
@[simp] theorem State.setHold_runs (v : Nat) (h : Hold) : (s.setHold v h).runs = s.runs := rfl
@[simp] theorem State.setHold_mem (v : Nat) (h : Hold) : (s.setHold v h).mem = s.mem := rfl
@[simp] theorem State.setHold_buf (v : Nat) (h : Hold) : (s.setHold v h).buf = s.buf := rfl
@[simp] theorem State.setHold_streams (v : Nat) (h : Hold) : (s.setHold v h).streams = s.streams := rfl
@[simp] theorem State.setHold_queues (v : Nat) (h : Hold) : (s.setHold v h).queues = s.queues := rfl
@[simp] theorem State.setHold_windows (v : Nat) (h : Hold) : (s.setHold v h).windows = s.windows := rfl
@[simp] theorem State.setHold_gate (v : Nat) (h : Hold) : (s.setHold v h).gate = s.gate := rfl
@[simp] theorem State.setHold_mboxes (v : Nat) (h : Hold) : (s.setHold v h).mboxes = s.mboxes := rfl
@[simp] theorem State.setHold_bridle (v : Nat) (h : Hold) : (s.setHold v h).bridle = s.bridle := rfl
@[simp] theorem State.setHold_cfg (v : Nat) (h : Hold) : (s.setHold v h).cfg = s.cfg := rfl
@[simp] theorem State.setHold_ras (v : Nat) (h : Hold) : (s.setHold v h).ras = s.ras := rfl
@[simp] theorem State.setHold_tack (v : Nat) (h : Hold) : (s.setHold v h).tack = s.tack := rfl
@[simp] theorem State.setHold_groom (v : Nat) (h : Hold) : (s.setHold v h).groom = s.groom := rfl
@[simp] theorem State.setHold_power (v : Nat) (h : Hold) : (s.setHold v h).power = s.power := rfl
@[simp] theorem State.setHold_boot (v : Nat) (h : Hold) : (s.setHold v h).boot = s.boot := rfl
@[simp] theorem State.setHold_pmc (v : Nat) (h : Hold) : (s.setHold v h).pmc = s.pmc := rfl
@[simp] theorem State.setHold_wir (v : Nat) (h : Hold) : (s.setHold v h).wir = s.wir := rfl
@[simp] theorem State.setHold_caches (v : Nat) (h : Hold) : (s.setHold v h).caches = s.caches := rfl
@[simp] theorem State.setHold_ports (v : Nat) (h : Hold) : (s.setHold v h).ports = s.ports := rfl

/-! ### setQueue changes queues only -/

@[simp] theorem State.setQueue_pending (q : Nat) (u : Queue) : (s.setQueue q u).pending = s.pending := rfl
@[simp] theorem State.setQueue_now (q : Nat) (u : Queue) : (s.setQueue q u).now = s.now := rfl
@[simp] theorem State.setQueue_gcount (q : Nat) (u : Queue) : (s.setQueue q u).gcount = s.gcount := rfl
@[simp] theorem State.setQueue_free (q : Nat) (u : Queue) : (s.setQueue q u).free = s.free := rfl
@[simp] theorem State.setQueue_core (q : Nat) (u : Queue) : (s.setQueue q u).core = s.core := rfl
@[simp] theorem State.setQueue_tile (q : Nat) (u : Queue) : (s.setQueue q u).tile = s.tile := rfl
@[simp] theorem State.setQueue_runs (q : Nat) (u : Queue) : (s.setQueue q u).runs = s.runs := rfl
@[simp] theorem State.setQueue_mem (q : Nat) (u : Queue) : (s.setQueue q u).mem = s.mem := rfl
@[simp] theorem State.setQueue_buf (q : Nat) (u : Queue) : (s.setQueue q u).buf = s.buf := rfl
@[simp] theorem State.setQueue_streams (q : Nat) (u : Queue) : (s.setQueue q u).streams = s.streams := rfl
@[simp] theorem State.setQueue_windows (q : Nat) (u : Queue) : (s.setQueue q u).windows = s.windows := rfl
@[simp] theorem State.setQueue_gate (q : Nat) (u : Queue) : (s.setQueue q u).gate = s.gate := rfl
@[simp] theorem State.setQueue_mboxes (q : Nat) (u : Queue) : (s.setQueue q u).mboxes = s.mboxes := rfl
@[simp] theorem State.setQueue_bridle (q : Nat) (u : Queue) : (s.setQueue q u).bridle = s.bridle := rfl
@[simp] theorem State.setQueue_cfg (q : Nat) (u : Queue) : (s.setQueue q u).cfg = s.cfg := rfl
@[simp] theorem State.setQueue_ras (q : Nat) (u : Queue) : (s.setQueue q u).ras = s.ras := rfl
@[simp] theorem State.setQueue_tack (q : Nat) (u : Queue) : (s.setQueue q u).tack = s.tack := rfl
@[simp] theorem State.setQueue_groom (q : Nat) (u : Queue) : (s.setQueue q u).groom = s.groom := rfl
@[simp] theorem State.setQueue_power (q : Nat) (u : Queue) : (s.setQueue q u).power = s.power := rfl
@[simp] theorem State.setQueue_boot (q : Nat) (u : Queue) : (s.setQueue q u).boot = s.boot := rfl
@[simp] theorem State.setQueue_pmc (q : Nat) (u : Queue) : (s.setQueue q u).pmc = s.pmc := rfl
@[simp] theorem State.setQueue_wir (q : Nat) (u : Queue) : (s.setQueue q u).wir = s.wir := rfl
@[simp] theorem State.setQueue_caches (q : Nat) (u : Queue) : (s.setQueue q u).caches = s.caches := rfl
@[simp] theorem State.setQueue_ports (q : Nat) (u : Queue) : (s.setQueue q u).ports = s.ports := rfl

/-! ### setMbox changes mboxes only -/

@[simp] theorem State.setMbox_pending (m : Nat) (b : Mailbox) : (s.setMbox m b).pending = s.pending := rfl
@[simp] theorem State.setMbox_now (m : Nat) (b : Mailbox) : (s.setMbox m b).now = s.now := rfl
@[simp] theorem State.setMbox_gcount (m : Nat) (b : Mailbox) : (s.setMbox m b).gcount = s.gcount := rfl
@[simp] theorem State.setMbox_free (m : Nat) (b : Mailbox) : (s.setMbox m b).free = s.free := rfl
@[simp] theorem State.setMbox_core (m : Nat) (b : Mailbox) : (s.setMbox m b).core = s.core := rfl
@[simp] theorem State.setMbox_tile (m : Nat) (b : Mailbox) : (s.setMbox m b).tile = s.tile := rfl
@[simp] theorem State.setMbox_runs (m : Nat) (b : Mailbox) : (s.setMbox m b).runs = s.runs := rfl
@[simp] theorem State.setMbox_mem (m : Nat) (b : Mailbox) : (s.setMbox m b).mem = s.mem := rfl
@[simp] theorem State.setMbox_buf (m : Nat) (b : Mailbox) : (s.setMbox m b).buf = s.buf := rfl
@[simp] theorem State.setMbox_streams (m : Nat) (b : Mailbox) : (s.setMbox m b).streams = s.streams := rfl
@[simp] theorem State.setMbox_queues (m : Nat) (b : Mailbox) : (s.setMbox m b).queues = s.queues := rfl
@[simp] theorem State.setMbox_windows (m : Nat) (b : Mailbox) : (s.setMbox m b).windows = s.windows := rfl
@[simp] theorem State.setMbox_gate (m : Nat) (b : Mailbox) : (s.setMbox m b).gate = s.gate := rfl
@[simp] theorem State.setMbox_bridle (m : Nat) (b : Mailbox) : (s.setMbox m b).bridle = s.bridle := rfl
@[simp] theorem State.setMbox_cfg (m : Nat) (b : Mailbox) : (s.setMbox m b).cfg = s.cfg := rfl
@[simp] theorem State.setMbox_ras (m : Nat) (b : Mailbox) : (s.setMbox m b).ras = s.ras := rfl
@[simp] theorem State.setMbox_tack (m : Nat) (b : Mailbox) : (s.setMbox m b).tack = s.tack := rfl
@[simp] theorem State.setMbox_groom (m : Nat) (b : Mailbox) : (s.setMbox m b).groom = s.groom := rfl
@[simp] theorem State.setMbox_power (m : Nat) (b : Mailbox) : (s.setMbox m b).power = s.power := rfl
@[simp] theorem State.setMbox_boot (m : Nat) (b : Mailbox) : (s.setMbox m b).boot = s.boot := rfl
@[simp] theorem State.setMbox_pmc (m : Nat) (b : Mailbox) : (s.setMbox m b).pmc = s.pmc := rfl
@[simp] theorem State.setMbox_wir (m : Nat) (b : Mailbox) : (s.setMbox m b).wir = s.wir := rfl
@[simp] theorem State.setMbox_caches (m : Nat) (b : Mailbox) : (s.setMbox m b).caches = s.caches := rfl
@[simp] theorem State.setMbox_ports (m : Nat) (b : Mailbox) : (s.setMbox m b).ports = s.ports := rfl

/-! ### modMbox changes mboxes only -/

@[simp] theorem State.modMbox_pending (m : Nat) (f : Mailbox → Mailbox) : (s.modMbox m f).pending = s.pending := rfl
@[simp] theorem State.modMbox_now (m : Nat) (f : Mailbox → Mailbox) : (s.modMbox m f).now = s.now := rfl
@[simp] theorem State.modMbox_gcount (m : Nat) (f : Mailbox → Mailbox) : (s.modMbox m f).gcount = s.gcount := rfl
@[simp] theorem State.modMbox_free (m : Nat) (f : Mailbox → Mailbox) : (s.modMbox m f).free = s.free := rfl
@[simp] theorem State.modMbox_core (m : Nat) (f : Mailbox → Mailbox) : (s.modMbox m f).core = s.core := rfl
@[simp] theorem State.modMbox_tile (m : Nat) (f : Mailbox → Mailbox) : (s.modMbox m f).tile = s.tile := rfl
@[simp] theorem State.modMbox_runs (m : Nat) (f : Mailbox → Mailbox) : (s.modMbox m f).runs = s.runs := rfl
@[simp] theorem State.modMbox_mem (m : Nat) (f : Mailbox → Mailbox) : (s.modMbox m f).mem = s.mem := rfl
@[simp] theorem State.modMbox_buf (m : Nat) (f : Mailbox → Mailbox) : (s.modMbox m f).buf = s.buf := rfl
@[simp] theorem State.modMbox_streams (m : Nat) (f : Mailbox → Mailbox) : (s.modMbox m f).streams = s.streams := rfl
@[simp] theorem State.modMbox_queues (m : Nat) (f : Mailbox → Mailbox) : (s.modMbox m f).queues = s.queues := rfl
@[simp] theorem State.modMbox_windows (m : Nat) (f : Mailbox → Mailbox) : (s.modMbox m f).windows = s.windows := rfl
@[simp] theorem State.modMbox_gate (m : Nat) (f : Mailbox → Mailbox) : (s.modMbox m f).gate = s.gate := rfl
@[simp] theorem State.modMbox_bridle (m : Nat) (f : Mailbox → Mailbox) : (s.modMbox m f).bridle = s.bridle := rfl
@[simp] theorem State.modMbox_cfg (m : Nat) (f : Mailbox → Mailbox) : (s.modMbox m f).cfg = s.cfg := rfl
@[simp] theorem State.modMbox_ras (m : Nat) (f : Mailbox → Mailbox) : (s.modMbox m f).ras = s.ras := rfl
@[simp] theorem State.modMbox_tack (m : Nat) (f : Mailbox → Mailbox) : (s.modMbox m f).tack = s.tack := rfl
@[simp] theorem State.modMbox_groom (m : Nat) (f : Mailbox → Mailbox) : (s.modMbox m f).groom = s.groom := rfl
@[simp] theorem State.modMbox_power (m : Nat) (f : Mailbox → Mailbox) : (s.modMbox m f).power = s.power := rfl
@[simp] theorem State.modMbox_boot (m : Nat) (f : Mailbox → Mailbox) : (s.modMbox m f).boot = s.boot := rfl
@[simp] theorem State.modMbox_pmc (m : Nat) (f : Mailbox → Mailbox) : (s.modMbox m f).pmc = s.pmc := rfl
@[simp] theorem State.modMbox_wir (m : Nat) (f : Mailbox → Mailbox) : (s.modMbox m f).wir = s.wir := rfl
@[simp] theorem State.modMbox_caches (m : Nat) (f : Mailbox → Mailbox) : (s.modMbox m f).caches = s.caches := rfl
@[simp] theorem State.modMbox_ports (m : Nat) (f : Mailbox → Mailbox) : (s.modMbox m f).ports = s.ports := rfl

/-! ### setStream changes streams only -/

@[simp] theorem State.setStream_pending (k : Nat) (t : StreamSlot) : (s.setStream k t).pending = s.pending := rfl
@[simp] theorem State.setStream_now (k : Nat) (t : StreamSlot) : (s.setStream k t).now = s.now := rfl
@[simp] theorem State.setStream_gcount (k : Nat) (t : StreamSlot) : (s.setStream k t).gcount = s.gcount := rfl
@[simp] theorem State.setStream_free (k : Nat) (t : StreamSlot) : (s.setStream k t).free = s.free := rfl
@[simp] theorem State.setStream_core (k : Nat) (t : StreamSlot) : (s.setStream k t).core = s.core := rfl
@[simp] theorem State.setStream_tile (k : Nat) (t : StreamSlot) : (s.setStream k t).tile = s.tile := rfl
@[simp] theorem State.setStream_runs (k : Nat) (t : StreamSlot) : (s.setStream k t).runs = s.runs := rfl
@[simp] theorem State.setStream_mem (k : Nat) (t : StreamSlot) : (s.setStream k t).mem = s.mem := rfl
@[simp] theorem State.setStream_buf (k : Nat) (t : StreamSlot) : (s.setStream k t).buf = s.buf := rfl
@[simp] theorem State.setStream_queues (k : Nat) (t : StreamSlot) : (s.setStream k t).queues = s.queues := rfl
@[simp] theorem State.setStream_windows (k : Nat) (t : StreamSlot) : (s.setStream k t).windows = s.windows := rfl
@[simp] theorem State.setStream_gate (k : Nat) (t : StreamSlot) : (s.setStream k t).gate = s.gate := rfl
@[simp] theorem State.setStream_mboxes (k : Nat) (t : StreamSlot) : (s.setStream k t).mboxes = s.mboxes := rfl
@[simp] theorem State.setStream_bridle (k : Nat) (t : StreamSlot) : (s.setStream k t).bridle = s.bridle := rfl
@[simp] theorem State.setStream_cfg (k : Nat) (t : StreamSlot) : (s.setStream k t).cfg = s.cfg := rfl
@[simp] theorem State.setStream_ras (k : Nat) (t : StreamSlot) : (s.setStream k t).ras = s.ras := rfl
@[simp] theorem State.setStream_tack (k : Nat) (t : StreamSlot) : (s.setStream k t).tack = s.tack := rfl
@[simp] theorem State.setStream_groom (k : Nat) (t : StreamSlot) : (s.setStream k t).groom = s.groom := rfl
@[simp] theorem State.setStream_power (k : Nat) (t : StreamSlot) : (s.setStream k t).power = s.power := rfl
@[simp] theorem State.setStream_boot (k : Nat) (t : StreamSlot) : (s.setStream k t).boot = s.boot := rfl
@[simp] theorem State.setStream_pmc (k : Nat) (t : StreamSlot) : (s.setStream k t).pmc = s.pmc := rfl
@[simp] theorem State.setStream_wir (k : Nat) (t : StreamSlot) : (s.setStream k t).wir = s.wir := rfl
@[simp] theorem State.setStream_caches (k : Nat) (t : StreamSlot) : (s.setStream k t).caches = s.caches := rfl
@[simp] theorem State.setStream_ports (k : Nat) (t : StreamSlot) : (s.setStream k t).ports = s.ports := rfl

/-! ### modWindow changes windows only -/

@[simp] theorem State.modWindow_pending (w : Nat) (f : Window → Window) : (s.modWindow w f).pending = s.pending := rfl
@[simp] theorem State.modWindow_now (w : Nat) (f : Window → Window) : (s.modWindow w f).now = s.now := rfl
@[simp] theorem State.modWindow_gcount (w : Nat) (f : Window → Window) : (s.modWindow w f).gcount = s.gcount := rfl
@[simp] theorem State.modWindow_free (w : Nat) (f : Window → Window) : (s.modWindow w f).free = s.free := rfl
@[simp] theorem State.modWindow_core (w : Nat) (f : Window → Window) : (s.modWindow w f).core = s.core := rfl
@[simp] theorem State.modWindow_tile (w : Nat) (f : Window → Window) : (s.modWindow w f).tile = s.tile := rfl
@[simp] theorem State.modWindow_runs (w : Nat) (f : Window → Window) : (s.modWindow w f).runs = s.runs := rfl
@[simp] theorem State.modWindow_mem (w : Nat) (f : Window → Window) : (s.modWindow w f).mem = s.mem := rfl
@[simp] theorem State.modWindow_buf (w : Nat) (f : Window → Window) : (s.modWindow w f).buf = s.buf := rfl
@[simp] theorem State.modWindow_streams (w : Nat) (f : Window → Window) : (s.modWindow w f).streams = s.streams := rfl
@[simp] theorem State.modWindow_queues (w : Nat) (f : Window → Window) : (s.modWindow w f).queues = s.queues := rfl
@[simp] theorem State.modWindow_gate (w : Nat) (f : Window → Window) : (s.modWindow w f).gate = s.gate := rfl
@[simp] theorem State.modWindow_mboxes (w : Nat) (f : Window → Window) : (s.modWindow w f).mboxes = s.mboxes := rfl
@[simp] theorem State.modWindow_bridle (w : Nat) (f : Window → Window) : (s.modWindow w f).bridle = s.bridle := rfl
@[simp] theorem State.modWindow_cfg (w : Nat) (f : Window → Window) : (s.modWindow w f).cfg = s.cfg := rfl
@[simp] theorem State.modWindow_ras (w : Nat) (f : Window → Window) : (s.modWindow w f).ras = s.ras := rfl
@[simp] theorem State.modWindow_tack (w : Nat) (f : Window → Window) : (s.modWindow w f).tack = s.tack := rfl
@[simp] theorem State.modWindow_groom (w : Nat) (f : Window → Window) : (s.modWindow w f).groom = s.groom := rfl
@[simp] theorem State.modWindow_power (w : Nat) (f : Window → Window) : (s.modWindow w f).power = s.power := rfl
@[simp] theorem State.modWindow_boot (w : Nat) (f : Window → Window) : (s.modWindow w f).boot = s.boot := rfl
@[simp] theorem State.modWindow_pmc (w : Nat) (f : Window → Window) : (s.modWindow w f).pmc = s.pmc := rfl
@[simp] theorem State.modWindow_wir (w : Nat) (f : Window → Window) : (s.modWindow w f).wir = s.wir := rfl
@[simp] theorem State.modWindow_caches (w : Nat) (f : Window → Window) : (s.modWindow w f).caches = s.caches := rfl
@[simp] theorem State.modWindow_ports (w : Nat) (f : Window → Window) : (s.modWindow w f).ports = s.ports := rfl

/-! ### setGthread changes groom only -/

@[simp] theorem State.setGthread_pending (t : Nat) (h : GThread) : (s.setGthread t h).pending = s.pending := rfl
@[simp] theorem State.setGthread_now (t : Nat) (h : GThread) : (s.setGthread t h).now = s.now := rfl
@[simp] theorem State.setGthread_gcount (t : Nat) (h : GThread) : (s.setGthread t h).gcount = s.gcount := rfl
@[simp] theorem State.setGthread_free (t : Nat) (h : GThread) : (s.setGthread t h).free = s.free := rfl
@[simp] theorem State.setGthread_core (t : Nat) (h : GThread) : (s.setGthread t h).core = s.core := rfl
@[simp] theorem State.setGthread_tile (t : Nat) (h : GThread) : (s.setGthread t h).tile = s.tile := rfl
@[simp] theorem State.setGthread_runs (t : Nat) (h : GThread) : (s.setGthread t h).runs = s.runs := rfl
@[simp] theorem State.setGthread_mem (t : Nat) (h : GThread) : (s.setGthread t h).mem = s.mem := rfl
@[simp] theorem State.setGthread_buf (t : Nat) (h : GThread) : (s.setGthread t h).buf = s.buf := rfl
@[simp] theorem State.setGthread_streams (t : Nat) (h : GThread) : (s.setGthread t h).streams = s.streams := rfl
@[simp] theorem State.setGthread_queues (t : Nat) (h : GThread) : (s.setGthread t h).queues = s.queues := rfl
@[simp] theorem State.setGthread_windows (t : Nat) (h : GThread) : (s.setGthread t h).windows = s.windows := rfl
@[simp] theorem State.setGthread_gate (t : Nat) (h : GThread) : (s.setGthread t h).gate = s.gate := rfl
@[simp] theorem State.setGthread_mboxes (t : Nat) (h : GThread) : (s.setGthread t h).mboxes = s.mboxes := rfl
@[simp] theorem State.setGthread_bridle (t : Nat) (h : GThread) : (s.setGthread t h).bridle = s.bridle := rfl
@[simp] theorem State.setGthread_cfg (t : Nat) (h : GThread) : (s.setGthread t h).cfg = s.cfg := rfl
@[simp] theorem State.setGthread_ras (t : Nat) (h : GThread) : (s.setGthread t h).ras = s.ras := rfl
@[simp] theorem State.setGthread_tack (t : Nat) (h : GThread) : (s.setGthread t h).tack = s.tack := rfl
@[simp] theorem State.setGthread_power (t : Nat) (h : GThread) : (s.setGthread t h).power = s.power := rfl
@[simp] theorem State.setGthread_boot (t : Nat) (h : GThread) : (s.setGthread t h).boot = s.boot := rfl
@[simp] theorem State.setGthread_pmc (t : Nat) (h : GThread) : (s.setGthread t h).pmc = s.pmc := rfl
@[simp] theorem State.setGthread_wir (t : Nat) (h : GThread) : (s.setGthread t h).wir = s.wir := rfl
@[simp] theorem State.setGthread_caches (t : Nat) (h : GThread) : (s.setGthread t h).caches = s.caches := rfl
@[simp] theorem State.setGthread_ports (t : Nat) (h : GThread) : (s.setGthread t h).ports = s.ports := rfl

/-! ### modGthread changes groom only -/

@[simp] theorem State.modGthread_pending (t : Nat) (f : GThread → GThread) : (s.modGthread t f).pending = s.pending := rfl
@[simp] theorem State.modGthread_now (t : Nat) (f : GThread → GThread) : (s.modGthread t f).now = s.now := rfl
@[simp] theorem State.modGthread_gcount (t : Nat) (f : GThread → GThread) : (s.modGthread t f).gcount = s.gcount := rfl
@[simp] theorem State.modGthread_free (t : Nat) (f : GThread → GThread) : (s.modGthread t f).free = s.free := rfl
@[simp] theorem State.modGthread_core (t : Nat) (f : GThread → GThread) : (s.modGthread t f).core = s.core := rfl
@[simp] theorem State.modGthread_tile (t : Nat) (f : GThread → GThread) : (s.modGthread t f).tile = s.tile := rfl
@[simp] theorem State.modGthread_runs (t : Nat) (f : GThread → GThread) : (s.modGthread t f).runs = s.runs := rfl
@[simp] theorem State.modGthread_mem (t : Nat) (f : GThread → GThread) : (s.modGthread t f).mem = s.mem := rfl
@[simp] theorem State.modGthread_buf (t : Nat) (f : GThread → GThread) : (s.modGthread t f).buf = s.buf := rfl
@[simp] theorem State.modGthread_streams (t : Nat) (f : GThread → GThread) : (s.modGthread t f).streams = s.streams := rfl
@[simp] theorem State.modGthread_queues (t : Nat) (f : GThread → GThread) : (s.modGthread t f).queues = s.queues := rfl
@[simp] theorem State.modGthread_windows (t : Nat) (f : GThread → GThread) : (s.modGthread t f).windows = s.windows := rfl
@[simp] theorem State.modGthread_gate (t : Nat) (f : GThread → GThread) : (s.modGthread t f).gate = s.gate := rfl
@[simp] theorem State.modGthread_mboxes (t : Nat) (f : GThread → GThread) : (s.modGthread t f).mboxes = s.mboxes := rfl
@[simp] theorem State.modGthread_bridle (t : Nat) (f : GThread → GThread) : (s.modGthread t f).bridle = s.bridle := rfl
@[simp] theorem State.modGthread_cfg (t : Nat) (f : GThread → GThread) : (s.modGthread t f).cfg = s.cfg := rfl
@[simp] theorem State.modGthread_ras (t : Nat) (f : GThread → GThread) : (s.modGthread t f).ras = s.ras := rfl
@[simp] theorem State.modGthread_tack (t : Nat) (f : GThread → GThread) : (s.modGthread t f).tack = s.tack := rfl
@[simp] theorem State.modGthread_power (t : Nat) (f : GThread → GThread) : (s.modGthread t f).power = s.power := rfl
@[simp] theorem State.modGthread_boot (t : Nat) (f : GThread → GThread) : (s.modGthread t f).boot = s.boot := rfl
@[simp] theorem State.modGthread_pmc (t : Nat) (f : GThread → GThread) : (s.modGthread t f).pmc = s.pmc := rfl
@[simp] theorem State.modGthread_wir (t : Nat) (f : GThread → GThread) : (s.modGthread t f).wir = s.wir := rfl
@[simp] theorem State.modGthread_caches (t : Nat) (f : GThread → GThread) : (s.modGthread t f).caches = s.caches := rfl
@[simp] theorem State.modGthread_ports (t : Nat) (f : GThread → GThread) : (s.modGthread t f).ports = s.ports := rfl

/-! ### pendGroom changes groom only -/

@[simp] theorem State.pendGroom_pending (n : Nat) : (s.pendGroom n).pending = s.pending := rfl
@[simp] theorem State.pendGroom_now (n : Nat) : (s.pendGroom n).now = s.now := rfl
@[simp] theorem State.pendGroom_gcount (n : Nat) : (s.pendGroom n).gcount = s.gcount := rfl
@[simp] theorem State.pendGroom_free (n : Nat) : (s.pendGroom n).free = s.free := rfl
@[simp] theorem State.pendGroom_core (n : Nat) : (s.pendGroom n).core = s.core := rfl
@[simp] theorem State.pendGroom_tile (n : Nat) : (s.pendGroom n).tile = s.tile := rfl
@[simp] theorem State.pendGroom_runs (n : Nat) : (s.pendGroom n).runs = s.runs := rfl
@[simp] theorem State.pendGroom_mem (n : Nat) : (s.pendGroom n).mem = s.mem := rfl
@[simp] theorem State.pendGroom_buf (n : Nat) : (s.pendGroom n).buf = s.buf := rfl
@[simp] theorem State.pendGroom_streams (n : Nat) : (s.pendGroom n).streams = s.streams := rfl
@[simp] theorem State.pendGroom_queues (n : Nat) : (s.pendGroom n).queues = s.queues := rfl
@[simp] theorem State.pendGroom_windows (n : Nat) : (s.pendGroom n).windows = s.windows := rfl
@[simp] theorem State.pendGroom_gate (n : Nat) : (s.pendGroom n).gate = s.gate := rfl
@[simp] theorem State.pendGroom_mboxes (n : Nat) : (s.pendGroom n).mboxes = s.mboxes := rfl
@[simp] theorem State.pendGroom_bridle (n : Nat) : (s.pendGroom n).bridle = s.bridle := rfl
@[simp] theorem State.pendGroom_cfg (n : Nat) : (s.pendGroom n).cfg = s.cfg := rfl
@[simp] theorem State.pendGroom_ras (n : Nat) : (s.pendGroom n).ras = s.ras := rfl
@[simp] theorem State.pendGroom_tack (n : Nat) : (s.pendGroom n).tack = s.tack := rfl
@[simp] theorem State.pendGroom_power (n : Nat) : (s.pendGroom n).power = s.power := rfl
@[simp] theorem State.pendGroom_boot (n : Nat) : (s.pendGroom n).boot = s.boot := rfl
@[simp] theorem State.pendGroom_pmc (n : Nat) : (s.pendGroom n).pmc = s.pmc := rfl
@[simp] theorem State.pendGroom_wir (n : Nat) : (s.pendGroom n).wir = s.wir := rfl
@[simp] theorem State.pendGroom_caches (n : Nat) : (s.pendGroom n).caches = s.caches := rfl
@[simp] theorem State.pendGroom_ports (n : Nat) : (s.pendGroom n).ports = s.ports := rfl

/-! ### respond changes ports only -/

@[simp] theorem State.respond_pending (d : Word) (e : Bool) : (s.respond d e).pending = s.pending := rfl
@[simp] theorem State.respond_now (d : Word) (e : Bool) : (s.respond d e).now = s.now := rfl
@[simp] theorem State.respond_gcount (d : Word) (e : Bool) : (s.respond d e).gcount = s.gcount := rfl
@[simp] theorem State.respond_free (d : Word) (e : Bool) : (s.respond d e).free = s.free := rfl
@[simp] theorem State.respond_core (d : Word) (e : Bool) : (s.respond d e).core = s.core := rfl
@[simp] theorem State.respond_tile (d : Word) (e : Bool) : (s.respond d e).tile = s.tile := rfl
@[simp] theorem State.respond_runs (d : Word) (e : Bool) : (s.respond d e).runs = s.runs := rfl
@[simp] theorem State.respond_mem (d : Word) (e : Bool) : (s.respond d e).mem = s.mem := rfl
@[simp] theorem State.respond_buf (d : Word) (e : Bool) : (s.respond d e).buf = s.buf := rfl
@[simp] theorem State.respond_streams (d : Word) (e : Bool) : (s.respond d e).streams = s.streams := rfl
@[simp] theorem State.respond_queues (d : Word) (e : Bool) : (s.respond d e).queues = s.queues := rfl
@[simp] theorem State.respond_windows (d : Word) (e : Bool) : (s.respond d e).windows = s.windows := rfl
@[simp] theorem State.respond_gate (d : Word) (e : Bool) : (s.respond d e).gate = s.gate := rfl
@[simp] theorem State.respond_mboxes (d : Word) (e : Bool) : (s.respond d e).mboxes = s.mboxes := rfl
@[simp] theorem State.respond_bridle (d : Word) (e : Bool) : (s.respond d e).bridle = s.bridle := rfl
@[simp] theorem State.respond_cfg (d : Word) (e : Bool) : (s.respond d e).cfg = s.cfg := rfl
@[simp] theorem State.respond_ras (d : Word) (e : Bool) : (s.respond d e).ras = s.ras := rfl
@[simp] theorem State.respond_tack (d : Word) (e : Bool) : (s.respond d e).tack = s.tack := rfl
@[simp] theorem State.respond_groom (d : Word) (e : Bool) : (s.respond d e).groom = s.groom := rfl
@[simp] theorem State.respond_power (d : Word) (e : Bool) : (s.respond d e).power = s.power := rfl
@[simp] theorem State.respond_boot (d : Word) (e : Bool) : (s.respond d e).boot = s.boot := rfl
@[simp] theorem State.respond_pmc (d : Word) (e : Bool) : (s.respond d e).pmc = s.pmc := rfl
@[simp] theorem State.respond_wir (d : Word) (e : Bool) : (s.respond d e).wir = s.wir := rfl
@[simp] theorem State.respond_caches (d : Word) (e : Bool) : (s.respond d e).caches = s.caches := rfl

/-! ### What is read after an update -/

@[simp] theorem State.ctx_setCtx (n : Nat) (c : Ctx) : (s.setCtx n c).ctx n = c := Tbl.get_set_same ..

theorem State.ctx_setCtx_other {n m : Nat} (c : Ctx) (h : m ≠ n) : (s.setCtx n c).ctx m = s.ctx m := Tbl.get_set_other _ _ _ h

@[simp] theorem State.stall_setCtx (n k : Nat) (c : Ctx) : (s.setCtx n c).stall k = s.stall k := rfl

@[simp] theorem State.stall_setStall (k : Nat) (t : Stall) : (s.setStall k t).stall k = t := Tbl.get_set_same ..

theorem State.stall_setStall_other {k j : Nat} (t : Stall) (h : j ≠ k) : (s.setStall k t).stall j = s.stall j :=
  Tbl.get_set_other _ _ _ h

@[simp] theorem State.ctx_setStall (k n : Nat) (t : Stall) : (s.setStall k t).ctx n = s.ctx n := rfl

@[simp] theorem State.curStall_setStall (k : Nat) (t : Stall) : (s.setStall k t).curStall = s.curStall := rfl

@[simp] theorem State.curCtx_setStall (k : Nat) (t : Stall) : (s.setStall k t).curCtx = s.curCtx := rfl

@[simp] theorem State.curCtx_setCtx (n : Nat) (c : Ctx) : (s.setCtx n c).curCtx = s.curCtx := rfl

@[simp] theorem State.curStall_setReg (r : Reg) (v : TVal) : (s.setReg r v).curStall = s.curStall := rfl

@[simp] theorem State.curCtx_setReg (r : Reg) (v : TVal) : (s.setReg r v).curCtx = s.curCtx := rfl

@[simp] theorem State.cur_modCur (f : Stall → Stall) : (s.modCur f).cur = f s.cur := Tbl.get_set_same ..

@[simp] theorem State.cur_setReg (r : Reg) (v : TVal) : (s.setReg r v).cur = s.cur.setReg r.toNat v := Tbl.get_set_same ..

/-- R37: g0 reads as data 0 with tag INT. -/
@[simp] theorem Stall.reg_zero (t : Stall) : t.reg 0 = ⟨0, .int⟩ := rfl

/-- R37: a write of g0 is discarded. -/
@[simp] theorem Stall.setReg_zero (t : Stall) (v : TVal) : t.setReg 0 v = t := rfl

theorem Stall.reg_setReg (t : Stall) (r : Nat) (v : TVal) (h : r ≠ 0) : (t.setReg r v).reg r = v := by
  simp [Stall.reg, Stall.setReg, h]

theorem Stall.reg_setReg_other (t : Stall) {r j : Nat} (v : TVal) (h : j ≠ r) : (t.setReg r v).reg j = t.reg j := by
  simp only [Stall.reg, Stall.setReg]
  by_cases h0 : r = 0
  · simp [h0]
  · simp [h0, Tbl.get_set_other _ _ _ h]

@[simp] theorem State.queue_setQueue (q : Nat) (u : Queue) : (s.setQueue q u).queue q = u := Tbl.get_set_same ..

@[simp] theorem State.mbox_setMbox (m : Nat) (b : Mailbox) : (s.setMbox m b).mbox m = b := Tbl.get_set_same ..

@[simp] theorem State.stream_setStream (k : Nat) (t : StreamSlot) : (s.setStream k t).stream k = t := Tbl.get_set_same ..

@[simp] theorem State.gthread_setGthread (t : Nat) (h : GThread) : (s.setGthread t h).gthread t = h := Tbl.get_set_same ..

theorem State.gthread_setGthread_other {t u : Nat} (h : GThread) (e : u ≠ t) :
    (s.setGthread t h).gthread u = s.gthread u := Tbl.get_set_other _ _ _ e

@[simp] theorem GThread.reg_setReg (h : GThread) (n : Nat) (v : Half) : (h.setReg n v).reg n = v := Tbl.get_set_same ..

theorem GThread.reg_setReg_other (h : GThread) {n m : Nat} (v : Half) (e : m ≠ n) : (h.setReg n v).reg m = h.reg m :=
  Tbl.get_set_other _ _ _ e

/-! ### Events of the block -/

/-- A block that acts carries out an event whose condition holds. -/
theorem eventStep_next {ok : Bool} {f : State → State} (h : s.live = true) (h2 : ok = true) :
    eventStep ok f s = .next (f s) := by
  simp [eventStep, h, h2]

/-- An event whose condition does not hold, or of a block that does not act, changes nothing. -/
theorem eventStep_idle {ok : Bool} {f : State → State} (h : (s.live && ok) = false) : eventStep ok f s = .next s := by
  simp only [eventStep, h]
  rfl

/-- A Groom instruction of a thread that begins: ILLEGAL, or what its body answers. -/
theorem groomStep_next {t : BitVec 2} {legal : Bool} {body : State → GThread → GOut} {s1 : State} {h : GThread}
    (hl : s.live = true) (hc : s.gCanIssue t.toNat = true)
    (hf : ((s.modGthread t.toNat fun h => h.settle s.groom.lclk).gthread t.toNat).fetchFault = none)
    (h1 : (s.modGthread t.toNat fun h => h.settle s.groom.lclk).gFetch t.toNat = .ok s1) (h2 : h = s1.gthread t.toNat) :
    groomStep t legal body s =
      .next (if legal then (body s1 h).apply t.toNat h.pc s1 else s1.groomFault t.toNat 1 none) := by
  rw [groomStep, eventStep_next s hl rfl]
  simp only [State.runGroom, hc, hf, h1, ← h2]
  cases legal <;> simp

end Sys2Proof.Machine
end

