-- ==== Sys2Proof/Laws/Tile.lean ====
section
/-! SUPPORT. Laws of the cell array: a saddle whose zero marks are all set reads as zeros and passes TCHK (R98, R188). -/

namespace Sys2Proof.Machine

/-- Every zero mark is set and every checksum row entry is 0, as after a take with nothing saved. -/
def Saddle.blank (d : Saddle) : Prop := d.live = [] ∧ d.crow = []

theorem Saddle.blank_marked (d : Saddle) (h : d.blank) (r c : Nat) : d.marked r c = true := by
  simp [Saddle.marked, h.1]

theorem Saddle.blank_cell (d : Saddle) (h : d.blank) (r c : Nat) : d.cell r c = Cell.zero := by
  simp [Saddle.cell, d.blank_marked h]

theorem Saddle.blank_sumOf (d : Saddle) (h : d.blank) (cs : List (Nat × Nat)) : d.sumOf cs = 0 := by
  have step : ∀ a : BitVec 136, cs.foldl (fun a p => a + (d.cell p.1 p.2).s.signExtend 136) a = a := by
    induction cs with
    | nil => intro a; rfl
    | cons p ps ih =>
      intro a
      rw [List.foldl_cons, d.blank_cell h]
      simpa [Cell.zero] using ih a
  exact step 0

theorem Saddle.blank_good (d : Saddle) (h : d.blank) (b : Nat) : d.blockGood b = true := by
  simp [Saddle.blockGood, d.blank_sumOf h, d.blank_cell h, Saddle.colSum, Saddle.rowSum, d.blank_marked h, h.2, Cell.zero]

theorem Saddle.blank_check (d : Saddle) (h : d.blank) (r0 c0 m n : Nat) : d.checkRegion r0 c0 m n = 0 := by
  have e : (reachedBlocks r0 c0 m n).filter (fun b => !d.blockGood b) = [] := by simp [d.blank_good h]
  rw [Saddle.checkRegion, e]
  rfl

/-- TCHK of a blank saddle finds no error. -/
theorem tchk_blank (t : TileRun) (i : Nat) (s : State) (hk : t.k = .tchk) (hw : t.hw = .none) (h : (s.sad i).blank) :
    (t.perform i s).errs = [] := by
  simp [TileRun.perform, TileRun.act, Perf.modTile, hk, hw, Perf.upset, Perf.check, Perf.sad, Saddle.blank_check _ h]

end Sys2Proof.Machine
end

