-- ==== Sys2Proof/Tests/Slice0.lean ====
section
/-! SUPPORT. Tests: words and commands that are not well formed are refused, words of the spec's encodings decode, worked
examples; and for each statement, states and operands that meet its hypotheses. -/

namespace Sys2Proof.Tests

open Sys2Proof.Machine

-- One test after the other: the kernel evaluates each, and threads that wait for it would hold their stacks.
set_option Elab.async false

/-! ## States for the tests -/

/-- A leaf entry that maps the first MiB to itself, for data and code in both modes, with key 0. -/
def entry : TlbEntry :=
  { base := 0, size := 20, asid := 0, global := true, level := 0, oa := 0, rd := true, wr := true, ex := true, svc := true,
    key := 0, st := false, ty := 1 }

/-- A leaf entry that maps the second MiB to buffer memory. -/
def entryBuf : TlbEntry := { entry with base := 0x100000, oa := 0x1000000, ty := 2 }

/-- A stall at 0x1000 with register values. -/
def stallOf (sys : Bool) (regs : Tbl TVal) : Stall :=
  { Stall.fresh with pc := 0x1000, status := if sys then 1 else 0, regs := regs, tsp := 0x8000, tvec := 0x4000, bbound := 0x10000 }

/-- A block that acts: start-up has ended, local memory holds the first MiB and buffer memory the 16 MiB from 2^24; context 5
is dispatched in stall 2. -/
def world (sys : Bool) (regs : Tbl TVal) : State :=
  let s := State.reset
  { s with
    now := 28000,
    core := { s.core with disp := .ctx 5, stalls := [(2, stallOf sys regs)],
                          ctxs := [(5, { Ctx.free with mode := .running, stall := some 2 })],
                          tlb := { entries := [(0, entry), (1, entryBuf)], lfsr := 0xACE1, walk := [] } },
    cfg := { active := [(0x100000, 3), (0x100001, 0x1000005), (0x110000, 0xF0000), (0x110001, 0x1FF0000)], staged := [] },
    boot := { s.boot with por := false, sstep := 10, straps := { s.boot.straps with blkBase := 0xFFFF } },
    bridle := { s.bridle with ready := true } }

/-- The state that instruction `i` meets after its fetch. -/
def begun (i : Instr) (s : State) : State := (s.issued i).getD s

/-- Whether instruction `i` begins. -/
def starts (i : Instr) (s : State) : Bool := s.curStall.isSome && (s.issued i).isSome

theorem begins_of_starts (i : Instr) (s : State) (h : starts i s = true) : Begins i s (begun i s) := by
  simp only [starts, Bool.and_eq_true] at h
  refine ⟨h.1, ?_⟩
  obtain ⟨t, ht⟩ := Option.isSome_iff_exists.mp h.2
  simp [begun, ht]

/-- Instruction `i` begins in `s`, and `p` holds of the state that it meets. -/
def meets (i : Instr) (s : State) (p : State → Bool) : Bool := starts i s && p (begun i s)

/-- Whether an operation answers, with `p` of what it answers. -/
def answers {α : Type} (r : EStateM.Result Abort State α) (p : α → State → Bool) : Bool :=
  match r with
  | .ok a s => p a s
  | .error _ _ => false

/-- What a command leaves. -/
def after (i : Instr) (s : State) : State :=
  match exec i s with
  | .next t => t
  | _ => s

/-- An INT register value. -/
def int (n : Nat) : TVal := ⟨BitVec.ofNat 64 n, .int⟩

/-- A VADDR register value. -/
def va (n : Nat) : TVal := ⟨BitVec.ofNat 64 n, .vaddr⟩

/-! ## Commands that are not well formed -/

/-- One core or Groom instruction for each check of R61, R66 to R68, R71, R78, R81 to R84, R346 and R394. -/
theorem test_illegal_refused : [Instr.movi 1 2 0, .slli 1 2 3 1, .tagof 1 2 3 0, .mov 1 2 0 4, .retag 1 2 3 4, .fsqrtD 1 2 3 0,
    .fminS 1 2 3 1, .fabsD 1 2 0 1, .fceqS 1 2 3 2, .fcvtDI 1 2 3 0, .fcvtDS 1 2 0 1, .fence 1 0 0, .srd 1 2 3, .swr 1 2 3,
    .srd 1 0 0x1000, .tret 0 0 1, .keysw 0 1 2, .trap 1 0 0 none, .ctxsvL 1 2 3, .sstat 1 2 3, .brel 0 1 2].all
      (fun i => !i.legal) = true := by decide

/-- R61: such an instruction takes ILLEGAL_INSN, code 1. -/
theorem test_illegal_traps : ((after (.movi 1 2 0) (world true [])).stall 2).cause.toNat % 65536 = 1 := by decide

/-- R394: a Groom instruction with an unused field that is not 0 takes the Groom fault ILLEGAL, code 1. -/
theorem test_groom_illegal : (after (.gLui 0 1 2 3) { world true [] with
    groom := { (world true []).groom with threads := [(0, { GThread.reset with run := true, pc := 0x10000000, level := 0 })] } }
    |>.gthread 0).causeCode = 1 := by decide

/-! ## Words of the encodings (R60, R63, R64, R161) -/

theorem test_decode_add : decodeCore (0b0000001_01000_00111_00110_0000000000 : Half) = some (.add 8 7 6) := by decide
theorem test_decode_bnz : decodeCore (0b0110001_01100_00000000000000000110 : Half) = some (.bnz 12 6) := by decide
theorem test_decode_ld : decodeCore (0b0100010_00111_00101_000000000010000 : Half) = some (.ldBa 7 5 16) := by decide
theorem test_decode_movi : decodeCore (0b0001010_00011_00000_111111111111111 : Half) = some (.movi 3 0 0x7FFF) := by decide
theorem test_decode_zero : decodeCore 0 = none := by decide
/-- R63: the two worked encodings, as words put in front of the queue. -/
theorem test_table_word : (State.reset.withFetchWord 32 0x02839800).pending = [.add 8 7 6] ∧
    (State.reset.withFetchWord 32 0x62C00006).pending = [.bnz 12 6] := by decide

/-! ## Witnesses: the machine as a whole -/

/-- Two INT operands, the second at the boundary 0 of division. -/
def ints : State := world false [(1, int 7), (2, int 0)]

theorem witness_StepRunsTheFrontCommand : State.reset.pending = [] := by decide

theorem witness_FetchChangesOnlyCachesAndTlb : (ints.issued (.add 3 1 2)).isSome = true := by decide

theorem witness_IllegalWordAndTrapEnter :
    (Instr.movi 1 2 0).spells = true ∧ (coreWord (.movi 1 2 0)).isSome = true ∧ ints.curStall = some 2 ∧ ints.curCtx = some 5 ∧
    Instr.legal (.movi 1 2 0) = false ∧ answers (fetchCheck ints) (fun _ _ => true) = true ∧
    [(0 : Half), 0xFFFFFFFF, 0x00100000].all (fun w => (decodeCore w).isNone) = true ∧
    starts (.trap 0 0 0x7FFF none) ints = true := by decide

/-- R61: the word 0 takes ILLEGAL_INSN, code 1. -/
theorem test_zero_word_traps : ((after (.trap 0 0 0 (some 0)) ints).stall 2).cause.toNat % 65536 = 1 := by decide

/-! ## Witnesses: the scalar groups -/

def registerForms : List Instr :=
  [.add 3 1 2, .sub 3 1 2, .and 3 1 2, .or 3 1 2, .xor 3 1 2, .sll 3 1 2, .srl 3 1 2, .sra 3 1 2, .mul 3 1 2, .mulh 3 1 2,
   .mulhu 3 1 2, .div 3 1 2, .divu 3 1 2, .rem 3 1 2, .remu 3 1 2, .min 3 1 2, .max 3 1 2, .minu 3 1 2, .maxu 3 1 2,
   .ceq 3 1 2, .cne 3 1 2, .clt 3 1 2, .cltu 3 1 2, .cle 3 1 2, .cleu 3 1 2]

theorem witness_IntegerGroupResults :
    registerForms.all (fun i => meets i ints fun s1 => s1.reg 1 = int 7 && s1.reg 2 = int 0) = true ∧
    [ruleAdd, ruleSub, ruleAnd, ruleInt, ruleCmp].all (fun r => r .int .int = some .int) = true := by decide

theorem witness_ImmediateFormResults :
    [Instr.addi 3 1 0x7FFF, .andi 3 1 0, .ori 3 1 0, .xori 3 1 0, .slli 3 1 63 0, .srli 3 1 63 0, .srai 3 1 63 0, .ceqi 3 1 7,
     .clti 3 1 7, .cltui 3 1 7, .orsh 3 1 1, .movi 3 0 0x4000].all
      (fun i => meets i ints fun s1 => s1.reg 1 = int 7) = true := by decide

theorem witness_TagAndMoveResults :
    [Instr.tagof 3 1 0 0, .retag 3 1 0 1, .retag 3 1 0 15, .mov 3 1 0 0, .cmovnz 3 1 2, .cmovz 3 1 2].all (fun i =>
      meets i ints fun s1 => (s1.reg 1).tag ≠ .none && intOrAddr (s1.reg 2).tag) = true ∧
    [Instr.retag 3 1 0 0, .retag 3 1 0 9, .retag 3 1 0 14].all (fun i => meets i ints fun s1 => (s1.reg 1).tag ≠ .none) = true ∧
    meets (.retag 3 1 0 0) (world false []) (fun s1 => (s1.reg 1).tag = .none) = true := by decide

theorem witness_TagFaultAndPoisonOrder :
    integerGroup (.add 3 1 2) = some (3, 1, 2) ∧
    meets (.add 3 1 2) (world false [(2, int 1)]) (fun s1 => (s1.reg 1).tag = .none) = true ∧
    meets (.add 3 1 2) (world false [(1, int 1)]) (fun s1 => (s1.reg 1).tag ≠ .none && (s1.reg 2).tag = .none) = true ∧
    meets (.add 3 1 2) (world false [(1, ⟨1, .poison⟩), (2, int 1)])
      (fun s1 => (s1.reg 1).tag = .poison && (s1.reg 2).tag ≠ .none) = true ∧
    meets (.add 3 1 2) (world false [(1, int 1), (2, ⟨1, .poison⟩)])
      (fun s1 => (s1.reg 1).tag ≠ .none && (s1.reg 1).tag ≠ .poison && (s1.reg 2).tag = .poison) = true := by decide

theorem witness_TagMismatch :
    [Tag.int, .vaddr].all (fun t => meets (.sub 3 1 2) (world false [(1, ⟨1, t⟩), (2, ⟨1, .f64⟩)]) fun s1 =>
      (s1.reg 1).tag = t && (s1.reg 2).tag = .f64) = true ∧ ruleSub .int .int ≠ none ∧ ruleSub .int .f64 = none ∧
    meets (.sub 3 1 2) (world false [(1, int 1), (2, va 1)]) (fun s1 => (s1.reg 1).tag = .int && (s1.reg 2).tag = .vaddr) = true ∧
    ruleSub .int .vaddr = none ∧ ruleSub .vaddr .vaddr ≠ none ∧
    [Tag.none, .poison, .f32].all (fun t => meets (.addi 3 1 5) (world false [(1, ⟨1, t⟩)]) fun s1 => (s1.reg 1).tag = t) = true
    := by decide

theorem witness_FloatTagFaults :
    (immediateGroup (.addi 3 1 5)).map (fun g => (g.1, g.2.1)) = some (3, 1) ∧ ruleAdd .f32 .int = none ∧
    floatGroup (.fmaddD 3 1 2 0) = some (3, [(1, 3, .f64), (2, 1, .f64), (3, 2, .f64)]) ∧
    [Tag.none, .poison, .f32].all (fun t => meets (.fmaddD 3 1 2 0)
      (world false [(1, ⟨1, .f64⟩), (2, ⟨1, t⟩), (3, ⟨1, .f64⟩)]) fun s1 =>
        (s1.reg 3).tag = .f64 && (s1.reg 1).tag = .f64 && (s1.reg 2).tag = t) = true := by decide

/-- Floating-point operands: 1.0 and an infinity in each format. -/
def floats : State := world false [(1, ⟨0x3FF0000000000000, .f64⟩), (2, ⟨0x7FF0000000000000, .f64⟩), (3, ⟨0, .f64⟩),
  (4, ⟨0x3F800000, .f32⟩), (5, ⟨0x7F800000, .f32⟩), (6, ⟨0, .f32⟩), (7, int 5)]

theorem witness_FloatingPointGroupResults :
    [Instr.faddD 3 1 2 0, .fsubD 3 1 2 1, .fmulD 3 1 2 2, .fdivD 3 1 2 3, .fsqrtD 3 1 0 0, .fmaddD 3 1 2 0, .fmsubD 3 1 2 0,
     .fnmaddD 3 1 2 0, .fminD 3 1 2 0, .fmaxD 3 1 2 0, .fabsD 3 1 0 0, .fnegD 3 1 0 0, .fceqD 3 1 2 0, .fcltD 3 1 2 0,
     .fcleD 3 1 2 0, .fcunD 3 1 2 0].all (fun i => meets i floats fun s1 =>
      (s1.reg 1).tag = .f64 && (s1.reg 2).tag = .f64 && (s1.reg 3).tag = .f64) = true ∧
    [Instr.faddS 6 4 5 0, .fsubS 6 4 5 1, .fmulS 6 4 5 2, .fdivS 6 4 5 3, .fsqrtS 6 4 0 0, .fmaddS 6 4 5 0, .fmsubS 6 4 5 0,
     .fnmaddS 6 4 5 0, .fminS 6 4 5 0, .fmaxS 6 4 5 0, .fabsS 6 4 0 0, .fnegS 6 4 0 0, .fceqS 6 4 5 0, .fcltS 6 4 5 0,
     .fcleS 6 4 5 0, .fcunS 6 4 5 0].all (fun i => meets i floats fun s1 =>
      (s1.reg 4).tag = .f32 && (s1.reg 5).tag = .f32 && (s1.reg 6).tag = .f32) = true ∧
    Word.bits 0x7FF0000000000001 62 52 = 0x7FF ∧ Word.bits 0x7FF0000000000001 51 0 ≠ 0 ∧
    Word.bits 0x7F800001 30 23 = 0xFF ∧ Word.bits 0x7F800001 22 0 ≠ 0 := by decide

/-- R71: the boundary values of a conversion to integer: 2^63 and -2^63, 2^64, -0.25, and a NaN. -/
theorem witness_ConversionSaturation :
    [(0x43E0000000000000 : Word), 0xC3E0000000000000].all (fun x => x.bits 62 52 = 1023 + 63) = true ∧
    Word.bits 0x43F0000000000000 62 52 = 1023 + 64 ∧ Word.bit 0xBFD0000000000000 63 = true ∧
    Word.bits 0x5F000000 30 23 = 127 + 63 ∧ Word.bits 0x5F800000 30 23 = 127 + 64 ∧ Word.bit 0xBE800000 31 = true := by decide

theorem witness_ConversionResults :
    [Instr.fcvtDI 8 7 0 0, .fcvtDIu 8 7 0 1, .fcvtSI 8 7 0 2, .fcvtSIu 8 7 0 3].all
      (fun i => meets i floats fun s1 => (s1.reg 7).tag = .int) = true ∧
    [Instr.fcvtID 8 1 0 0, .fcvtIuD 8 1 0 1, .fcvtSD 8 1 0 0].all (fun i => meets i floats fun s1 => (s1.reg 1).tag = .f64) = true ∧
    [Instr.fcvtIS 8 4 0 0, .fcvtIuS 8 4 0 1, .fcvtDS 8 4 0 0].all
      (fun i => meets i floats fun s1 => (s1.reg 4).tag = .f32) = true := by decide

theorem witness_BranchResults :
    [Instr.bz 1 0x80000, .bnz 1 0x7FFFF, .jal 1 0].all (fun i => meets i ints fun s1 => intOrAddr (s1.reg 1).tag) = true ∧
    meets (.jalr 3 1 0x7FFF) (world false [(1, va 0x1000)])
      (fun s1 => (s1.reg 1).tag = .vaddr && ((s1.reg 1).data + BitVec.signExtend 64 (0x7FFF : BitVec 15) * 4).toNat % 4 = 0) = true ∧
    meets (.jalr 3 1 0) (world false [(1, va 0x1003)])
      (fun s1 => (s1.reg 1).tag = .vaddr && ((s1.reg 1).data + BitVec.signExtend 64 (0 : BitVec 15) * 4).toNat % 4 ≠ 0) = true ∧
    [Instr.bz 1 0, .bnz 1 0].all (fun i => meets i (world false []) fun s1 => (s1.reg 1).tag = .none) = true ∧
    [Instr.bz 1 0, .bnz 1 0].all (fun i => meets i (world false [(1, ⟨0, .poison⟩)]) fun s1 => (s1.reg 1).tag = .poison) = true ∧
    [Instr.bz 1 0, .bnz 1 0].all (fun i => meets i floats fun s1 => !intOrAddr (s1.reg 1).tag) = true := by decide

theorem witness_RegisterInstructionFrame :
    registerOnly (.add 3 1 2) = some 3 ∧ ints.curStall = some 2 ∧ (ints.issued (.add 3 1 2)).isSome = true := by decide

/-- Addresses: the last byte of a line (a split access), and one of buffer memory. -/
def addrs : State := world false [(1, va 0x207F), (2, va 0x100000), (3, int 0x55), (4, ⟨1, .poison⟩)]

/-- `addrs` with the aperture's first MiB mapped at 0x200000: an identification register, one byte off it, an address past the
registers of its page, and the Tack window. -/
def aperture : State :=
  let s := world false [(1, va 0x200000), (2, va 0x200001), (5, va 0x20FFF8), (6, va 0x230018), (3, int 0x55), (4, ⟨1, .poison⟩)]
  { s with core := { s.core with tlb := { s.core.tlb with
      entries := (2, { entry with base := 0x200000, oa := 0xFFFF000000, ty := 3 }) :: s.core.tlb.entries } } }

/-- Whether an access of `n` bytes through register `r` reaches a device region, with `p` of its physical address. -/
def device (k : Kind) (r : Reg) (n : Nat) (p : Nat → State → Bool) (s1 : State) : Bool :=
  answers (translateParts k (s1.reg r).data (splitParts (s1.reg r).data n) s1) fun ps s2 =>
    s2.anyDevice ps && p ((ps.map (·.2.1)).headD 0) s2

/-- Whether the parts of an access of `n` bytes through register `r` are translated, with none in a device region. -/
def reaches (k : Kind) (r : Reg) (n : Nat) (s1 : State) : Bool :=
  answers (translateParts k (s1.reg r).data (splitParts (s1.reg r).data n) s1) fun ps s2 => !s2.anyDevice ps

def loads : List (Instr × Nat) :=
  [(.ldI8 5 1 0, 1), (.ldI8u 5 1 0, 1), (.ldI16 5 1 0, 2), (.ldI16u 5 1 0, 2), (.ldI32 5 1 0, 4), (.ldI32u 5 1 0, 4),
   (.ldI 5 1 0, 8), (.ldF32 5 1 0, 4), (.ldF64 5 1 0, 8), (.ldVa 5 1 0, 8), (.ldBa 5 1 0, 8), (.ldSh 5 1 0, 8),
   (.ldSd 5 1 0, 8), (.ldW 5 1 0, 8)]

theorem witness_LoadResults :
    loads.all (fun p => meets p.1 addrs fun s1 => (s1.reg 1).tag = .vaddr && reaches 1 1 p.2 s1) = true ∧
    meets (.ldI32 7 2 0) aperture (device 1 2 4 fun _ _ => true) = true ∧
    meets (.ldI8 7 1 0) aperture (device 1 1 1 fun pa s2 => s2.inAperture pa) = true ∧
    meets (.ldI 7 1 0) aperture (device 1 1 8 fun pa s2 => s2.inAperture pa && (s2.apRead .core (apOff pa) .both).1.isSome) = true ∧
    meets (.ldI 7 5 0) aperture (device 1 5 8 fun pa s2 => s2.inAperture pa && (s2.apRead .core (apOff pa) .both).1.isNone) = true
    := by decide

def stores : List (Instr × Nat) := [(.stI8 3 1 0, 1), (.stI16 3 1 0, 2), (.stI32 3 1 0, 4), (.stI 3 1 0, 8)]

theorem witness_StoreResults :
    stores.all (fun p => meets p.1 addrs fun s1 => (s1.reg 1).tag = .vaddr && (s1.reg 3).tag ≠ .none && reaches 2 1 p.2 s1) = true ∧
    meets (.stI 4 6 0) aperture (fun s1 => (s1.reg 4).tag = .poison && device 2 6 8 (fun pa s2 => s2.inAperture pa &&
      decide (pa % 2 ^ 24 = 0x30018)) s1) = true ∧
    meets (.stI32 3 2 0) aperture (device 2 2 4 fun _ _ => true) = true ∧
    meets (.stI 3 5 0) aperture (device 2 5 8 fun pa s2 => s2.inAperture pa) = true := by decide

theorem witness_StoreFrame :
    stores.all (fun p => meets p.1 addrs fun s1 => (s1.reg 1).tag = .vaddr && (s1.reg 3).tag ≠ .none && reaches 2 1 p.2 s1) = true ∧
    meets (.stI 3 2 0) addrs (fun s1 => reaches 2 2 8 s1 && s1.attr 0x1000000 = 2) = true ∧
    meets (.stI8 3 1 0) addrs (fun s1 => answers (translateParts 2 (s1.reg 1).data (splitParts (s1.reg 1).data 1) s1)
      fun ps s2 => ps.length = 1 && s2.attr 0x207F = 1 && !s2.mem.lost (0x207F / 128)) = true := by decide

/-! ## Witnesses: system registers, traps, scheduling -/

/-- `ints` with an accepted tile instruction of context 5. -/
def busyTile (s : State) : State :=
  let op : TileOp := { insn := .tzf 0 0 0, shape := 0, left := int 0, right := int 0, rows := [], rows2 := [] }
  { s with tile := { s.tile with sad0 := { s.tile.sad0 with owner := some 5, queue := [op] } } }

/-- Context 5 with another entry of the context state array. -/
def withCtx (s : State) (f : Ctx → Ctx) : State := s.modCtx 5 f

/-- Stall 2 with other contents. -/
def withStall (s : State) (f : Stall → Stall) : State := s.modStall 2 f

theorem witness_FenceGroupResults :
    [Instr.fence 0 0 0, .fenceSt 0 0 0, .ifence 0 0 0].all (fun i => meets i ints fun s1 => s1.tileIdle s1.curCtx) = true ∧
    meets (.fence 0 0 0) (busyTile ints) (fun s1 => !s1.tileIdle s1.curCtx) = true ∧
    meets (.ssync 0 0 0) (world true []) (fun s1 => s1.cur.sysMode && s1.tileIdle s1.curCtx && s1.cur.ptbase.bits 1 0 = 0) = true ∧
    meets (.ssync 0 0 0) (withStall (world true []) fun t => { t with ptbase := 1 }) (fun s1 =>
      s1.cur.sysMode && s1.tileIdle s1.curCtx && s1.cur.ptbase.bits 1 0 = 1 && s1.invDone 1 0) = true := by decide

theorem witness_SrdReadsSystemRegisters :
    [0x000, 0x001, 0x010, 0x011, 0x022, 0x023, 0x032, 0x040, 0x041, 0x042].all (fun n => meets (.srd 3 0 n) ints fun s1 =>
      s1.curCtx.isSome && match sysRegs n.toNat with | some (_, svc, _) => svc ≠ .no | none => false) = true ∧
    [0x002, 0x003, 0x004, 0x005, 0x006, 0x007, 0x020, 0x021, 0x030, 0x031, 0x050].all (fun n =>
      meets (.srd 3 0 n) (world true []) fun s1 =>
      s1.cur.sysMode && match sysRegs n.toNat with | some (_, _, sys) => sys ≠ .no | none => false) = true := by decide

theorem witness_SwrWritesRegisters :
    [0x001, 0x002, 0x004, 0x007, 0x020, 0x021, 0x022, 0x023, 0x030, 0x031, 0x032, 0x040, 0x041, 0x042].all (fun n =>
      meets (.swr 0 1 n) (world true [(1, int 1)]) fun s1 => s1.cur.sysMode && s1.curCtx = some 5 && s1.reg 1 = int 1 &&
        swrAccepts n.toNat (s1.reg 1).tag && match sysRegs n.toNat with | some (_, _, sys) => sys = .rw | none => false) = true ∧
    [0x003, 0x005, 0x006, 0x050].all (fun n =>
      meets (.swr 0 1 n) (world true [(1, va 8)]) fun s1 => s1.cur.sysMode && s1.reg 1 = va 8 &&
        swrAccepts n.toNat (s1.reg 1).tag && match sysRegs n.toNat with | some (_, _, sys) => sys = .rw | none => false) = true
    := by decide

theorem witness_KeyswReplacesSixteenKeys : meets (.keysw 0 1 0) (world false [(1, int 0xFFFFFFFF00000003)])
    (fun s1 => s1.reg 1 = int 0xFFFFFFFF00000003) = true := by decide

theorem witness_SystemRegisterAndPrivilegeFaults :
    meets (.srd 3 0 0xFFF) ints (fun _ => sysRegs 0xFFF = none) = true ∧
    meets (.swr 0 1 0x008) ints (fun s1 => sysRegs 8 = none && swrAccepts 8 (s1.reg 1).tag) = true ∧
    meets (.srd 3 0 0x050) ints (fun s1 => !s1.cur.sysMode && sysRegs 0x50 = some (.vaddr, .no, .rw)) = true ∧
    meets (.swr 0 1 0x042) ints (fun s1 => !s1.cur.sysMode && sysRegs 0x42 = some (.int, .ro, .rw) &&
      swrAccepts 0x42 (s1.reg 1).tag) = true ∧
    [Instr.tret 0 0 0, .ssync 0 0 0, .ctxsvL 0 1 2, .ctxsvU 0 1 2, .ctxldL 0 1 2, .ctxldU 0 1 2].all (fun i =>
      meets i (world false [(1, va 0x2000), (2, int 2)]) fun s1 =>
        !s1.cur.sysMode && (s1.reg 1).tag = .vaddr && (s1.reg 2).tag = .int) = true := by decide

/-- Context 5 with its tile status record in a valid frame at 0x3000, and its save area at 0. -/
def withRecord (s : State) : State := withCtx s fun e => { e with fpv := true, recf := true, framePa := 0x3000, pin := some 0 }

theorem witness_TrapEntrySavesAndVectors :
    ((ints.stall 2).tsp - 256).toNat % 256 = 0 ∧ (ints.ctx 5).recf = false ∧
    answers (translate { (ints.stall 2).xctx with sys := true } 2 false ((ints.stall 2).tsp - 256) (some 5) ints)
      (fun p s1 => s1.attr p.2 = 1 && !s1.mem.lost (p.2 / 128)) = true ∧
    (withRecord ints).ctx 5 = { ints.ctx 5 with fpv := true, recf := true, framePa := 0x3000, pin := some 0 } ∧
    (withRecord ints).mem.noTarget.get false (0x3028 / 128) = false ∧ windowSpace (0x3028 / 128) = false ∧
    answers (translate { (ints.stall 2).xctx with sys := true } 2 false ((ints.stall 2).tsp - 256) (some 5) (withRecord ints))
      (fun p s1 => s1.attr p.2 = 1 && !s1.mem.lost (p.2 / 128)) = true := by decide

theorem witness_TretRestores :
    [world true [], withRecord (world true [])].all (fun s => meets (.tret 0 0 0) s (fun s1 =>
      s1.cur.sysMode && s1.curCtx = some 5 && s1.cur.tsp.toNat % 256 = 0 &&
      answers (translate { s1.cur.xctx with sys := true } 1 false s1.cur.tsp (some 5) s1)
        fun p s2 => s2.attr p.2 = 1 && !(s2.memRead .l1d p.2 48 p.1.st (some 5)).1.poison)) = true := by decide

theorem witness_WaitAndYield :
    meets (.wait 0 0 0) (withCtx ints fun e => { e with evmask := 1, pend := 1 }) (fun s1 =>
      s1.curCtx = some 5 && ((s1.ctx 5).pend &&& BitVec.ofNat 8 ((s1.ctx 5).evmask.toNat % 128)) ≠ 0) = true ∧
    [0x100, 0x040].all (fun m => meets (.wait 0 0 0) (withCtx ints fun e => { e with evmask := m, pend := 1 }) fun s1 =>
      ((s1.ctx 5).pend &&& BitVec.ofNat 8 ((s1.ctx 5).evmask.toNat % 128)) = 0 && (s1.ctx 5).evmask.toNat % 512 ≠ 128 &&
      (s1.ctx 5).evmask.toNat % 512 ≠ 0) = true ∧
    [0, 128].all (fun m => meets (.wait 0 0 0) (withCtx ints fun e => { e with evmask := m }) fun s1 =>
      (s1.ctx 5).evmask.toNat % 512 = m.toNat) = true ∧
    starts (.yieldOp 0 0 0) ints = true := by decide

/-- The reserve stall is dispatched, with context 5 resident in stall 2, READY, and the operands of the context group. -/
def inReserve : State :=
  let s := world false []
  let r : Stall := stallOf true [(1, va 0x2000), (2, int 2), (3, va 0x2100)]
  let s1 := (s.setStall 31 r).modCtx 5 fun e => { e with mode := .ready }
  { s1 with core := { s1.core with disp := .reserve, reserve := { s1.core.reserve with setUp := true } } }

/-- Whether the operands and the area of a context-group instruction of registers `a` and `b` are in order. -/
def ctxReady (i : Instr) (a b : Reg) (kind : Kind) (s1 : State) (p : Nat → List (TlbEntry × Nat × Nat) → State → Bool) : Bool :=
  answers (contextOperands i a b s1) fun x s1 => answers (areaParts kind x.1 s1) (p x.2)

/-- `inReserve` with context 6 next to be dispatched and resident nowhere, or with context 5, which is resident. -/
theorem witness_WaitInReserve :
    meets (.wait 0 0 0) ((inReserve.modCtx 5 fun e => { e with prio := 1 }).modCtx 6 fun e => { e with mode := .ready }) (fun s1 =>
      s1.curCtx = none && s1.best = some 6 && (s1.ctx 6).stall = none) = true ∧
    meets (.wait 0 0 0) inReserve (fun s1 => s1.curCtx = none && s1.best = some 5 && (s1.ctx 5).stall.isSome) = true := by decide

def savedLower : State := after (.ctxsvL 0 1 2) inReserve
def savedBoth : State := after (.ctxsvU 0 3 2) savedLower
def loadedLower : State := after (.ctxldL 0 1 2) savedBoth

theorem witness_ContextGroupMovesStalls :
    meets (.ctxsvL 0 1 2) inReserve (fun s1 => ctxReady (.ctxsvL 0 1 2) 1 2 2 s1 (fun v _ _ => answers (savable v s1) fun c _ => c = 5))
      = true ∧
    meets (.ctxsvU 0 3 2) savedLower (fun s1 => ctxReady (.ctxsvU 0 3 2) 3 2 2 s1 (fun v _ _ =>
      answers (savable v s1) (fun c _ => c = 5) && ((s1.hold v).getD Hold.fresh).savedL)) = true ∧
    meets (.ctxldL 0 1 2) savedBoth (fun s1 => ctxReady (.ctxldL 0 1 2) 1 2 1 s1 (fun v ps s2 =>
      let r := readAreaParts ps s2
      answers (loadable v s1) (fun _ _ => true) && !r.1.lowerBad && !r.1.hdrHalf && r.1.hdrCtx = 5 &&
        (r.2.ctx 5).started && (r.2.ctx 5).stall = none)) = true ∧
    meets (.ctxldU 0 3 2) loadedLower (fun s1 => ctxReady (.ctxldU 0 3 2) 3 2 1 s1 (fun v ps s2 =>
      let r := readAreaParts ps s2
      answers (loadable v s1) (fun h _ => h.loadedL = some 5) && !r.1.upperBad && r.1.hdrHalf && r.1.hdrCtx = 5 &&
        (r.2.ctx 5).started && (r.2.ctx 5).stall = none)) = true := by decide +kernel

/-! ## Witnesses: the tile unit, sealed runs, scheduling, streams -/

/-- Context 5 owns saddle 0, and has declared 4 KiB of buffer memory for reading and for writing. -/
def tiles : State :=
  let s := world false [(1, ⟨0, .shape⟩), (2, int 0), (3, int 0), (4, va 0x2000), (5, ⟨0, .baddr⟩), (6, ⟨0x1000, .baddr⟩)]
  let r : RangeEntry := { off := 0, len := 0x1000, baddr := 0, write := false, consume := false, granted := true, tag := 0 }
  let s1 := withCtx s fun e => { e with pin := some 0, ranges := [(0, r), (1, { r with off := 0x1000, write := true, tag := 1 })] }
  { s1 with
    core := { s1.core with ttlb := { s1.core.ttlb with entries := [(0, entry)] } }
    tile := { s1.tile with sad0 := { s1.tile.sad0 with owner := some 5 } }
    cfg := { s1.cfg with active := (0x400000, 430000) :: s1.cfg.active } }

/-- What a tile instruction meets once it has its saddle, if it issues. -/
def issuedTile (i : Instr) (s : State) : Option (Issued × Nat × State) :=
  match issueTile i s with
  | .ok q s2 =>
    match issueSaddle i q s2 with
    | .ok n s3 => some (q, n, s3)
    | .error _ _ => none
  | .error _ _ => none

/-- Instruction `i` begins and issues, and `p` holds then. -/
def meetsTile (i : Instr) (s : State) (p : Issued → Nat → State → Bool) : Bool :=
  meets i s fun s1 => match issuedTile i s1 with
    | some (q, n, s3) => p q n s3
    | none => false

/-- The rows of the issued instruction are placed, and `p` holds then. -/
def placed (q : Issued) (s3 : State) (p : State → Bool) : Bool :=
  answers (placeRows q.c q.k q.shape q.left q.right s3) fun _ s4 => p s4

theorem witness_TileInstructionIsQueued :
    [Instr.opaT 1 2 3, .opaM 1 5 5, .opkT 1 2 3 63, .opkM 1 5 5 63, .tzf 1 2 0, .tdr 1 2 3 0 0 false false false false,
     .tdr 1 6 3 0 0 false false false false, .tdw 1 4 3 false, .taw 1 5 3, .tewQ 0 2 0 1].all (fun i => queuedTile i &&
      meetsTile i tiles fun q n s3 => placed q s3 fun s4 => !s4.paced q.c && decide ((s4.sad n).queue.length < 64)) = true := by
  decide +kernel

/-- TLD and TST, and their scale forms, of a row of memory and of one of buffer memory. -/
def transfers (m : Option (BitVec 1024)) : List (Instr × Row) :=
  let mem : Row := ⟨.mem, [(0x2000, 512)]⟩
  [(.tld 0 4 3 m, mem), (.tld 0 5 3 m, ⟨.buf, [(0, 512)]⟩), (.tldScale 1 4 3 m, mem), (.tst 0 4 3 m, mem),
   (.tst 0 6 3 m, ⟨.buf, [(0x1000, 512)]⟩), (.tstScale 0 4 3 m, mem)]

theorem witness_TileTransferCompletes :
    [none, some 1].all (fun m => (transfers m).all fun p => meetsTile p.1 tiles fun q n s3 =>
      answers (placeRows q.c q.k q.shape q.left q.right s3) fun r s4 => r.1 = [p.2] && !s4.paced q.c &&
        (s4.sad n).queue.isEmpty && decide (s4.tile.active.toNat = n) &&
        (linesOf 0x2000 512).all (fun l => !s4.mem.lost l) && decide (0x1000 + 512 ≤ s4.buf.size)) = true := by
  decide +kernel

/-- `tiles` with a checksum that does not agree. -/
def badSums : State :=
  { tiles with tile := { tiles.tile with sad0 := { tiles.tile.sad0 with crow := [(0, 1)], live := [(0, true)] } } }

theorem witness_TileControlCompletes :
    meets (.tzfRelease 0 0 0) tiles (fun s1 => answers (issueTile (.tzfRelease 0 0 0) s1) fun q s2 =>
      s1.curCtx = some q.c && !s2.paced q.c && s2.tileIdle (some q.c)) = true ∧
    meetsTile (.tchk 1 0 0) tiles (fun q n s3 => !s3.paced q.c && (s3.sad n).queue.isEmpty && decide (s3.tile.active.toNat = n) &&
      decide (q.k = .tchk ∧ n = 0 ∧ ((s3.countIssue n q).sad n).live = [] ∧ ((s3.countIssue n q).sad n).crow = [])) = true ∧
    [Instr.tsync 0 0 0, .tewR 3 0 0 0, .tewD 0 2 0 0].all (fun i => meetsTile i tiles fun q n s3 =>
      !s3.paced q.c && (s3.sad n).queue.isEmpty && (s3.admitted q.c).isNone) = true ∧
    meetsTile (.tewD 0 2 0 0) (busyTile tiles) (fun q n s3 => !s3.paced q.c && !(s3.sad n).queue.isEmpty) = true := by
  decide +kernel

/-- The error list is empty in that case: `tchk_blank`. -/
theorem witness_TileControlCompletes_agrees (q : Issued) (s : State) (n : Nat) (hk : q.k = .tchk) (h : (s.sad n).blank) :
    ((q.run []).perform n s).errs = [] := tchk_blank (q.run []) n s hk rfl h

theorem witness_TileControlCompletes_mismatch :
    meetsTile (.tchk 1 0 0) badSums (fun q n s3 => !s3.paced q.c && (s3.sad n).queue.isEmpty &&
      decide (s3.tile.active.toNat = n) && !((q.run []).perform n (s3.countIssue n q)).errs.isEmpty) = true := by
  decide +kernel

/-- An image of one run of one TSYNC. -/
def image : Image :=
  { runs := [{ first := 0, last := 0, cycles := 1, pro := 0, epi := 1, replayable := true, chain := false, loops := [] }],
    ops := [OpEntry.zero], pins := [], ranges := [], words := [(coreWord (.tsync 0 0 0)).getD 0], total := 1, maxgap := 0,
    energy := 0, memTimed := false, crc := 0, loadedAt := 0 }

/-- `tiles` with that image loaded. -/
def loaded : State := { tiles with runs := { tiles.runs with images := [(5, image)] } }

/-- Whether the steps of an admission succeed; the instruction already waits in step 5, or not. -/
def admits (i : Instr) (s : State) (five : Bool) : Bool :=
  meetsTile i s fun q _ s3 => s3.inStep5 q.c i = five && (five || !s3.paced q.c && !s3.admissionHeld) &&
    (s3.runs.images.any fun p => p.1 = q.c) &&
    answers (takePins s3.cur.xctx q.c image.pins s3) fun _ s4 =>
      answers (takeRanges q.c image.ranges (if (s4.ctx q.c).waitAt.map (·.insn) ≠ some i then s4.abandonWait q.c else s4))
        fun _ s6 => !s6.power.pfail && s6.governorAdmits (image.energy % 16)

/-- `loaded` with TRUN.GO waiting in step 5. -/
def waitingAdmission (i : Instr) : State :=
  withCtx loaded fun e => { e with waitAt := some { why := .governor, since := 0, tile := true, insn := i, tval := 0, opfield := 0, optag := .none } }

/-- `image` as R208 lays it out. -/
def imageBytes : List Byte :=
  let body := leBytes 4 0x4E555254 ++ leBytes 2 3 ++ leBytes 2 0x101 ++ leBytes 4 0 ++ leBytes 4 1 ++ leBytes 4 1 ++ leBytes 44 0 ++
    leBytes 8 0 ++ leBytes 8 1 ++ leBytes 4 1 ++ leBytes 44 1 ++
    leBytes 8 0 ++ leBytes 40 1 ++ leBytes 4 ((coreWord (.tsync 0 0 0)).getD 0).toNat
  body ++ leBytes 4 (crc32c body).toNat

/-- `tiles` with that image at 0x2000. -/
def stored : State := { tiles with mem := { tiles.mem with store := tiles.mem.store.putBytes 0x2000 imageBytes } }

set_option maxRecDepth 1000000 in
theorem witness_SealedRunInstructions_load :
    meetsTile (.trunLoad 0 4 0) stored (fun q _ s3 => !s3.paced q.c && answers (loadImage q.c q.left s3) fun _ s4 =>
      (s4.ctx 5).runSt = .loaded) = true := by
  decide +kernel

theorem witness_SealedRunInstructions :
    [Instr.trunGo 0 0 0 false, .trunGo 0 0 0 true, .trunGoAt 0 0 3].all (fun i => admits i loaded false &&
      admits i (waitingAdmission i) true) = true ∧
    meets (.trunGo 0 0 0 false) tiles (fun s1 => answers (issueTile (.trunGo 0 0 0 false) s1) fun q s2 =>
      (s2.runs.images.find? fun p => p.1 = q.c).isNone) = true ∧
    meetsTile (.trunStat 3 0 0) tiles (fun q _ s3 => !s3.paced q.c) = true := by
  decide +kernel

/-- `tiles` with a waiting range of context 5. -/
def waiting : State :=
  let w : Wait := { why := .range, since := 0, tile := true, insn := .opaM 1 5 5, tval := 0, opfield := 5, optag := .baddr }
  withStall (withCtx tiles fun e => { e with waitAt := some w, ranges := e.ranges.mapVals fun _ r => { r with granted := false } })
    fun t => { t with bwlimit := 1 }

/-- `busyTile` with the oldest instruction an OPA or an OPK of tiles or of buffer memory, or a TZF, of a region of one cell. -/
def opened (i : Instr) : State :=
  let op : TileOp := { insn := i, shape := 0, left := ⟨0, .baddr⟩, right := ⟨0, .baddr⟩, rows := [], rows2 := [] }
  { tiles with tile := { tiles.tile with sad0 := { tiles.tile.sad0 with queue := [op] } } }

theorem witness_TileEvents_sums :
    [Instr.opaT 1 2 3, .opaM 1 5 5, .opkT 1 2 3 0, .opkM 1 5 5 0, .tzf 1 2 0].all (fun i =>
      match ((opened i).sad 0).queue with
      | o :: _ => let x := o.run .none
        decide (x.r0 + x.m ≤ 1024) && decide (x.c0 + x.n ≤ 1024) && decide (((opened i).sad 0).live = [] ∧ ((opened i).sad 0).crow = []) &&
        (match x.k with | .op _ _ | .tzf => true | _ => false) &&
        x.cells.all (fun p => (((opened i).sad 0).cell p.1 p.2).perr = 0) && x.cells.contains (0, 0) && !x.cells.contains (1, 0)
      | [] => false) = true := by
  decide +kernel

theorem witness_TileEvents_good (i : Instr) (b : Nat) (h : ((opened i).sad 0).blank) : ((opened i).sad 0).blockGood b = true :=
  Saddle.blank_good _ h b

theorem witness_TileEvents :
    (busyTile tiles).live = true ∧ (busyTile tiles).tile.active = 0 ∧ (busyTile tiles).tile.sad0.owner = some 5 ∧
    { tiles with tile := { (busyTile tiles).tile with active := 1 } : State }.mayActivate 0 = true ∧
    waiting.curStall = some 2 ∧ (waiting.ctx 5).waitAt.any (fun w => w.why = .range && (waiting.bufwait 5 w).isSome &&
      decide (w.since / 2 + waiting.cur.bwlimit.bits 31 0 ≤ waiting.now / 2)) = true := by
  decide +kernel

/-- The run that an admission of `image` leaves. -/
def admitted : State := loaded.admitRun 5 0 image [] false none

/-- `admitted` with another state of the run. -/
def withRun (f : Run → Run) : State := { admitted with runs := { admitted.runs with run0 := admitted.runs.run0.map f } }

/-- Whether the run of saddle 0 is running on it, with `p`. -/
def runOn (s : State) (p : Run → Bool) : Bool :=
  s.live && s.tile.active = 0 && match s.run 0 with
    | some r => r.phase = .running && p r
    | none => false

def running (f : Run → Run) : State := withRun fun r => f { r with phase := .running }

/-- The run of `image` with its one instruction started. -/
def ended (r : Run) : Run := { r with todo := [], lastEnd := 1, slot := 1, runStart := [(0, 0)] }

/-- `image` with an operand of memory. -/
def ofMemory : Image :=
  { image with words := [(coreWord (.tld 0 1 0 none)).getD 0], ops := [{ OpEntry.zero with tag := .int }, { OpEntry.zero with tag := .vaddr }] }

theorem witness_RunEvents :
    admitted.live = true ∧ admitted.tile.active = 0 ∧ (admitted.run 0).isSome = true ∧ admitted.runReady 0 = true ∧
    (running id).mayStart 0 = true ∧
    ((running id).run 0).any (fun r => ((r.operation .none).perform 0 (running id)).errs.isEmpty) = true ∧
    runOn (running fun r => { r with charged := [(0, 0, 6)] }) (fun r => r.halt = some (.charge 0 0 6)) = true ∧
    runOn (running fun r => { r with image := ofMemory }) (fun r => r.halt.isNone && r.image.namesVaddr) = true ∧
    ((withRun fun r => { r with abandon := some 6 }).run 0).any (fun r => r.abandon = some 6 && r.halt.isNone) = true ∧
    runOn (running fun r => { r with charged := [(0, 0, 0)] }) (fun r => r.halt = some (.charge 0 0 0) && r.abandon.isNone) = true ∧
    runOn (running ended) (fun r => r.halt.isNone && r.todo.isEmpty && r.abandon.isNone && r.replayed.isEmpty) = true ∧
    runOn (running fun r => { ended r with replayed := [0] })
      (fun r => r.halt.isNone && r.todo.isEmpty && r.abandon.isNone && !r.replayed.isEmpty) = true ∧
    runOn (running fun r => { ended r with image := { image with runs := image.runs.map fun d => { d with cycles := 0 } } })
      (fun r => r.halt = some (.limit 0)) = true ∧
    runOn (running fun r => { r with abandon := some 6 }) (fun r => r.halt.isNone && r.abandon.isSome) = true := by
  decide +kernel

/-- Context 6 of priority 0 owns saddle 1, and has a run ready to start there; context 5 is of priority 1. -/
def rival (s : State) : State :=
  let s1 := (s.modCtx 5 fun e => { e with prio := 1 }).modCtx 6 fun e => { e with mode := .ready }
  { s1 with
    tile := { s1.tile with sad1 := { s1.tile.sad1 with owner := some 6 } }
    runs := { s1.runs with run1 := admitted.runs.run0.map fun r => { r with ctx := 6 } } }

theorem witness_RunPreemptionAndPause :
    runOn (rival (running id)) (fun r => r.halt.isNone && r.abandon.isNone && !r.pauseReq && !r.todo.isEmpty) = true ∧
    (rival (running id)).preemptDue 0 = true ∧
    ((withRun fun r => { r with phase := .preempted }).run 0).any (fun r => r.phase = .preempted && !r.holdBack) = true ∧
    (withRun fun r => { r with phase := .preempted }).otherQuiet 0 = true ∧
    runOn (running fun r => { r with pauseReq := true })
      (fun r => r.pauseReq && r.halt.isNone && r.abandon.isNone && !r.todo.isEmpty) = true := by
  decide +kernel

/-- Nothing is dispatched; context 5 is READY in stall 2; context 7 of the same priority is READY without a stall. -/
def ready : State :=
  let s := (withCtx ints fun e => { e with mode := .ready }).modCtx 7 fun e => { e with mode := .ready, evmask := 0x100 }
  { s with core := { s.core with disp := .idle, decideDue := true } }

/-- `ints` with a slice of 1 CCLK and context 7 READY in stall 3; an alert waits, and the slice has expired. -/
def sliced : State :=
  let s := ints.modCtx 7 fun e => { e with mode := .ready, stall := some 3 }
  let s1 := withStall (s.modCtx 5 fun e => { e with alert := 1 }) fun t => { t with status := 4 }
  { s1 with cfg := { s1.cfg with active := (0x20000, 1) :: s1.cfg.active } }

/-- Context 7 is READY without a stall, and 5 waits; every stall but `k` is in use. -/
def unfilled (k : Nat) : State :=
  let s := ready.modCtx 5 fun e => { e with mode := .waiting }
  { s with core := { s.core with ctxs := s.core.ctxs ++ (((List.range 31).filter fun j => j ≠ k && j ≠ 2).map fun j =>
    (100 + j, { Ctx.free with mode := .waiting, stall := some j })) } }

/-- What a decision for `unfilled` meets. -/
def asksStall (s : State) (k : Option Nat) : Bool :=
  s.live && s.core.disp = .idle && s.best = some 7 && (s.ctx 7).stall.isNone && s.core.ctxs.all (fun p => !p.2.lock) &&
    s.core.fills.isEmpty && s.freeStall = k && s.core.reserve.requests.isEmpty

theorem witness_SchedulerEvents_more :
    asksStall (unfilled 30) (some 30) = true ∧ asksStall (unfilled 31) none = true ∧
    ready.core.switchTo = none ∧ ready.resident 2 = some 5 ∧ (ready.ctx 5).started = true ∧
    (let s : State := { ready with core := { ready.core with switchTo := some 5 } }
     s.live && s.dispatching && s.core.disp = .idle && (s.ctx 5).stall = some 2 && (s.ctx 5).mode = .ready && !(s.ctx 5).inWait) = true := by
  decide +kernel

/-- Context 5 is RUNNING; 7, of a lower PRIO, is READY in stall 3 and chosen; 9 is a LOCK context without a stall. -/
def preempting : State :=
  let s := ((ints.modCtx 7 fun e => { e with mode := .ready, stall := some 3 }).modCtx 5 fun e => { e with prio := 1 }).modCtx 9
    fun e => { e with mode := .ready, lock := true, prio := 2 }
  { s with core := { s.core with decideDue := true, switchTo := some 7 } }

theorem witness_SchedulerEvents_preempt :
    preempting.live = true ∧ preempting.core.disp = .ctx 5 ∧ (preempting.ctx 5).mode = .running ∧ preempting.best = some 7 ∧
    (preempting.ctx 7).stall = some 3 ∧ (preempting.ctx 7).mode = .ready ∧ preempting.dispatching = true ∧
    (preempting.core.ctxs.find? (fun p => p.2.lock && p.2.stall.isNone && p.2.mode = .ready)).map (·.1) = some 9 ∧
    preempting.core.fills = [] ∧ preempting.freeStall = some 0 ∧ 7 ∈ preempting.readyCtxs ∧
    ints.best = some 5 ∧ ints.core.sliceExpired = false ∧ inReserve.core.disp = .reserve := by decide

theorem witness_SchedulerEvents :
    ready.live = true ∧ ready.core.decideDue = true ∧ ready.dispatching = true ∧
    ready.best = some 5 ∧ (ready.ctx 5).stall = some 2 ∧ ready.core.ctxs.all (fun p => !p.2.lock) = true ∧
    ready.schedule.core.switchTo = some 5 ∧ (ready.ctx 5).mode = .ready ∧ (ready.ctx 5).inWait = false ∧
    sliced.live = true ∧ sliced.core.disp = .ctx 5 ∧ sliced.cfgAct 2 0 ≠ 0 ∧
    (sliced.cfgAct 2 0).toNat ≤ sliced.now - sliced.core.dispatchedAt ∧
    sliced.readyCtxs.any (fun c => (sliced.ctx c).prio = (sliced.ctx 5).prio) = true ∧
    ready.timerDue 7 = true ∧ (ready.ctx 7).started = true := by
  decide

/-- The reserve stall is set up, a fill of context 7 is under way, and context 8 has asked for a stall. -/
def overflowing : State :=
  let s := ready.modCtx 8 fun e => { e with mode := .ready }
  { s with core := { s.core with reserve := { s.core.reserve with setUp := true, requests := [8, 7] }, fills := [(7, 4)] } }

/-- Context 7 with a saved record, whose halves lie at 0x6000 and `hi`; its fill into stall 4 is the first. -/
def filling (hi : Nat) : State :=
  let s := ready.modCtx 7 fun e => { e with saveLo := 0x6000, saveHi := hi }
  let t := stallOf false [(1, int 7), (20, va 9)]
  let m := (s.mem.store.putBytes 0x6008 (lowerBytes t 7 0)).putBytes 0x6108 (upperBytes t 7)
  { s with mem := { s.mem with store := m }, core := { s.core with fills := [(7, 4), (8, 5)] } }

/-- Whether the record of context 7 is in order. -/
def recordOk (s : State) : Bool :=
  let lo := s.readArea (s.ctx 7).saveLo (some 7)
  fillOk lo.1 (lo.2.readArea (s.ctx 7).saveHi (some 7)).1 7

theorem witness_StallEvents_fill :
    recordOk (filling 0x6100) = true ∧ recordOk (filling 0x6200) = false ∧ (filling 0x6100).core.fills = (7, 4) :: [(8, 5)] ∧
    (filling 0x6100).live = true ∧ ((filling 0x6100).ctx 7).stall = none ∧
    (((filling 0x6100).modCtx 7 fun e => { e with stall := some 9 }).ctx 7).stall ≠ none := by
  decide +kernel

/-- Every resident context is a LOCK context, so that an overflow has no victim. -/
theorem witness_StallEvents_noVictim :
    let s := overflowing.modCtx 5 fun e => { e with lock := true }
    s.live = true ∧ s.core.reserve.setUp = true ∧ s.dispatching = true ∧ s.core.disp = .idle ∧ s.liveRequests = [8, 7] ∧
    s.victim = none := by
  decide

theorem witness_StallEvents :
    sliced.curStall = some 2 ∧ sliced.cur.status.bit 2 = true ∧ (sliced.ctx 5).alert.bits 3 0 ≠ 0 ∧
    overflowing.live = true ∧ overflowing.core.fills = [(7, 4)] ∧ overflowing.core.disp = .idle ∧
    overflowing.core.reserve.setUp = true ∧ overflowing.dispatching = true ∧ overflowing.liveRequests = [8, 7] ∧
    overflowing.victim = some (5, 2) := by
  decide

/-- Operands of BDECL, BREL and BQRY: an interval beside those of `tiles`, one over them, and entry 63. -/
def declares : State := withStall tiles fun t =>
  { t with regs := [(1, ⟨0x2000, .baddr⟩), (2, int 16), (3, ⟨0xFF0, .baddr⟩), (4, int 0x100000010), (5, int 63), (6, int 0)] }

/-- `declares` with every range entry in use. -/
def fullRanges : State := withCtx declares fun e =>
  { e with ranges := (List.range 64).map fun i =>
    (i, { off := 0, len := 16, baddr := 0, write := false, consume := false, granted := true, tag := 0 }) }

/-- BDECL of the operands in registers `a` and `b` passes its checks, and `p` holds of its context's entries. -/
def declaring (s : State) (a b : Reg) (p : Ctx → Nat → Nat → Bool → Bool) : Bool :=
  meets (.bdecl 7 a b) s fun s1 =>
    let x := (s1.reg a).data
    let y := (s1.reg b).data
    let n := y.bits 31 0
    s1.curCtx = some 5 && (s1.reg a).tag = .baddr && (s1.reg b).tag = .int && y.bits 63 34 = 0 && n ≠ 0 &&
    !(y.bit 32 && y.bit 33) && x.bits 3 0 = 0 && n % 16 = 0 && s1.cur.baddrOk x n && p (s1.ctx 5) (s1.cur.relocate x) n (y.bit 32)

theorem witness_RangeInstructions :
    declaring declares 3 4 (fun e off n w => e.rangeClash off n w) = true ∧
    declaring fullRanges 1 2 (fun e off n w => !e.rangeClash off n w && e.freeRange = none) = true ∧
    declaring declares 1 2 (fun e off n w => !e.rangeClash off n w && e.freeRange = some 2) = true ∧
    [Instr.brel 0 5 0, .bqry 7 5 0, .brel 0 6 0, .bqry 7 6 0].all (fun i => meets i declares fun s1 =>
      s1.curCtx = some 5 && s1.reg 5 = int 63 && s1.reg 6 = int 0 && s1.tileIdle (some 5)) = true := by
  decide +kernel

/-- A descriptor of one row of 16 bytes at 0x2000: COPY_IN from 0x3000 to offset 0; engines 0 and 15 are present. -/
def arms (slots : Tbl StreamSlot) : State :=
  let s := withStall tiles fun t => { t with regs := [(1, va 0x2000), (2, int 0), (3, int 15), (4, int 14), (5, ⟨0x50100, .sdesc⟩)] }
  { s with
    mem := { s.mem with store := { s.mem.store with bytes := [(0x2009, 0x30), (0x2018, 16), (0x201C, 1)] } }
    boot := { s.boot with straps := { s.boot.straps with stePresent := 0x8001 } }, streams := slots }

/-- A descriptor as an engine holds it. -/
def descr : StreamD :=
  { kind := 0, flow := false, notify := true, consume := false, bufOff := 0, bstride := 0, rowLen := 16, rows := 1, memPa := 0x3000,
    mstride := 0, tlog2 := 0, idxPa := 0, statPa := none, statVa := 0, user := 0, granted := false, rowsDone := 0, pchunks := 0,
    firstBad := 0, badRows := 0, cancel := false }

/-- Slot `n` with descriptors. -/
def slotOf (a b : Option StreamD) : StreamSlot := { gen := 1, ctx := 5, act := a, shadow := b }

/-- Every slot of engine 0 in use. -/
def fullEngine : Tbl StreamSlot := (List.range 6).map fun i => (i, slotOf (some descr) none)

/-- SARM of engine `b` reads its descriptor, and `p` holds then. -/
def arming (s : State) (b : Reg) (p : State → Nat → Bool) : Bool :=
  meets (.sarm 7 1 b) s fun s1 => s1.reg 1 = va 0x2000 && (s1.reg b).tag = .int && decide ((s1.reg b).data.toNat < 16) &&
    answers (readDescriptor (s1.reg 1).data s1) fun _ s2 => s2.curCtx = some 5 && p s2 (s1.reg b).data.toNat

/-- SREARM reads its descriptor, and `p` holds then; SSTAT and SCANCEL of the same handle begin. -/
def rearming (s : State) (p : State → Bool) : Bool :=
  meets (.srearm 7 1 5) s (fun s1 => s1.handleOk 0x50100 && s1.reg 1 = va 0x2000 && s1.reg 5 = ⟨0x50100, .sdesc⟩ &&
    answers (readDescriptor 0x2000 s1) fun _ s2 => p s2) &&
  [Instr.sstat 7 0 5, .scancel 7 0 5].all fun i => meets i s fun s1 => s1.reg 5 = ⟨0x50100, .sdesc⟩ && s1.handleOk 0x50100

theorem witness_StreamInstructions :
    arming (arms []) 4 (fun s2 e => !s2.enginePresent e) = true ∧
    arming (arms fullEngine) 2 (fun s2 e => s2.enginePresent e && s2.freeSlot e = none) = true ∧
    [2, 3].all (fun b => arming (arms []) b fun s2 e => s2.enginePresent e && s2.freeSlot e = some 0) = true ∧
    rearming (arms []) (fun s2 => !s2.handleLive 0x50100) = true ∧
    rearming (arms [(0, slotOf (some descr) (some descr))])
      (fun s2 => s2.handleLive 0x50100 && (s2.stream (handleKey 0x50100)).shadow.isSome) = true ∧
    rearming (arms [(0, slotOf (some descr) none)])
      (fun s2 => s2.handleLive 0x50100 && (s2.stream (handleKey 0x50100)).shadow.isNone) = true := by
  decide +kernel

/-- A shadow with a record address. -/
theorem witness_StreamInstructions_shadow :
    ((arms [(0, slotOf (some descr) (some { descr with statPa := some 0x5000 }))]).stream 0).shadow.map (·.statPa) = some (some 0x5000) ∧
    (arms []).mem.lost (0x5000 / 128) = false := by decide

/-- `arms` with an active descriptor in flow mode or not, granted or not, and a pending acquire. -/
def engines (flow granted : Bool) : State :=
  let s := arms [(0, slotOf (some { descr with flow := flow, granted := granted }) none)]
  { s with
    cfg := { s.cfg with active := (0x30000, 1) :: s.cfg.active }
    buf := { s.buf with pend := [{ tag := 9, lo := 0, hi := 16, write := true, owner := .entry 5 1 }] } }

/-- The next row of slot 0 can move; `p` holds of the descriptor. -/
def rowReady (s : State) (p : StreamD → Bool) : Bool :=
  s.live && match (s.stream 0).act with
    | some d => decide (d.rowsDone < d.rows) && !s.rowLost d d.rowsDone && (d.acquire s.buf).1.granted && p d
    | none => false

/-- `engines` with another descriptor in slot 0. -/
def moving (f : StreamD → StreamD) (flow : Bool := false) : State :=
  let s := engines flow true
  s.setStream 0 (slotOf (some (f { descr with flow := flow, granted := true })) none)

theorem witness_StreamEvents :
    [true, false].all (fun f => rowReady (engines f false) fun d => d.fills && !d.granted && d.flow = f &&
      (engines f false).rowPa d 0 = some 0x3000) = true ∧
    rowReady (moving id) (fun d => d.granted && d.rowsDone + 1 = d.rows && d.fills) = true ∧
    rowReady (moving fun d => { d with rows := 2 }) (fun d => decide (d.rowsDone + 1 < d.rows) && !d.cancel) = true ∧
    rowReady (moving fun d => { d with cancel := true }) (fun d => d.cancel) = true ∧
    rowReady (moving fun d => { d with kind := 1 }) (fun d => !d.fills && !windowSpace (0x3000 / 128)) = true ∧
    rowReady (moving fun d => { d with kind := 1, memPa := 3 * 2 ^ 42 }) (fun d => !d.fills && windowSpace (3 * 2 ^ 42 / 128)) = true ∧
    (0xC5 : BitVec 8).toNat % 64 ≤ 5 ∧ (3 : BitVec 8).toNat % 64 = 3 ∧
    ((moving fun d => { d with statPa := some 0x3100 }).stream 0).shadow = none ∧
    (arms [(0, slotOf (some descr) (some descr))]).live = true ∧ ((arms [(0, slotOf (some descr) (some descr))]).stream 0).shadow.isSome = true ∧
    0x3100 % 16 = 0 ∧ (moving id).mem.noTarget.get false (0x3100 / 128) = false ∧ windowSpace (0x3100 / 128) = false ∧
    (engines true false).streamStalled 5 = true ∧ ((engines true false).stream 0).ctx = 5 ∧
    ((engines true false).buf.pend.find? fun a => a.tag = 9).any
      (fun q => (((engines true false).buf.cancel q.tag).tryAcquire q.lo q.hi q.write).1 && q.owner = .entry 5 1) = true ∧
    ((engines true false).ctx 5 |>.range 1).isSome = true := by
  decide +kernel

/-! ## Witnesses: queues, windows, the gate, ports, mailboxes -/

/-- `world` with configuration values. -/
def configured (items : Tbl Word) : State :=
  let s := world false []
  { s with cfg := { s.cfg with active := items ++ s.cfg.active } }

/-- Queue 0 of context 5 and 16 entries, with a waiting entry; queue 1 of context 5, empty; queue 2 disabled; queue 3 of
context 6. -/
def queued : State :=
  { configured [(0x200000, 0x50401), (0x200001, 0x50401), (0x200002, 0x50400), (0x200003, 0x60401)] with
    queues := [(0, { Queue.empty with tail := 2, taken := 1, holders := [5] })] }

/-- A requester's register access reaches the aperture. -/
def accesses (s : State) (who : Requester) : Bool :=
  s.live && match who with
    | .core => s.curStall.isSome
    | .regp c => c ≠ 3
    | .groom t => s.gCanIssue t.toNat && !(s.gthread t.toNat).ext
    | .ijtag => false

theorem accesses_of (s : State) (who : Requester) (h : accesses s who = true) : Accesses s who := by
  cases who <;> simp_all [accesses, Accesses]

/-- `s` with every thread of the Groom running. -/
def withThreads (s : State) : State :=
  { s with groom := { s.groom with threaded := true, threads := (List.range 4).map fun i => (i, { GThread.reset with run := true, level := 0 }) } }

/-- The requesters whose accesses reach the aperture. -/
def requesters : List Requester := [.core, .regp 0, .regp 2, .groom 0, .groom 3]

theorem witness_DoorbellMovesTail :
    queued.live = true ∧ [Requester.core, .regp 0].all (accesses queued) = true ∧
    (withThreads queued).gCanIssue 3 = true ∧ ((withThreads queued).gthread 3).ext = false ∧
    queued.qEn 2 = false ∧ queued.qEn 0 = true ∧ (queued.queue 0).tail = 2 ∧ queued.curStall = some 2 ∧ queued.curCtx = some 5 ∧
    [(3 : BitVec 32), 16].all (fun t => decide (((queued.queue 0).tail - (queued.queue 0).done).toNat < (t - (queued.queue 0).done).toNat) &&
      decide ((t - (queued.queue 0).done).toNat ≤ 2 ^ queued.qLog2 0)) = true ∧
    ((1 : BitVec 32) - (queued.queue 0).done).toNat ≤ ((queued.queue 0).tail - (queued.queue 0).done).toNat ∧
    2 ^ queued.qLog2 0 < ((17 : BitVec 32) - (queued.queue 0).done).toNat := by
  decide

theorem witness_TakeMovesEntry :
    queued.core.disp = .ctx 5 ∧ queued.curStall.isSome = true ∧ queued.qCtx 0 = 5 ∧ (queued.queue 0).tail ≠ (queued.queue 0).taken ∧
    queued.qCtx 1 = 5 ∧ queued.qEn 1 = true ∧ (queued.queue 1).tail = (queued.queue 1).taken ∧ queued.qCtx 2 = 5 ∧
    queued.qEn 2 = false ∧ queued.qCtx 3 ≠ 5 ∧ queued.takeable 5 0 = true ∧ ints.queues.all (fun e => !ints.takeable 5 e.1) = true := by
  decide

/-- Context 5 took last from queue `last`; its queues 1, 4 and 4,095, of one PRIO, and 6, of a higher number, hold an entry. -/
def rotating (last : Nat) : State :=
  let s := configured [(0x200001, 0x50401), (0x200004, 0x50401), (0x200006, 0x50403), (0x200FFF, 0x50401)]
  let q := { Queue.empty with tail := 1 }
  { s with queues := [(1, q), (4, q), (6, q), (4095, q)] }.modCtx 5 fun e => { e with lastTake := last }

/-- R367: the rotation at the boundary values of the last queue. -/
theorem witness_TakeMovesEntry_rotation :
    (rotating 0).queues.all (fun e => (rotating 0).takeable 5 e.1) = true ∧
    [4095, 0, 1, 4, 4094].map (fun l => ((rotating l).qtakeAny 5).2.ctx 5 |>.lastTake) = [1, 1, 4, 4095, 4095] ∧
    inReserve.live = true ∧ inReserve.core.disp = .reserve := by
  decide +kernel

/-- `s` with TSTAT.SPOISON of context 5, which owns saddle 0. -/
def poisonedRun (s : State) : State := s.modSad 0 fun d => { d with owner := some 5, status := { d.status with tstat := 4 } }

theorem witness_QdoneWritesCompletion :
    (queued.queue 0).holders = [5] ∧ (poisonedRun queued).spoison 5 = true ∧
    queued.mem.noTarget.get false (queued.qRecordPa 0 0 / 128) = false ∧ windowSpace (queued.qRecordPa 0 0 / 128) = false ∧
    (queued.queue 0).done.toNat % 65536 = 0 ∧ queued.spoison 5 = false ∧
    (0xAAAAAAAA7FFF0000 : Word).bits 15 0 = 0 ∧ (0xAAAAAAAA7FFF0000 : Word).bits 31 16 ≤ 0x7FFF ∧ (0xFFFF : Word).bits 15 0 ≠ 0 := by
  decide

/-- `configured` with window 0 of context 5, window 1 of context 6 and window 2 of context 5, not enabled; window 0 in a state,
changed by `f`. -/
def windowed (st : WinSt) (f : Window → Window := id) : State :=
  { configured [(0x280000, 0x50001), (0x280001, 0x60001), (0x280002, 0x50000)] with
    windows := [(0, f { Window.empty with st := st, granted := true })] }

/-- An opened window whose target is 32 bytes of buffer memory. -/
def target (w : Window) : Window := { w with target := some (.buf, 0x40), wlen := 2 }

/-- A window whose target is a VADDR. -/
def vaddrAt (a : Word) (w : Window) : Window := { w with wtgt := a ||| 1, wlen := 2 }

theorem witness_WindowCommands :
    (windowed .closed).curCtx = some ((windowed .closed).wOwner 0) ∧ (windowed .closed).wEn 0 = true ∧
    ((windowed .closed).window 0).wtgt.bit 0 = false ∧
    (windowed .closed).cur.baddrOk ((windowed .closed).window 0).addr ((windowed .closed).window 0).bytes = true ∧
    (windowed .closed fun w => { w with wtgt := 0x100000 }).cur.baddrOk 0x100000 0x10000 = false ∧
    [WinSt.opening, .opened, .closing].all (fun st => (windowed st).live && (windowed st).curCtx = some ((windowed st).wOwner 0) &&
      ((windowed st).window 0).st = st && ((windowed st).window 0).granted) = true ∧
    (windowed .closed).curCtx ≠ some ((windowed .closed).wOwner 1) ∧
    (windowed .closed).curCtx = some ((windowed .closed).wOwner 2) ∧ (windowed .closed).wEn 2 = false ∧
    ((windowed .closed (vaddrAt 0x3000)).windowXlate 0x3000 0x20).1.isSome = true ∧
    ((windowed .closed (vaddrAt 0x7FFF0000)).windowXlate 0x7FFF0000 0x20).1.isNone = true ∧
    ((windowed .closing fun w => { target w with wlen := 0x300000002, count := 2 }).window 0).expect = 3 ∧
    ints.ras.fifo.length < 16 := by
  decide +kernel

/-- Each outcome of a remote write, at the boundaries: the last byte of the window, and the one after it. -/
theorem witness_WindowCommands_writes :
    let s := windowed .opened target
    let chunk : List (Byte × Bool) := List.replicate 15 (0, false) ++ [(1, true)]
    s.boot.por = false ∧ s.power.pfDone = false ∧ (s.window 0).target = some (.buf, 0x40) ∧ 0x40 % 16 = 0 ∧
    0x40 + 16 * 1 + 16 * ((chunk.length + 15) / 16) ≤ s.buf.size ∧
    s.windowCheck 0 0 1 chunk = 0 ∧ s.windowCheck 0 0 2 chunk = 3 ∧ s.windowCheck 0 1 1 chunk = 2 ∧
    s.windowCheck 0 1 2 chunk = 2 ∧ (windowed .closing target).windowCheck 0 1 2 chunk = 1 ∧ s.windowCheck 2 0 0 chunk = 1 ∧
    s.windowCheck 1024 0 0 chunk = 1 ∧ s.windowCheck 0 0 0x800 [(1, false)] = 0 := by
  decide +kernel

/-- `configured` with a time-out of 1 cycle and the gate in a state. -/
def gated (f : Gate → Gate) : State := let s := configured [(0x300000, 0)]; { s with gate := f s.gate }

theorem witness_GateCommands :
    (gated id).live = true ∧ (gated id).core.disp = .ctx 5 ∧ (gated id).curStall.isSome = true ∧ (gated id).gate.gateIn = false ∧
    (gated id).gate.cal = none ∧ (gated id).releaseDue = false ∧
    (let s : State := { configured [(0x300000, 1)] with gate := { Gate.reset with lowSeen := true } }
     s.gParts = 1 && s.gParts ≤ s.gate.arrived + 1 && !s.power.pfEnded && !s.releaseDue) = true ∧
    requesters.all (accesses (withThreads (gated id))) = true ∧
    (gated fun g => { g with gateIn := true }).gate.gateIn = true ∧
    [1, 16].all (fun n => (gated fun g => { g with cal := some ⟨n, 0, true⟩ }).gate.cal.any fun k => k.high && k.left ≠ 0) = true ∧
    [true, false].all (fun b => (gated fun g => { g with out := true, riseAt := some 27992, loadArm := b }).releaseDue) = true ∧
    aclkOf 28000 % 8 = 0 ∧ aclkOf 28001 % 8 = 0 ∧ aclkOf 28002 % 8 ≠ 0 ∧
    ({ gated (fun g => { g with out := true, riseAt := some 27992, loadArm := true }) with now := 28002 } : State).releaseDue = true ∧
    ({ gated (fun g => { g with out := true, riseAt := some 27992, loadArm := true }) with now := 28001 } : State).releaseDue = true ∧
    (let s : State := { configured [(0x300000, 1)] with gate := { Gate.reset with out := true, dropAt := some 13999 } }
     s.gate.dropAt.any (fun p => decide (p < aclkOf s.now)) && decide (s.gate.arrived < s.gParts)) = true ∧
    (gated fun g => { g with out := true, outAt := 27998 }).gateTimeoutDue = true := by
  decide +kernel

theorem witness_PortsAndCaches :
    ints.live = true ∧ ints.caches.hasLine 0 = false ∧ (List.replicate 256 (7 : Byte)).length = 256 ∧ (1 : BitVec 8) ≠ 0 ∧
    (List.replicate 16 (7 : Byte)).length % 16 = 0 ∧ 0 * 16 + 16 ≤ ints.buf.size ∧
    (ints.portRun fun r => r.rangesBytes 0 16) = none ∧ 9 ≤ ints.boot.sstep ∧
    [CacheId.l1i, .l1d, .l2].all (fun k => decide (0 < cacheWays k) && !ints.caches.wayOff k (cacheWays k - 1) &&
      !ints.caches.wayOff k 0 && decide (ints.caches.waysOff k < cacheLimit k)) = true := by
  decide +kernel

/-- R322: the third corrected error of L2 way 11 within 86,400 s disables it, and a third one 25 hours after the first does not. -/
theorem test_third_corrected_error :
    let hour : Nat := 3600 * 2800000000
    let at' := fun (h : Nat) (ts : List Nat) => ({ ints with
      now := h * hour, ras := { ints.ras with ceTimes := [(23, ts.map fun t => BitVec.ofNat 64 (t * 3600 * 175000000))] } } : State)
    let off := fun (s : State) => match execWayDisable .l2 11 (.corrected 0 0) s with
      | .next t => t.caches.wayOff .l2 11
      | _ => false
    off (at' 27 [2, 20]) = false ∧ off (at' 38 [20, 27]) = true := by
  decide +kernel

theorem witness_MailboxGoAndAbort :
    (let s := withThreads ints
     [(Requester.regp 0, (0 : BitVec 5)), (.groom 2, 31)].all fun p => accesses s p.1 && s.mbMay p.1 p.2.toNat &&
       (s.mbox p.2.toNat).st ≠ .busy) = true ∧
    (({ ints with bridle := { ints.bridle with ready := false } } : State).mbSubmit 0 |>.mbox 0).st = .busy ∧
    { ints with bridle := { ints.bridle with ready := false } : State }.serves = false ∧
    mailboxOf 0x10000 = some 0 ∧ mailboxOf 0x17E0F = some 31 ∧
    [(Requester.regp 1, (0 : BitVec 5)), (.core, 31)].all (fun p => accesses ints p.1 && !ints.mbMay p.1 p.2.toNat) = true := by
  decide +kernel

theorem witness_CommandCompletion : 65535 < 65536 ∧ (List.replicate 240 (0xFF : Byte)).length ≤ 240 := by decide +kernel

/-- `s` with a command of opcode `op` and payload `pay` that the firmware serves in mailbox 0. -/
def serving (op : Nat) (pay : List Byte) (s : State) (f : Mailbox → Mailbox := id) : State :=
  let bs := leBytes 2 op ++ leBytes 14 0 ++ pay
  let s1 := s.setMbox 0 (f { Mailbox.empty with st := .busy, cmd := bs.zipIdx.map fun p => (p.2, p.1) })
  { s1 with bridle := { s1.bridle with goOrder := [0] } }

/-- Whether the firmware serves opcode `op` in mailbox 0. -/
def isServed (s : State) (op : Nat) : Bool := s.live && s.mbActive 0 (fun o => o = op)

/-- The same, for context `c`. -/
def isServedFor (s : State) (op c : Nat) : Bool := isServed s op && (s.mbox 0).pay 0 2 = c && decide (c ≤ 1023)

theorem witness_ReadingCommands :
    [0x01, 0x40, 0x12].all (fun op => isServed (serving op [] ints) op) = true ∧
    isServed (serving 0x13 [2, 0, 0, 0] ints) 0x13 = true ∧ (itemInfo 2 0).toOption.isSome = true ∧
    isServedFor (serving 0x23 [0xFF, 3] ints) 0x23 1023 = true ∧
    isServed (serving 0x50 [0xFF, 1] ints) 0x50 = true ∧ ((serving 0x50 [0xFF, 1] ints).mbox 0).pay 0 2 ≤ 511 := by
  decide +kernel

/-- What an item and an index are: 0 known, 1 of no item, 2 of no index. -/
def itemKind (item index : Nat) : Nat :=
  match itemInfo item index with
  | .ok _ => 0
  | .error false => 1
  | .error true => 2

/-- The boundary cases of CFG_READ: an item that the set holds, an unknown item, and an index that the item does not have. -/
theorem witness_ReadingCommands_cfgRead :
    (let s := serving 0x13 [2, 0, 0, 0] ints fun b => { b with set := [{ item := 2, index := 0, value := 256 }] }
     isServed s 0x13 && (s.mbox 0).set.any (fun x => x.item = 2 && x.index = 0)) = true ∧
    isServed (serving 0x13 [0xFF, 0xFF, 0, 0] ints) 0x13 = true ∧ itemKind 0xFFFF 0 = 1 ∧
    isServed (serving 0x13 [2, 0, 1, 0] ints) 0x13 = true ∧ itemKind 2 1 = 2 ∧ itemKind 2 0 = 0 := by
  decide +kernel

/-- An item of slice 256. -/
def slice : CfgItem := { item := 2, index := 0, value := 256 }

/-- A CFG_STAGE of that item. -/
def staging : State := serving 0x10 (leBytes 16 1 ++ leBytes 2 2 ++ leBytes 6 0 ++ leBytes 8 256) ints

/-- A CFG_COMMIT with that set, in progress or not. -/
def committing (w : MbWait) (c : Option Commit) (f : Mailbox → Mailbox := id) : State :=
  let s := serving 0x11 (leBytes 4 1000000 ++ leBytes 4 1) ints fun b => f { b with set := [slice], waitFor := w }
  { s with bridle := { s.bridle with commit := c } }

/-- The commit of mailbox 0 in progress, with a deadline. -/
def inProgress (deadline : Nat) (f : Mailbox → Mailbox := id) : State := committing .committing (some ⟨0, 0, deadline, false, []⟩) f

theorem witness_ConfigurationCommit :
    isServed staging 0x10 = true ∧ (staging.mbox 0).pay 0 1 = 1 ∧ firstFrom (fun i => (staging.mbox 0).pay i 1 ≠ 0) 1 15 = none ∧
    (List.range 1).findSome? (fun i => (staging.mbox 0).itemFault 0 i) = none ∧ staging.poolUsed + 1 ≤ 4096 ∧
    (let s : State := staging.setMbox 1 { Mailbox.empty with set := List.replicate 4096 slice }
     decide (4096 < s.poolUsed - 0 + 1) && isServed s 0x10) = true ∧
    ((List.range 1).findSome? fun i =>
      ((serving 0x10 (leBytes 16 1 ++ leBytes 2 0x7777 ++ leBytes 14 0) ints).mbox 0).itemFault 0 i).isSome = true ∧
    isServed (committing .fresh none) 0x11 = true ∧ ((committing .fresh none).mbox 0).pay 0 4 ≤ 1000000 ∧
    ((committing .fresh none).mbox 0).pay 4 4 ≤ 1 ∧ (committing .fresh none).commitFault [slice] = none ∧
    (committing .fresh none).bridle.commit = none ∧ ((committing .fresh none).mbox 0).abortReq = false ∧
    ([slice].map fun it => cfgKey it.item it.index).Nodup ∧ rwpFields slice = [] ∧
    ((committing .fresh none fun b => { b with set := [⟨0x28, 0, 0x70001⟩] }).commitFault [⟨0x28, 0, 0x70001⟩]).isSome = true ∧
    (inProgress 28000).live = true ∧ (inProgress 28000).gateReady = true ∧ isServed (inProgress 27999) 0x11 = true ∧
    (inProgress 27999).stagedAll ⟨0, 0, 27999, false, []⟩ = true ∧ 27999 ≤ (inProgress 27999).now ∧
    isServed (inProgress 99999 fun b => { b with abortReq := true }) 0x11 = true ∧
    isServed (committing .turn none fun b => { b with abortReq := true }) 0x11 = true := by
  decide +kernel

/-- The context table at 0x10000, with a descriptor of context 6 in memory; context 5 in a mode. -/
def tabled (m : CtxMode) : State :=
  let s := withCtx (configured [(0x10000, 0x10000)]) fun e => { e with mode := m }
  { s with mem := { s.mem with store := { s.mem.store with bytes := [(0x10600, 1), (0x10609, 0x80), (0x10611, 0x10)] } } }

/-- The fields of a CTX_STOP of context 5 with a grace. -/
def grace (n : Nat) : List Byte := leBytes 4 5 ++ leBytes 4 n

theorem witness_ContextCommands_start :
    isServedFor (serving 0x20 [6, 0] (tabled .running)) 0x20 6 = true ∧ (tabled .running).cfgAct 1 0 ≠ 0 ∧
    ((tabled .running).ctx 6).mode = .free ∧
    (let r := (tabled .running).unitRead (((tabled .running).cfgAct 1 0).toNat + 256 * 6) 128 none
     !r.2.1 && (⟨r.1⟩ : CtxDesc).ok && !(⟨r.1⟩ : CtxDesc).locked &&
     (saveAreaOf ((⟨r.1⟩ : CtxDesc).word 8) r.2.2).1.isSome &&
     (saveAreaOf ((⟨r.1⟩ : CtxDesc).word 8 + 256) (saveAreaOf ((⟨r.1⟩ : CtxDesc).word 8) r.2.2).2).1.isSome) = true := by
  decide +kernel

theorem witness_ContextCommands :
    [0, 1000000].all (fun n => isServedFor (serving 0x21 (grace n) (tabled .running)) 0x21 5 &&
      ((serving 0x21 (grace n) (tabled .running)).mbox 0).pay 4 4 = n) = true ∧
    ((tabled .running).ctx 5).started = true ∧
    isServedFor (serving 0x21 (grace 10) (tabled .waiting) fun b => { b with waitFor := .grace }) 0x21 5 = true ∧
    isServedFor (serving 0x21 (grace 10) (tabled .running) fun b => { b with waitFor := .grace }) 0x21 5 = true ∧
    isServedFor (serving 0x21 (grace 0) (tabled .stopped)) 0x21 5 = true ∧
    isServedFor (serving 0x21 (grace 0) (tabled .stopped) fun b => { b with waitFor := .cancelling }) 0x21 5 = true ∧
    (arms [(0, slotOf (some descr) none)]).itemsDone 5 = false ∧
    (tabled .waiting).graceOver 5 = true ∧ (tabled .running).graceOver 5 = false ∧ 0 + 2800 * 10 ≤ (tabled .running).now ∧
    isServedFor (serving 0x22 [5, 0] (tabled .stopped)) 0x22 5 = true ∧ ((tabled .stopped).ctx 5).mode = .stopped ∧
    (tabled .stopped).named 5 = false ∧ (tabled .stopped).itemsDone 5 = true ∧ (tabled .stopped).tileIdle (some 5) = true ∧
    isServedFor (serving 0x24 [5, 0, 0xFF, 0xFE] (tabled .running)) 0x24 5 = true ∧
    ((serving 0x24 [5, 0, 0xFF, 0xFE] (tabled .running)).mbox 0).pay 2 2 = 0xFEFF ∧
    isServed (serving 0x25 (leBytes 8 0xFFFF ++ leBytes 8 0xFFFFFFFFFE003 ++ leBytes 8 4) (tabled .running)) 0x25 = true ∧
    ((serving 0x25 (leBytes 8 0xFFFF ++ leBytes 8 0xFFFFFFFFFE003 ++ leBytes 8 4) (tabled .running)).mbox 0).rsvFault = none ∧
    (tabled .running).core.disp ≠ .reserve := by
  decide +kernel

theorem witness_RunCommands :
    [0x30, 0x31, 0x32].all (fun op => let s := serving op [5, 0] (withRun fun r => { r with phase := .paused })
      isServedFor s op 5 && s.runOf 5 = some 0 && (s.admitted 5).any (fun r => r.phase = .paused) && (s.run 0).isSome &&
      (s.sad 0).queue.isEmpty) = true ∧
    [0x30, 0x33].all (fun op => let s := serving op [5, 0] admitted
      isServedFor s op 5 && s.runOf 5 = some 0 && (s.admitted 5).any (fun r => r.phase = .armed) && (s.run 0).isSome &&
      ((s.abandonOf 5 0x0B).admitted 5).isNone) = true := by
  decide +kernel

/-- A RUNNING and a preempted image; contexts without one, one of them with a RUN_CANCEL that waits. -/
theorem witness_RunCommands_running :
    [0x30, 0x31, 0x32, 0x33].all (fun op => let s := serving op [5, 0] (withRun fun r => { r with phase := .running })
      isServedFor s op 5 && s.runOf 5 = some 0 && (s.admitted 5).any (fun r => r.phase = .running && r.abandon.isNone) &&
      (s.run 0).isSome) = true ∧
    (let s := serving 0x30 [5, 0] (withRun fun r => { r with phase := .preempted })
     isServedFor s 0x30 5 && (s.admitted 5).any (fun r => r.phase = .preempted)) = true ∧
    [0x30, 0x31, 0x32, 0x33].all (fun op => let s := serving op [5, 0] ints
      isServedFor s op 5 && (s.admitted 5).isNone && (s.mbox 0).waitFor = .fresh) = true ∧
    (let s := serving 0x33 [5, 0] ints fun b => { b with waitFor := .cancelling }
     isServedFor s 0x33 5 && (s.admitted 5).isNone) = true := by
  decide +kernel

/-- GATE_CAL calibrating, with CALMODE = 1 in force and `left` measurements to come. -/
def calibrating (left : Nat) (abort : Bool) : State :=
  let s := serving 0x60 [] (configured [(0x300000, 0x100000)]) fun b => { b with waitFor := .calibrating, abortReq := abort }
  { s with gate := { s.gate with cal := some ⟨left, 0x2A, false⟩ } }

/-- A licensee command that waits for its answer, which the extension has left in the service page with its notice. -/
def answered : State :=
  let s := serving 0xE0 [] { ints with now := 28000000 } fun b => { b with waitFor := .licensee, since := 0 }
  { s with groom := { s.groom with ipend := 0x10000000000, dram := [(0x2F100, 3), (0x2F108, 4), (0x2F110, 7)] } }

theorem witness_PersistentAndLicenseeCommands :
    isServed (serving 0x41 (leBytes 8 0xFFFFFFF) ints) 0x41 = true ∧ ((serving 0x41 (leBytes 8 0xFFFFFFF) ints).mbox 0).pay 0 8 < 2 ^ 28 ∧
    [384, 511].all (fun n => isServed (serving 0x51 (leBytes 2 n) ints) 0x51 &&
      ((serving 0x51 (leBytes 2 n) ints).mbox 0).pay 0 2 = n) = true ∧
    isServed (serving 0x60 [] ints) 0x60 = true ∧ ints.gParts = 0 ∧ (configured [(0x300000, 1)]).gParts = 1 ∧
    isServed (serving 0x60 [] (configured [(0x300000, 1)])) 0x60 = true ∧ ints.calGate = true ∧ ints.gateCfg.bit 20 = false ∧
    isServed (calibrating 0 false) 0x60 = true ∧ (calibrating 0 false).calEnded = true ∧ (calibrating 0 false).calGate = true ∧
    (calibrating 0 false).gateCfg.bit 20 = true ∧ isServed (calibrating 3 true) 0x60 = true ∧ (calibrating 3 true).calGate = true ∧
    [0xE0, 0xFF].all (fun op => let s := serving op [] ints
      s.live && s.mbActive 0 licenseeOp && !s.mboxes.any fun (p : Nat × Mailbox) => p.2.st = .busy && p.2.waitFor = .licensee) = true ∧
    (answered.live && answered.mbActive 0 licenseeOp && answered.groom.ipend.bit 40 && !answered.groom.extHalted) = true ∧ answerOk answered.extAnswer = true ∧
    leNat ((answered.extAnswer.drop 8).take 2) = 4 ∧ (answered.mbox 0).since + 28000000 ≤ answered.now := by
  decide +kernel

/-! ## Witnesses: registers, start-up, power, the Groom, invariants -/

/-- `ints` with an error record, and the Groom in its machine check. -/
def recorded : State :=
  let s := ints.record (ErrRec.mk0 0x101 8 0 none)
  { s with groom := { s.groom with inMc := true } }

theorem witness_RegisterWriteCommands :
    recorded.live = true ∧ requesters.all (accesses (withThreads recorded)) = true ∧ recorded.curStall.isSome = true ∧
    [Requester.core, .regp 0, .groom 3].all (fun w => formRefused w 0x1F0028 (if fromGroom w then .lo else .both) = false) = true ∧
    ((withThreads recorded).apWrite (.groom 3) 0x1F0028 .lo 7 false).1 = true ∧
    gRestarted (withThreads recorded) ((withThreads recorded).apWrite (.groom 3) 0x1F0028 .lo 7 false).2 = false ∧
    ((withThreads recorded).apWrite (.groom 3) 0x80000 .lo 7 false).1 = false ∧
    [(0x1F002A, Lanes.both), (0x1F0028, .neither)].all (fun p => formRefused .core p.1 p.2) = true ∧
    ((withThreads recorded).gctlWrite 0 0x080 5).isSome = true ∧ ((withThreads recorded).gctlWrite 0 0xFFC 5).isNone = true ∧
    ((withThreads recorded).gctlRead 0x080).isSome = true ∧
    recorded.ras.fifo.length = 1 ∧ ints.ras.fifo = [] ∧ 9 ≤ recorded.boot.sstep ∧ recorded.groom.inMc = true := by
  decide +kernel

/-- The hypotheses of the clauses on the aperture's registers, and a POISON value for the first and last Tack registers. -/
theorem witness_RegisterWriteCommands_fields :
    fromHost (.regp 0) = true ∧ [(0x10, Lanes.lo), (0x18, .lo), (0x20, .both), (0x120018 + 32 * 4095, .hi)].all (fun p =>
      formRefused (.regp 0) p.1 p.2 = false) = true ∧
    [0x30000, 0x3FFF8].all (fun o => tackPoison o ⟨1, .poison⟩) = true ∧ tackPoison 0x40000 ⟨1, .poison⟩ = false := by decide

/-- Start-up with what the self-tests find, at a step; no image at FW_BASE. -/
def starting (n : Nat) (rom dev wait : Bool) : State :=
  { State.reset with boot := { Boot.reset with
    por := false, sstep := n, fwWait := wait, test := { romOk := rom, tackOk := dev, arraysOk := true, badWays := 0 } } }

/-- Firmware runs in threaded mode in the stand state. -/
def standing : State :=
  { ints with bridle := { ints.bridle with stand := true, ready := false }, groom := { ints.groom with threaded := true } }

theorem witness_StartUpCommands :
    State.reset.boot.por = true ∧ ints.boot.por = false ∧
    [(false, true), (true, false), (true, true)].all (fun p => let s := starting 1 p.1 p.2 false
      s.live && s.boot.sstep = 1 && s.booting) = true ∧
    (starting 4 true true false).boot.fwWait = false ∧ (starting 4 true true true).live = true ∧
    (starting 4 true true true).booting = true ∧ (starting 4 true true true).boot.fwWait = true ∧
    (starting 4 true true true).fwOk 0 = false ∧ standing.canBeReady = true ∧ standing.live = true := by
  decide +kernel

/-- A ready Tack store with a write of register 384 queued by thread 0, whose staged half is of that register. -/
def tacked : State :=
  { ints with tack := { ints.tack with ready := true, queue := [⟨384, 0xABCD, [.groom 0]⟩], staging := [(0, 384, 0xFFFFFFFF)] } }

theorem witness_TackStoreCommands :
    tacked.live = true ∧ tacked.tack.staging.get (512, 0) 0 = (384, 0xFFFFFFFF) ∧ (tacked.tack.staging.get (512, 0) 0).1 ≠ 511 ∧
    tacked.tack.queue = [⟨384, 0xABCD, [.groom 0]⟩] ∧ tacked.tack.heldW = [] ∧ tacked.tack.ready = true ∧ tkClass 384 ≠ 0 ∧
    { ints with now := 2240000, power := { ints.power with pfail := true } : State }.power.pfAt + 800 * 2800 ≤ 2240000 := by
  decide +kernel

/-- `tacked` with another Tack store: the low half 0xFFFFFFFF of register `n` staged by thread 0, the tokens of `n` given. -/
def tackedAs (n : Nat) (f : Tack → Tack) : State :=
  let s := { tacked with now := 16 * 2 ^ 34 }
  { s with tack := f { s.tack with staging := [(0, n, 0xFFFFFFFF)] } }

/-- A write of the high half of register `n` of thread 0 is one whose low half is staged. -/
def tackPair (s : State) (n : Nat) : Bool := accesses s (.groom 0) && s.tack.staging.get (512, 0) 0 = (n, 0xFFFFFFFF)

/-- Register 384 has less than one token; register 448 has a write queued behind another; the queue is full; a write is held
behind a queued one in a sealed store. -/
def spent (k : Tack) : Tack := { k with level := [(384, 255)], stamp := [(384, 2 ^ 34)] }
def twice (k : Tack) : Tack := { k with queue := k.queue ++ [⟨448, 1, [.groom 0]⟩] }
def crowded (k : Tack) : Tack := { k with queue := (List.range 8).map fun i => ⟨384 + i, 0, [.groom 0]⟩ }
def heldBack (k : Tack) : Tack := { k with sealedNow := true, heldW := [⟨385, 7, [.groom 0]⟩] }

/-- R474: each refusal, the merge of R475 and the full queue, at writes of registers of the classes that show it. -/
theorem witness_TackStoreCommands_refusals :
    tackPair (withThreads (tackedAs 384 id)) 384 = true ∧
    (tackedAs 384 fun k => { k with ready := false }).tack.ready = false ∧
    (tackedAs 384 fun k => { k with sealedNow := true }).tack.sealedNow = true ∧
    tkClass 0 = 0 ∧ tkClass 2 ≠ 0 ∧ 256 ≤ (tackedAs 384 id).tack.levelAt (tackedAs 384 id).tclkNow 384 ∧
    (tackedAs 384 fun k => { k with devFail := true }).tack.devFail = true ∧
    (tackedAs 384 spent).tack.levelAt (tackedAs 384 spent).tclkNow 384 = 255 ∧
    (tackedAs 448 twice).tack.queue.drop 1 = [⟨448, 1, [.groom 0]⟩] ∧ tkClass 448 = 2 ∧
    (tackedAs 384 crowded).tack.queue.length = 8 ∧
    (tackedAs 384 heldBack).tack.heldW = [⟨385, 7, [.groom 0]⟩] ∧ (tackedAs 384 heldBack).tack.queue = [⟨384, 0xABCD, [.groom 0]⟩] ∧
    (tackedAs 384 heldBack).tack.sealedNow = true := by
  decide +kernel

/-- PWRFAIL_N has been asserted at 0, and `n` CCLK have gone by. -/
def failing (n : Nat) (ended : Bool) : State := { ints with now := n, power := { ints.power with pfail := true, pfEnded := ended } }

/-- The same, the sequence ended and the Tack store sealed. -/
def sealedFailing (n : Nat) : State := let s := failing n true; { s with tack := { s.tack with sealedNow := true } }

theorem witness_PowerAndInputCommands :
    ints.live = true ∧ ints.thermNext 0 false ≠ .emergency ∧ ints.thermNext 0 true = .emergency ∧ ints.thermNext 255 false = .emergency ∧
    ints.power.therm ≠ .emergency ∧ { ints.power with therm := .emergency }.therm = .emergency ∧ ints.power.pfail = false ∧
    (failing 2520000 false).live = true ∧ (failing 2520000 false).power.pfEnded = false ∧ (failing 2520000 false).power.pfail = true ∧
    (failing 2520000 false).power.pfAt + 900 * 2800 ≤ (failing 2520000 false).now ∧ (sealedFailing 2520000).live = true ∧ (sealedFailing 2520000).pfPerformed = true ∧
    (failing 2520000 true).tack.sealedNow = false ∧ ints.wir = .bypass ∧ ints.boot.por = false ∧
    State.reset.boot.por = true ∧ State.reset.wir = .bypass ∧ { State.reset with wir := Wir.extest }.wir = .extest ∧
    { State.reset with wir := Wir.intest }.wir ≠ .scan ∧
    { State.reset with wir := Wir.scan }.wir ≠ .bypass ∧ { State.reset with wir := Wir.scan }.wir ≠ .extest := by
  decide +kernel

/-- The Groom in threaded mode, with thread 0 at the start of IRAM and register values, changed by `f`. -/
def threaded (f : GThread → GThread) : State :=
  let h : GThread := { GThread.reset with
    run := true, pc := 0x10000000,
    w := [(1, 7), (2, 0), (3, 0x1003FFFC), (4, 0x2003FFFC), (5, 0x40000080), (6, 0x80000000), (7, 0x501F0028), (8, 0x1003FFFD),
          (9, 0xFFFFFFFC), (15, 0x20040000)] }
  { ints with groom := { ints.groom with threaded := true, threads := [(0, f h)] } }

/-- The thread that an instruction of thread 0 finds. -/
def issuing (s : State) : GThread := (s.modGthread 0 fun h => h.settle s.groom.lclk).gthread 0

/-- The state that an instruction of thread 0 finds, once its word is fetched. -/
def fetched (s : State) : State :=
  match (s.modGthread 0 fun h => h.settle s.groom.lclk).gFetch 0 with
  | .ok s1 => s1
  | .error _ => s

/-- Whether an instruction of thread 0 begins. -/
def gStarts (s : State) : Bool :=
  s.live && s.gCanIssue 0 && (issuing s).fetchFault.isNone &&
    match (s.modGthread 0 fun h => h.settle s.groom.lclk).gFetch 0 with
    | .ok _ => true
    | .error _ => false

theorem gBegins_of_gStarts (s : State) (h : gStarts s = true) : GBegins 0 s (fetched s) ((fetched s).gthread 0) := by
  simp only [gStarts, Bool.and_eq_true, Option.isNone_iff_eq_none] at h
  obtain ⟨⟨⟨hl, hi⟩, hf⟩, hg⟩ := h
  refine ⟨hl, hi, hf, ?_, rfl⟩
  have h0 : (0 : BitVec 2).toNat = 0 := rfl
  rw [h0]
  unfold fetched
  cases hx : (s.modGthread 0 fun h => h.settle s.groom.lclk).gFetch 0 with
  | ok s1 => rfl
  | error e => rw [hx] at hg; cases hg

theorem witness_GroomArithmetic : gStarts (threaded id) = true ∧ (1 : BitVec 4) ≠ 0 := by decide +kernel

/-- Results on their way in lunge mode, in the order in which they take effect. -/
theorem witness_GroomArithmetic_lunge : State.reset.groom.threaded = false ∧
    [(2, (6 : Half), 9), (1, 5, 10)].Pairwise (fun x y => x.2.2 ≤ y.2.2) := by decide

/-- The access of `n` bytes at register `r` of `threaded` does not fault. -/
def reached (write : Bool) (r n : Nat) (g : GRegion) : Bool :=
  let h := issuing (threaded id)
  (h.dataFault write (h.reg r).toNat n 7).isNone && decide (gRegion (h.reg r).toNat = g)

/-- `threaded` with a frame at the end of DRAM, and an error in its last word. -/
def badFrame : State :=
  let s := threaded fun h => { h with w := h.w.set 15 0x2003FFE0 }
  { s with groom := { s.groom with bad := [(0x2003FFFC / 4, ⟨0, 0, 0⟩)] } }

theorem witness_GroomLoadsAndStores :
    gStarts (threaded id) = true ∧ [(3, 4), (3, 2), (3, 1)].all (fun p => reached false p.1 p.2 .iram && reached true p.1 p.2 .iram) = true ∧
    [4, 2, 1].all (fun n => reached false 4 n .dram && reached true 4 n .dram && reached false 6 n .window &&
      reached true 6 n .window && reached false 2 n .rom) = true ∧
    [4, 2].all (fun n => (issuing (threaded id)).dataFault false 0x1003FFFD n 0 = some 2) = true ∧
    (issuing (threaded id)).dataFault true 0xFFFFFFFC 4 0 = some 3 ∧ (threaded id).mem.lost 0 = false ∧
    (threaded id).mem.store.poisoned 0 4 = false ∧
    { (threaded id).mem with noTarget := [(0, true)] : HostMem }.lost 0 = true ∧
    ((threaded id).mem.store.write 0 [1] true).poisoned 0 4 = true ∧ (threaded id).groom.xwin = 0 ∧
    [0x1003FFFC, 0x2003FFFC, 0x1000].all (fun a => ((threaded id).gBad a).isNone) = true ∧ (badFrame.gBad 0x2003FFFC).isSome = true := by
  decide +kernel

theorem witness_GroomLoadsAndStores_registers :
    reached false 5 4 .control = true ∧ reached true 5 4 .control = true ∧ ((threaded id).gctlRead 0x80).isSome = true ∧
    reached false 7 4 .aperture = true ∧ reached true 7 4 .aperture = true ∧
    (let r := (threaded id).apRead (.groom 0) (gApOff 0x501F0028) (gApLane 0x501F0028)
     r.1.isSome && r.2.ras.restarts = (threaded id).ras.restarts && r.2.groom.halted = (threaded id).groom.halted) = true ∧
    (let r := (threaded id).apWrite (.groom 0) (gApOff 0x501F0028) (gApLane 0x501F0028) 7 false
     r.1 && r.2.ras.restarts = (threaded id).ras.restarts && r.2.groom.halted = (threaded id).groom.halted) = true ∧
    (match (threaded id).gctlWrite 0 0x80 ((threaded id).extValue (issuing (threaded id)) 0x80 7) with
     | some r => decide (r.ras.restarts = (threaded id).ras.restarts) && r.groom.halted = (threaded id).groom.halted
     | none => false) = true := by
  decide +kernel

/-- `threaded` with thread 0 in a handler whose frame is at the end of DRAM, and source 40 pending or not. -/
def handling (chain : Bool) : State :=
  let s := threaded fun h => { h with w := h.w.set 15 0x2003FFE0, level := 3 }
  { s with groom := { s.groom with
    dram := [(0x3FFFC, 0x30)], ien := if chain then 0xFFFFFFFFFFFFFFFF else 0, ipend := 0x10000000000, irqcfg := [(40, (1, 0))] } }

/-- What the IRET of thread 0 of `s` finds: whether it ends the machine check handler, a bad word of the frame, and the source
that comes next. -/
def chains (s : State) : Bool × Bool × Option Nat :=
  let s1 := s.modGthread 0 fun h => h.settle s.groom.lclk
  let f := (s1.gthread 0).reg 15
  let s2 := (s1.gSync 0).modGthread 0 GThread.settleAll
  let w := s2.gWord (f.toNat + 28)
  let s3 := if s2.gEndsMc 0 f then { s2 with groom := { s2.groom with inMc := false } } else s2
  (s2.gEndsMc 0 f, (s2.gFrameBad f.toNat).isSome, s3.gNext 0 (w.toNat % 32) (w.getLsbD 5))

/-- `handling` in the machine check handler, with another machine check pending or not. -/
def inCheck (again : Bool) : State :=
  let s := handling false
  { s with groom := { s.groom with inMc := true, mcFrame := 0x2003FFE0, ipend := if again then 0x200000000 else 0 } }

/-- Thread 0 as an extension, whose frame R415 does not let it read; and a vector word of source 40 with an error. -/
def deniedFrame : State := threaded fun h => { h with ext := true, pc := 0x10030000, w := h.w.set 15 0x2002EFF0 }
def badVector : State := let s := handling true; { s with groom := { s.groom with bad := [(0x10000000 / 4 + 40, ⟨0, 0, 0⟩)] } }
def vectored (s : State) : State := s.modGthread 0 fun h => { h with vbase := 0x10000000 }

theorem witness_GroomControlFlow_refusals :
    gStarts deniedFrame = true ∧ (issuing deniedFrame).frameThere = true ∧
    (issuing deniedFrame).frameDenied false 0x2002EFF0 = some 0x2002EFF0 ∧ (issuing deniedFrame).frameDenied false 0x2002F000 = none ∧
    (issuing (handling true)).frameDenied false 0x2003FFE0 = none ∧
    gStarts (vectored badVector) = true ∧ (issuing (vectored badVector)).frameThere = true ∧
    chains (vectored badVector) = (false, false, some 40) ∧
    ((vectored badVector).gVectorBad 0 40).isSome = true ∧
    ((handling true).gVectorBad 0 40).isNone = true := by
  decide +kernel

theorem witness_GroomControlFlow :
    [handling false, handling true, inCheck false, inCheck true, badFrame].all (fun s => gStarts s && (issuing s).frameThere) = true ∧
    (Instr.gSync 0 0 0 0 (some 0)).spells = true ∧
    chains (handling false) = (false, false, none) ∧ chains (handling true) = (false, false, some 40) ∧
    chains (inCheck false) = (true, false, none) ∧ (inCheck true).groom.ipend.bit 33 = true ∧
    (chains (inCheck true)).1 = true ∧ (chains (inCheck true)).2.1 = false ∧ (chains badFrame).2.1 = true ∧
    gStarts (threaded fun h => { h with w := h.w.set 15 0x10000000 }) = true ∧
    (issuing (threaded fun h => { h with w := h.w.set 15 0x10000000 })).frameThere = false ∧
    ((issuing (threaded id)).reg 3).toNat % 4 = 0 ∧ ((issuing (threaded id)).reg 8).toNat % 4 ≠ 0 := by
  decide +kernel

/-- Thread 0 can take source 40, of PRIO 1; sources pending as in `pend`; in the machine check handler or not. -/
def interrupted (pend : Word) (mc : Bool) : State :=
  let s := threaded fun h => { h with ie := true }
  { s with groom := { s.groom with ien := 0xFFFFFFFFFFFFFFFF, ipend := pend, irqcfg := [(40, (1, 0))], inMc := mc } }

/-- Thread 0 has entered source 41, whose PRIO is 15. -/
def displaced : State :=
  let s := (interrupted 0x10000000000 false).modGthread 0 fun h => { h with entered := some 41 }
  { s with groom := { s.groom with irqcfg := s.groom.irqcfg.set 41 (15, 0) } }

/-- Thread 0 stands at a boundary, where `n` comes next. -/
def atBoundary (s : State) (n : Option Nat) : Bool :=
  s.live && s.gRuns 0 && (s.gthread 0).held.isNone && s.gNext 0 (s.gthread 0).level (s.gthread 0).ie = n

/-- The Groom can take a machine check. -/
def checked (s : State) : Bool := !s.groom.halted && decide (2 ≤ s.boot.sstep)

/-- Thread 0 is held by the divider, or by an access; timer 0 has run out. -/
def dividing : State :=
  let s := threaded fun h => { h with divOp := some ⟨1, 0, 7, 2, 0x10000000⟩ }
  { s with groom := { s.groom with divBusy := some (0, 7000), tmr := [(0, (1, 0))] } }

def heldBy (d : Option (Nat × Half)) : State := threaded fun h => { h with held := some ⟨d⟩ }

theorem witness_GroomEvents :
    (let s := interrupted 0x10000000000 false
     let h := s.gthread 0
     atBoundary s (some 40) && h.pending = [] && h.divOp.isNone && h.settleAll.frameOk &&
       (s.groom.divBusy.map (·.1)) ≠ some 0 && (s.gDisplaced 0 40).isNone && (s.gBad (h.vbase.toNat + 160)).isNone) = true ∧
    (atBoundary displaced (some 40) && displaced.gDisplaced 0 40 = some 41 && !gLevelSource 41) = true ∧
    atBoundary (threaded id) none = true ∧
    [true, false].all (fun mc => let s := interrupted 0x200000000 mc
      checked s && atBoundary s (some 33) && s.groom.ipend.bit 33 && (s.gthread 0).settleAll.frameOk &&
        (s.gBad ((s.gthread 0).vbase.toNat + 132)).isNone) = true ∧
    (checked (threaded id) && atBoundary (threaded id) none && !(threaded id).groom.ipend.bit 33 && !(threaded id).groom.inMc &&
      decide ((threaded id).ras.fifo.length < 16)) = true ∧
    gRegion 0x10000000 = .iram ∧ gRegion 0x2003FFFC = .dram ∧
    (dividing.groom.tmr.get (0, 0) 0).1 ≠ 0 ∧ dividing.gTimer 0 = 0 ∧ dividing.groom.divBusy = some (0, 7000) ∧
    dividing.groom.halted = false ∧ 7000 ≤ dividing.now / 4 ∧ (dividing.gthread 0).divOp.isSome = true ∧
    [true, false].all (fun x => (threaded fun h => { h with ext := x }).gCanIssue 0) = true ∧ (heldBy none).gCanIssue 0 = false ∧
    (8 : Half) &&& 0xFFFFFFF8 ≠ 0 ∧ (7 : Half) &&& 0xFFFFFFF8 = 0 ∧
    [none, some (15, 0xFFFFFFFF)].all (fun d => ((heldBy d).gthread 0).held.isSome && !(heldBy d).tkHolds 0 && (heldBy d).live &&
      !(heldBy d).groom.halted) = true := by
  decide +kernel

/-! ### The invariants hold at reset -/

theorem witness_ResetHolds : HeldInReset State.reset := by unfold HeldInReset; rfl

theorem witness_ErrorFifoBound : FifoBound State.reset := by unfold FifoBound; decide

theorem witness_RecordsEnterTheFifo :
    ints.ras.fifo.length < 16 ∧ 16 ≤ ({ ints.ras with fifo := List.replicate 16 (ErrRec.mk0 0x101 8 0 none) }).fifo.length := by
  decide +kernel

theorem witness_DecodeOfEncode : (coreWord (.trap 0 0 0x7FFF none)).isSome = true ∧ Instr.legal (.trap 0 0 0x7FFF none) = true := by decide

end Sys2Proof.Tests
end

section
/-! PROOFS. What the operand checks of a scalar instruction answer (R42 to R46), and the shapes that propagate POISON on operands
that are all accepted. -/

namespace Sys2Proof.Machine

/-! ### Sequencing in the instruction monad -/

theorem bind_of_ok {α β : Type} {m : M α} {f : α → M β} {s t : State} {x : α} (h : m s = .ok x t) : (m >>= f) s = f x t := by
  simp [bind, EStateM.bind, h]

theorem bind_of_error {α β : Type} {m : M α} {f : α → M β} {s t : State} {e : Abort} (h : m s = .error e t) :
    (m >>= f) s = .error e t := by
  simp [bind, EStateM.bind, h]

theorem get_bind {β : Type} (f : State → M β) (s : State) : (get >>= f) s = f s s := rfl

/-! ### Operand checks (R42 to R46) -/

theorem checkNone_of_ne {os : List Opd} {s : State} (h : ∀ o ∈ os, o.v.tag ≠ .none) : checkNone os s = .ok () s := by
  have hf : os.find? (fun o => o.v.tag = .none) = none := by simpa using h
  simp only [checkNone, hf]
  rfl

theorem checkPoison_of_ne {os : List Opd} {s : State} (h : ∀ o ∈ os, o.v.tag ≠ .poison) : checkPoison os s = .ok () s := by
  have hf : os.find? (fun o => o.v.tag = .poison && !o.ok .poison) = none := by
    simpa using fun o ho hp => absurd hp (h o ho)
  simp only [checkPoison, hf]
  rfl

theorem checkAccepted_of_ok {os : List Opd} {s : State} (h : ∀ o ∈ os, o.ok o.v.tag = true) : checkAccepted os s = .ok () s := by
  have hf : os.find? (fun o => !o.ok o.v.tag) = none := by simpa using h
  simp only [checkAccepted, hf]
  rfl

theorem poisonOf_of_ne {os : List Opd} (h : ∀ o ∈ os, o.v.tag ≠ .poison) : poisonOf os = none := by
  have hf : os.find? (fun o => o.v.tag = .poison) = none := by simpa using h
  simp only [poisonOf, hf, Option.map_none]

theorem checkNone_of_head {o : Opd} {os : List Opd} {s : State} (h : o.v.tag = .none) :
    checkNone (o :: os) s = .error (o.fault 0x40) s := by
  have hf : (o :: os).find? (fun o => o.v.tag = .none) = some o := by simp [h]
  simp only [checkNone, hf]
  rfl

theorem checkPoison_of_head {o : Opd} {os : List Opd} {s : State} (h : o.v.tag = .poison) (hp : o.ok .poison = false) :
    checkPoison (o :: os) s = .error (o.fault 0x41) s := by
  have hf : (o :: os).find? (fun o => o.v.tag = .poison && !o.ok .poison) = some o := by simp [h, hp]
  simp only [checkPoison, hf]
  rfl

theorem checkAccepted_of_head {o : Opd} {os : List Opd} {s : State} (h : o.ok o.v.tag = false) :
    checkAccepted (o :: os) s = .error (o.fault 0x42) s := by
  have hf : (o :: os).find? (fun o => !o.ok o.v.tag) = some o := by simp [h]
  simp only [checkAccepted, hf]
  rfl

/-- A tag that counts as a value: neither NONE nor POISON (R38, R45). -/
def IsValue (t : Tag) : Prop := t ≠ .none ∧ t ≠ .poison

/-- Every operand holds a value of a tag that its position accepts. -/
def Accepted (os : List Opd) : Prop := ∀ o ∈ os, IsValue o.v.tag ∧ o.ok o.v.tag = true

theorem Accepted.ne_none {os : List Opd} (h : Accepted os) : ∀ o ∈ os, o.v.tag ≠ .none := fun o ho => (h o ho).1.1

theorem Accepted.ne_poison {os : List Opd} (h : Accepted os) : ∀ o ∈ os, o.v.tag ≠ .poison := fun o ho => (h o ho).1.2

theorem Accepted.ok {os : List Opd} (h : Accepted os) : ∀ o ∈ os, o.ok o.v.tag = true := fun o ho => (h o ho).2

theorem checkTags_of_accepted {os : List Opd} {s : State} (h : Accepted os) : checkTags os s = .ok () s := by
  unfold checkTags
  rw [bind_of_ok (checkNone_of_ne h.ne_none), bind_of_ok (checkPoison_of_ne h.ne_poison)]
  exact checkAccepted_of_ok h.ok

theorem propagating_of_accepted {d : Reg} {os : List Opd} {v : TVal} {s : State} (h : Accepted os) :
    propagating d os (some v) s = .ok none (s.setReg d v) := by
  unfold propagating
  rw [bind_of_ok (checkNone_of_ne h.ne_none), poisonOf_of_ne h.ne_poison]
  exact bind_of_ok (checkAccepted_of_ok h.ok)

theorem unary_of_tag {d a : Reg} {src dst : Tag} {f : Word → Word} {s : State} {x : Word} (hs : IsValue src)
    (ha : s.reg a = ⟨x, src⟩) : unary d a src dst f s = .ok none (s.setReg d ⟨f x, dst⟩) := by
  unfold unary
  rw [get_bind, propagating_of_accepted (by simp [Accepted, ha, hs, only]), ha]

theorem binaryOf_of_tag {d a b : Reg} {src dst : Tag} {f : Word → Word → Word} {s : State} {x y : Word} (hs : IsValue src)
    (ha : s.reg a = ⟨x, src⟩) (hb : s.reg b = ⟨y, src⟩) :
    binaryOf d a b src dst f s = .ok none (s.setReg d ⟨f x y, dst⟩) := by
  unfold binaryOf
  rw [get_bind, propagating_of_accepted (by simp [Accepted, ha, hb, hs, only]), ha, hb]

theorem ternaryOf_of_tag {d a b : Reg} {t : Tag} {f : Word → Word → Word → Word} {s : State} {x y z : Word} (ht : IsValue t)
    (ha : s.reg a = ⟨x, t⟩) (hb : s.reg b = ⟨y, t⟩) (hd : s.reg d = ⟨z, t⟩) :
    ternaryOf d a b t f s = .ok none (s.setReg d ⟨f x y z, t⟩) := by
  unfold ternaryOf
  rw [get_bind, propagating_of_accepted (by simp [Accepted, ha, hb, hd, ht, only]), ha, hb, hd]

end Sys2Proof.Machine
end

section
/-! PROOFS. Conditions (R52) and branches (R72). -/

namespace Sys2Proof.Machine

/-! ### Conditions (R52) -/

/-- The cause code of the tag fault that a condition of tag `t` takes (R43, R52). -/
def ConditionFault (t : Tag) (code : Nat) : Prop :=
  t = .none ∧ code = 0x40 ∨ t = .poison ∧ code = 0x41 ∨ t ≠ .none ∧ t ≠ .poison ∧ intOrAddr t = false ∧ code = 0x42

theorem isValue_of_intOrAddr {t : Tag} (h : intOrAddr t = true) : IsValue t := by
  cases t <;> simp_all [intOrAddr, IsValue]

theorem condition_of_intOrAddr {field : Nat} {v : TVal} {s : State} (h : intOrAddr v.tag = true) :
    condition field v s = .ok (decide (v.data ≠ 0)) s := by
  unfold condition
  rw [bind_of_ok (checkTags_of_accepted (by simp [Accepted, h, isValue_of_intOrAddr h]))]
  rfl

theorem condition_of_fault {field code : Nat} {v : TVal} {s : State} (h : ConditionFault v.tag code) :
    condition field v s = .error (.trap code field v.tag v.data) s := by
  unfold condition checkTags
  apply bind_of_error
  obtain ⟨ht, rfl⟩ | ⟨ht, rfl⟩ | ⟨hn, hp, ha, rfl⟩ := h
  · rw [bind_of_error (checkNone_of_head ht)]
    simp only [Opd.fault, ht]
  · rw [bind_of_ok (checkNone_of_ne (by simp [ht])), bind_of_error (checkPoison_of_head ht rfl)]
    simp only [Opd.fault, ht]
  · rw [bind_of_ok (checkNone_of_ne (by simpa using hn)), bind_of_ok (checkPoison_of_ne (by simpa using hp))]
    exact checkAccepted_of_head ha

/-! ### Branches (R72) -/

theorem shiftLeft_two_eq_mul_four (x : Word) : x <<< 2 = x * 4 :=
  BitVec.shiftLeft_eq_mul_twoPow x 2

theorem branchTarget_eq (pc : Word) (off : BitVec 20) : branchTarget pc off = pc + off.signExtend 64 * 4 := by
  rw [branchTarget, shiftLeft_two_eq_mul_four]

theorem bits_one_zero (w : Word) : w.bits 1 0 = w.toNat % 4 := by
  simp [Word.bits]

theorem condBranch_of_intOrAddr {a : Reg} {off : BitVec 20} {taken : Bool → Bool} {s : State}
    (h : intOrAddr (s.reg a).tag = true) :
    condBranch a off taken s =
      .ok (if taken (decide ((s.reg a).data ≠ 0)) then some (s.cur.pc + off.signExtend 64 * 4) else none) s := by
  unfold condBranch
  rw [get_bind, bind_of_ok (condition_of_intOrAddr h), branchTarget_eq]
  rfl

theorem condBranch_of_fault {a : Reg} {off : BitVec 20} {taken : Bool → Bool} {s : State} {code : Nat}
    (h : ConditionFault (s.reg a).tag code) :
    condBranch a off taken s = .error (.trap code 2 (s.reg a).tag (s.reg a).data) s := by
  unfold condBranch
  rw [get_bind, bind_of_error (condition_of_fault h)]

theorem exec_bz_of_intOrAddr {a : Reg} {off : BitVec 20} {s s1 : State} (h : Begins (.bz a off) s s1)
    (ha : intOrAddr (s1.reg a).tag = true) : Machine.exec (.bz a off) s =
      .next (After s s1 (if (s1.reg a).data = 0 then some (s1.cur.pc + off.signExtend 64 * 4) else none)) := by
  refine (coreStep_ok h (condBranch_of_intOrAddr ha)).trans ?_
  simp

theorem exec_bnz_of_intOrAddr {a : Reg} {off : BitVec 20} {s s1 : State} (h : Begins (.bnz a off) s s1)
    (ha : intOrAddr (s1.reg a).tag = true) : Machine.exec (.bnz a off) s =
      .next (After s s1 (if (s1.reg a).data ≠ 0 then some (s1.cur.pc + off.signExtend 64 * 4) else none)) := by
  refine (coreStep_ok h (condBranch_of_intOrAddr ha)).trans ?_
  simp

theorem exec_jal {a : Reg} {off : BitVec 20} {s s1 : State} (h : Begins (.jal a off) s s1) : Machine.exec (.jal a off) s =
    .next (After s (s1.setReg a ⟨s1.cur.pc + 4, .vaddr⟩) (some (s1.cur.pc + off.signExtend 64 * 4))) := by
  rw [← branchTarget_eq]
  exact coreStep_ok h rfl

theorem checkTags_vaddr {v : TVal} {s : State} (h : v.tag = .vaddr) : checkTags [⟨2, v, only .vaddr⟩] s = .ok () s :=
  checkTags_of_accepted (by simp [Accepted, IsValue, only, h])

theorem exec_jalr_of_aligned {d a : Reg} {imm : BitVec 15} {s s1 : State} (h : Begins (.jalr d a imm) s s1)
    (hv : (s1.reg a).tag = .vaddr) (ht : ((s1.reg a).data + imm.signExtend 64 * 4).toNat % 4 = 0) :
    Machine.exec (.jalr d a imm) s =
      .next (After s (s1.setReg d ⟨s1.cur.pc + 4, .vaddr⟩) (some ((s1.reg a).data + imm.signExtend 64 * 4))) := by
  refine coreStep_ok h ?_
  rw [get_bind, bind_of_ok (checkTags_vaddr hv)]
  simp only [shiftLeft_two_eq_mul_four, bits_one_zero, ht]
  rfl

theorem exec_jalr_of_misaligned {d a : Reg} {imm : BitVec 15} {s s1 : State} (h : Begins (.jalr d a imm) s s1)
    (hv : (s1.reg a).tag = .vaddr) (ht : ((s1.reg a).data + imm.signExtend 64 * 4).toNat % 4 ≠ 0) :
    Machine.exec (.jalr d a imm) s =
      .next (Aborted (.jalr d a imm) s s1 (.trap 3 0 .none ((s1.reg a).data + imm.signExtend 64 * 4))) := by
  refine coreStep_error h ?_
  rw [get_bind, bind_of_ok (checkTags_vaddr hv)]
  simp only [shiftLeft_two_eq_mul_four, bits_one_zero, if_pos ht]
  rfl

/-- Settles O10: each clause is the rule of its instruction, by the tag of its operand. -/
theorem branchResults : Obligations.BranchResults := by
  unfold Obligations.BranchResults
  rintro d a off imm s s1 v rfl
  refine ⟨exec_bz_of_intOrAddr, exec_bnz_of_intOrAddr, exec_jal, exec_jalr_of_aligned, exec_jalr_of_misaligned,
    fun code hc => ⟨fun h => ?_, fun h => ?_⟩⟩
  · exact coreStep_error h (condBranch_of_fault hc)
  · exact coreStep_error h (condBranch_of_fault hc)

end Sys2Proof.Machine
end

section
/-! PROOFS. The FP64 and FP32 groups: their shapes on operands of the format (R68), the sign-bit operations and NaN results
(R69), and the compares (R70). -/

namespace Sys2Proof.Machine

/-! ### An instruction of a floating-point group on operands of its format (R68) -/

theorem exec_unary {i : Instr} {d a : Reg} {src dst : Tag} {f : Word → Word} {s s1 : State} {x : Word}
    (he : Machine.exec i s = coreStep i (unary d a src dst f) s) (hs : IsValue src) (ha : s1.reg a = ⟨x, src⟩)
    (h : Begins i s s1) : Machine.exec i s = .next (After s (s1.setReg d ⟨f x, dst⟩) none) :=
  he.trans (coreStep_ok h (unary_of_tag hs ha))

theorem exec_binaryOf {i : Instr} {d a b : Reg} {src dst : Tag} {f : Word → Word → Word} {s s1 : State} {x y : Word}
    (he : Machine.exec i s = coreStep i (binaryOf d a b src dst f) s) (hs : IsValue src) (ha : s1.reg a = ⟨x, src⟩)
    (hb : s1.reg b = ⟨y, src⟩) (h : Begins i s s1) :
    Machine.exec i s = .next (After s (s1.setReg d ⟨f x y, dst⟩) none) :=
  he.trans (coreStep_ok h (binaryOf_of_tag hs ha hb))

theorem exec_ternaryOf {i : Instr} {d a b : Reg} {t : Tag} {f : Word → Word → Word → Word} {s s1 : State} {x y z : Word}
    (he : Machine.exec i s = coreStep i (ternaryOf d a b t f) s) (ht : IsValue t) (ha : s1.reg a = ⟨x, t⟩)
    (hd : s1.reg d = ⟨z, t⟩) (hb : s1.reg b = ⟨y, t⟩) (h : Begins i s s1) :
    Machine.exec i s = .next (After s (s1.setReg d ⟨f x y z, t⟩) none) :=
  he.trans (coreStep_ok h (ternaryOf_of_tag ht ha hb hd))

theorem isValue_f64 : IsValue .f64 := by simp [IsValue]

theorem isValue_f32 : IsValue .f32 := by simp [IsValue]

/-! ### FABS and FNEG change only the sign bit (R69) -/

theorem ofNat_mod_two_pow (w : Word) (n : Nat) : Word.ofNat (w.toNat % 2 ^ n) = w &&& BitVec.ofNat 64 (2 ^ n - 1) := by
  apply BitVec.eq_of_getLsbD_eq
  intro i hi
  simp only [Word.ofNat, BitVec.getLsbD_ofNat, BitVec.getLsbD_and, Nat.testBit_mod_two_pow, Nat.testBit_two_pow_sub_one, hi,
    BitVec.testBit_toNat, decide_true, Bool.true_and, Bool.and_comm]

/-- The `n` low bits of a word with the opposite of its bit `n` above them. -/
theorem ofNat_mod_add_not_bit (w : Word) (n : Nat) :
    Word.ofNat (w.toNat % 2 ^ n + if w.bit n then 0 else 2 ^ n) =
      (w &&& BitVec.ofNat 64 (2 ^ (n + 1) - 1)) ^^^ BitVec.ofNat 64 (2 ^ n) := by
  have hsum : w.toNat % 2 ^ n + (if w.bit n then 0 else 2 ^ n) = 2 ^ n * (!w.bit n).toNat + w.toNat % 2 ^ n := by
    cases w.bit n <;> simp [Nat.add_comm]
  have hlow : w.toNat % 2 ^ n < 2 ^ n := Nat.mod_lt _ (Nat.two_pow_pos n)
  rw [hsum]
  apply BitVec.eq_of_getLsbD_eq
  intro i hi
  simp only [Word.ofNat, Word.bit, BitVec.getLsbD_ofNat, BitVec.getLsbD_and, BitVec.getLsbD_xor,
    Nat.testBit_two_pow_mul_add _ hlow, Nat.testBit_mod_two_pow, Nat.testBit_two_pow_sub_one, Nat.testBit_two_pow, hi,
    BitVec.testBit_toNat, decide_true, Bool.true_and]
  obtain hin | rfl | hin := Nat.lt_trichotomy i n
  · simp only [hin, Nat.lt_succ_of_lt hin, Nat.ne_of_gt hin, if_true, decide_true, decide_false, Bool.true_and, Bool.and_true,
      Bool.xor_false]
  · cases w.getLsbD i <;> simp
  · have hbool : (!w.getLsbD n).toNat < 2 ^ (i - n) :=
      Nat.lt_of_lt_of_le (Bool.toNat_lt _) (Nat.le_self_pow (Nat.sub_ne_zero_of_lt hin) 2)
    have hni : ¬ i < n := Nat.not_lt.mpr (Nat.le_of_lt hin)
    have hni' : ¬ i < n + 1 := Nat.not_lt.mpr hin
    simp only [hni, hni', Nat.ne_of_lt hin, Nat.testBit_lt_two_pow hbool, if_false, decide_false, Bool.and_false, Bool.xor_false]

theorem fmtD_absW (x : Word) : fmtD.absW x = x &&& 0x7FFFFFFFFFFFFFFF := ofNat_mod_two_pow x 63

theorem fmtS_absW (x : Word) : fmtS.absW x = x &&& 0x7FFFFFFF := ofNat_mod_two_pow x 31

theorem fmtD_negW (x : Word) : fmtD.negW x = x ^^^ 0x8000000000000000 := by
  refine (ofNat_mod_add_not_bit x 63).trans ?_
  rw [show BitVec.ofNat 64 (2 ^ (63 + 1) - 1) = BitVec.allOnes 64 from rfl, BitVec.and_allOnes]
  rfl

theorem fmtS_negW (x : Word) : fmtS.negW x = (x &&& 0xFFFFFFFF) ^^^ 0x80000000 := ofNat_mod_add_not_bit x 31

/-! ### NaNs -/

theorem FFmt.decode_eq_nan_iff (f : FFmt) (n : Nat) :
    f.decode n = .nan ↔ n / 2 ^ f.mb % 2 ^ f.eb = 2 ^ f.eb - 1 ∧ n % 2 ^ f.mb ≠ 0 := by
  simp only [FFmt.decode]
  by_cases he : n / 2 ^ f.mb % 2 ^ f.eb = 2 ^ f.eb - 1
  · by_cases hm : n % 2 ^ f.mb = 0
    · rw [if_pos he, if_pos hm]
      exact iff_of_false FVal.noConfusion fun h => h.2 hm
    · rw [if_pos he, if_neg hm]
      exact iff_of_true rfl ⟨he, hm⟩
  · rw [if_neg he]
    refine iff_of_false (fun h => ?_) fun h => he h.1
    split at h <;> cases h

theorem fmtD_read_eq_nan_iff (w : Word) : fmtD.read w = .nan ↔ w.bits 62 52 = 0x7FF ∧ w.bits 51 0 ≠ 0 := by
  rw [FFmt.read, FFmt.decode_eq_nan_iff]
  simp only [fmtD, Word.bits, Nat.shiftRight_eq_div_pow]
  omega

theorem fmtS_read_eq_nan_iff (w : Word) : fmtS.read w = .nan ↔ w.bits 30 23 = 0xFF ∧ w.bits 22 0 ≠ 0 := by
  rw [FFmt.read, FFmt.decode_eq_nan_iff]
  simp only [fmtS, Word.bits, Nat.shiftRight_eq_div_pow]
  omega

@[simp] theorem fAdd_nan_left (rm : RMode) (v : FVal) : fAdd rm .nan v = .nan := rfl

@[simp] theorem fAdd_nan_right (rm : RMode) (v : FVal) : fAdd rm v .nan = .nan := by cases v <;> rfl

@[simp] theorem fMul_nan_left (v : FVal) : fMul .nan v = .nan := rfl

@[simp] theorem fMul_nan_right (v : FVal) : fMul v .nan = .nan := by cases v <;> rfl

@[simp] theorem FFmt.div_nan_left (f : FFmt) (rm : RMode) (v : FVal) : f.div rm .nan v = f.qnan := rfl

@[simp] theorem FFmt.div_nan_right (f : FFmt) (rm : RMode) (v : FVal) : f.div rm v .nan = f.qnan := by cases v <;> rfl

@[simp] theorem FVal.negate_nan : FVal.nan.negate = .nan := rfl

@[simp] theorem FFmt.res_nan (f : FFmt) (rm : RMode) : f.res rm .nan = Word.ofNat f.qnan := rfl

theorem fCompare_eq_none_iff (v w : FVal) : fCompare v w = none ↔ v = .nan ∨ w = .nan := by
  cases v <;> cases w <;> simp [fCompare]

/-! ### The rules of a format, from its encodings -/

/-- The encodings of a format in data bits: which words are NaNs, the canonical quiet NaN `q`, the infinities `plus` and
`minus`, minus one, and the mask `low` of the bits that an operand gives (R40, R69). -/
structure FFmt.Encodes (f : FFmt) (nan : Word → Prop) (q plus minus one low : Word) : Prop where
  nan : ∀ w, f.read w = .nan ↔ nan w
  qnan : Word.ofNat f.qnan = q
  plus : f.read plus = .inf false
  minus : f.read minus = .inf true
  zero : f.read 0#64 = .fin false 0 f.qmin
  one : f.read one = .fin true (2 ^ f.mb) (-f.mb)
  low : ∀ w : Word, Word.ofNat (w.toNat % 2 ^ (1 + f.eb + f.mb)) = w &&& low

theorem fmtD_encodes : fmtD.Encodes (fun w => w.bits 62 52 = 0x7FF ∧ w.bits 51 0 ≠ 0) 0x7FF8000000000000 0x7FF0000000000000
    0xFFF0000000000000 0xBFF0000000000000 0xFFFFFFFFFFFFFFFF where
  nan := fmtD_read_eq_nan_iff
  qnan := by decide
  plus := by decide
  minus := by decide
  zero := by decide
  one := by decide
  low w := ofNat_mod_two_pow w 64

theorem fmtS_encodes : fmtS.Encodes (fun w => w.bits 30 23 = 0xFF ∧ w.bits 22 0 ≠ 0) 0x7FC00000 0x7F800000 0xFF800000
    0xBF800000 0xFFFFFFFF where
  nan := fmtS_read_eq_nan_iff
  qnan := by decide
  plus := by decide
  minus := by decide
  zero := by decide
  one := by decide
  low w := ofNat_mod_two_pow w 32

section
variable {f : FFmt} {nan : Word → Prop} {q plus minus one low x y z : Word}

/-- R70: the ordered compares answer 0 on a NaN operand. -/
theorem FFmt.Encodes.compares_nan (h : f.Encodes nan q plus minus one low) (hn : nan x ∨ nan y) :
    f.ceqW x y = 0 ∧ f.cltW x y = 0 ∧ f.cleW x y = 0 := by
  have hc : fCompare (f.read x) (f.read y) = none := by rwa [fCompare_eq_none_iff, h.nan, h.nan]
  simp [FFmt.ceqW, FFmt.cltW, FFmt.cleW, hc, Word.ofBool]

/-- R70: FCUN answers 1 exactly on a NaN operand. -/
theorem FFmt.Encodes.cunW_eq_one_iff (h : f.Encodes nan q plus minus one low) : f.cunW x y = 1 ↔ nan x ∨ nan y := by
  rw [← h.nan, ← h.nan, ← fCompare_eq_none_iff]
  simp [FFmt.cunW, Word.ofBool]

theorem FFmt.Encodes.arithmetic_nan (h : f.Encodes nan q plus minus one low) (rm : Rm) (hn : nan x ∨ nan y) :
    ∀ w ∈ [f.addW rm x y, f.subW rm x y, f.mulW rm x y, f.divW rm x y], w = q := by
  rw [← h.nan, ← h.nan] at hn
  obtain hx | hy := hn
  · simp [FFmt.addW, FFmt.subW, FFmt.mulW, FFmt.divW, hx, h.qnan]
  · simp [FFmt.addW, FFmt.subW, FFmt.mulW, FFmt.divW, hy, h.qnan]

theorem FFmt.Encodes.sqrtW_nan (h : f.Encodes nan q plus minus one low) (rm : Rm) (hx : nan x) : f.sqrtW rm x = q := by
  rw [← h.nan] at hx
  simp [FFmt.sqrtW, FFmt.sqrt, hx, h.qnan]

theorem FFmt.Encodes.fused_nan (h : f.Encodes nan q plus minus one low) (rm : Rm) (hn : nan x ∨ nan y ∨ nan z) :
    ∀ w ∈ [f.maddW rm x y z, f.msubW rm x y z, f.nmaddW rm x y z], w = q := by
  rw [← h.nan, ← h.nan, ← h.nan] at hn
  obtain hx | hy | hz := hn
  · simp [FFmt.maddW, FFmt.msubW, FFmt.nmaddW, hx, h.qnan]
  · simp [FFmt.maddW, FFmt.msubW, FFmt.nmaddW, hy, h.qnan]
  · simp [FFmt.maddW, FFmt.msubW, FFmt.nmaddW, hz, h.qnan]

theorem FFmt.minMax_nan_nan {m : Bool} {a b : Nat} (ha : f.decode a = .nan) (hb : f.decode b = .nan) :
    f.minMax m a b = f.qnan := by
  simp [FFmt.minMax, ha, hb]

theorem FFmt.minMax_nan_left {m : Bool} {a b : Nat} (ha : f.decode a = .nan) (hb : f.decode b ≠ .nan) :
    f.minMax m a b = b := by
  unfold FFmt.minMax
  cases hv : f.decode b with
  | nan => exact absurd hv hb
  | inf n => simp [ha]
  | fin n k e => simp [ha]

theorem FFmt.minMax_nan_right {m : Bool} {a b : Nat} (ha : f.decode a ≠ .nan) (hb : f.decode b = .nan) :
    f.minMax m a b = a := by
  unfold FFmt.minMax
  cases hv : f.decode a with
  | nan => exact absurd hv ha
  | inf n => simp [hb]
  | fin n k e => simp [hb]

theorem FFmt.Encodes.minMax_both_nan (h : f.Encodes nan q plus minus one low) (hx : nan x) (hy : nan y) :
    f.minW x y = q ∧ f.maxW x y = q := by
  rw [← h.nan] at hx hy
  simp only [FFmt.minW, FFmt.maxW, FFmt.minMax_nan_nan hx hy, h.qnan, and_self]

theorem FFmt.Encodes.minMax_left_nan (h : f.Encodes nan q plus minus one low) (hx : nan x) (hy : ¬ nan y) :
    f.minW x y = y &&& low ∧ f.maxW x y = y &&& low := by
  rw [← h.nan] at hx hy
  simp only [FFmt.minW, FFmt.maxW, FFmt.minMax_nan_left hx hy, h.low, and_self]

theorem FFmt.Encodes.minMax_right_nan (h : f.Encodes nan q plus minus one low) (hx : ¬ nan x) (hy : nan y) :
    f.minW x y = x &&& low ∧ f.maxW x y = x &&& low := by
  rw [← h.nan] at hx hy
  simp only [FFmt.minW, FFmt.maxW, FFmt.minMax_nan_right hx hy, h.low, and_self]

/-- R69: ∞ − ∞, 0 × ∞, 0 / 0, ∞ / ∞ and the roots of negative values are invalid. -/
theorem FFmt.Encodes.invalid (h : f.Encodes nan q plus minus one low) (rm : Rm) :
    ∀ w ∈ [f.addW rm plus minus, f.subW rm plus plus, f.mulW rm 0 plus, f.divW rm 0 0, f.divW rm plus minus,
      f.sqrtW rm minus, f.sqrtW rm one], w = q := by
  simp [FFmt.addW, FFmt.subW, FFmt.mulW, FFmt.divW, FFmt.sqrtW, h.plus, h.minus, h.zero, h.one, fAdd, fMul, FVal.negate,
    FFmt.div, FFmt.sqrt, h.qnan]

end

/-- Settles O8: the group's shapes on operands of the format, then R69 and R70 from the encodings of each format. -/
theorem floatingPointGroupResults : Obligations.FloatingPointGroupResults := by
  unfold Obligations.FloatingPointGroupResults
  refine ⟨⟨fun d a b rm s s1 x y z ha => ?_, fun d a b rm s s1 x y z ha => ?_⟩, fun x y => ?_, fun rm x y z => ?_⟩
  · have hv := isValue_f64
    exact ⟨exec_binaryOf rfl hv ha, exec_binaryOf rfl hv ha, exec_binaryOf rfl hv ha, exec_binaryOf rfl hv ha,
      exec_unary rfl hv ha, exec_ternaryOf rfl hv ha, exec_ternaryOf rfl hv ha, exec_ternaryOf rfl hv ha,
      exec_binaryOf rfl hv ha, exec_binaryOf rfl hv ha,
      fmtD_absW x ▸ exec_unary rfl hv ha, fmtD_negW x ▸ exec_unary rfl hv ha,
      exec_binaryOf rfl hv ha, exec_binaryOf rfl hv ha, exec_binaryOf rfl hv ha, exec_binaryOf rfl hv ha⟩
  · have hv := isValue_f32
    exact ⟨exec_binaryOf rfl hv ha, exec_binaryOf rfl hv ha, exec_binaryOf rfl hv ha, exec_binaryOf rfl hv ha,
      exec_unary rfl hv ha, exec_ternaryOf rfl hv ha, exec_ternaryOf rfl hv ha, exec_ternaryOf rfl hv ha,
      exec_binaryOf rfl hv ha, exec_binaryOf rfl hv ha,
      fmtS_absW x ▸ exec_unary rfl hv ha, fmtS_negW x ▸ exec_unary rfl hv ha,
      exec_binaryOf rfl hv ha, exec_binaryOf rfl hv ha, exec_binaryOf rfl hv ha, exec_binaryOf rfl hv ha⟩
  · have hD := fmtD_encodes
    have hS := fmtS_encodes
    exact ⟨hD.compares_nan, hD.cunW_eq_one_iff, hS.compares_nan, hS.cunW_eq_one_iff, by decide, by decide, by decide, by decide⟩
  · have hD := fmtD_encodes
    have hS := fmtS_encodes
    exact ⟨⟨hD.arithmetic_nan rm, hD.sqrtW_nan rm, hD.fused_nan rm, hD.minMax_both_nan, hD.minMax_left_nan,
        hD.minMax_right_nan, hD.invalid rm⟩,
      ⟨hS.arithmetic_nan rm, hS.sqrtW_nan rm, hS.fused_nan rm, hS.minMax_both_nan, hS.minMax_left_nan,
        hS.minMax_right_nan, hS.invalid rm⟩,
      by decide⟩

end Sys2Proof.Machine
end

section
/-! PROOFS. Facts about lists and conditionals that the proofs use and the core library does not state: the package builds without
Mathlib. -/

namespace Sys2Proof.Machine

section
variable {α β : Type}

theorem ite_congr_iff {p q : Prop} [Decidable p] [Decidable q] {x y u v : α} (h : p ↔ q) (hx : x = u) (hy : y = v) :
    (if p then x else y) = if q then u else v :=
  ite_congr (propext h) (fun _ => hx) fun _ => hy

theorem getD_getElem (xs : List α) (d : α) {i : Nat} (h : i < xs.length) : xs.getD i d = xs[i] := by
  rw [List.getD_eq_getElem?_getD, List.getElem?_eq_getElem h, Option.getD_some]

theorem getD_append_before (xs ys : List α) (d : α) {i : Nat} (h : i < xs.length) : (xs ++ ys).getD i d = xs.getD i d := by
  rw [List.getD_eq_getElem?_getD, List.getElem?_append_left h, List.getD_eq_getElem?_getD]

theorem getD_append_after (xs ys : List α) (d : α) {i : Nat} (h : xs.length ≤ i) :
    (xs ++ ys).getD i d = ys.getD (i - xs.length) d := by
  rw [List.getD_eq_getElem?_getD, List.getElem?_append_right h, List.getD_eq_getElem?_getD]

theorem foldl_congr_mem {f g : β → α → β} {xs : List α} {b : β} (h : ∀ b, ∀ x ∈ xs, f b x = g b x) : xs.foldl f b = xs.foldl g b := by
  induction xs generalizing b with
  | nil => rfl
  | cons x xs ih =>
    rw [List.foldl_cons, List.foldl_cons, h b x List.mem_cons_self]
    exact ih fun b y hy => h b y (List.mem_cons_of_mem x hy)

theorem find?_congr_mem {p q : α → Bool} {xs : List α} (h : ∀ x ∈ xs, p x = q x) : xs.find? p = xs.find? q := by
  induction xs with
  | nil => rfl
  | cons x xs ih =>
    rw [List.find?_cons, List.find?_cons, h x List.mem_cons_self, ih fun y hy => h y (List.mem_cons_of_mem x hy)]

theorem nodup_map_of_injective {f : α → β} (hf : ∀ x y, f x = f y → x = y) {xs : List α} (h : xs.Nodup) : (xs.map f).Nodup :=
  List.pairwise_map.mpr (h.imp fun hne he => hne (hf _ _ he))

end

end Sys2Proof.Machine
end

section
/-! PROOFS. A block that is held in reset (R491): every command leaves it as it is, but PORESET_N itself, the levels on LIC_IRQ and
the test wrapper, and these leave every register at its Reset column. -/

namespace Sys2Proof.Machine

/-! ### A block that does not act -/

theorem coreStep_of_no_stall {i : Instr} {body : M (Option Word)} {s : State} (h : s.curStall = none) :
    coreStep i body s = .next s := by
  simp only [coreStep, State.runInsn, h]

theorem eventStep_of_not_live {ok : Bool} {f : State → State} {s : State} (h : s.live = false) : eventStep ok f s = .next s :=
  eventStep_idle s (by simp [h])

/-- The commands that reach what PORESET_N does not hold: the reset itself, the LIC_IRQ inputs and the test wrapper. -/
def actsInReset : Instr → Bool
  | .poresetAssert _ | .poresetRelease _ _ | .licIrq _ _ | .wsBypass | .wsExtest _ | .wsIntest _ | .wsScan | .wsMbist => true
  | _ => false

section
variable {s : State} (hs : HeldInReset s)
include hs

theorem por_of_held : s.boot.por = true := by rw [hs]; rfl

theorem live_of_held : s.live = false := by simp [State.live, por_of_held hs]

theorem curStall_of_held : s.curStall = none := by rw [hs]; rfl

theorem fifo_of_held : s.ras.fifo = [] := by rw [hs]; rfl

theorem idle_of_held : s.idle = s := by
  have ht : s.tick = s := by simp [State.tick, por_of_held hs]
  simp [State.idle, ht, live_of_held hs]

/-- The queue of waiting commands is no register. -/
theorem held_of_pending (cs : List Instr) : HeldInReset { s with pending := cs } := by
  unfold HeldInReset at hs ⊢
  rw [hs]
  rfl

/-- Neither are the test wrapper and its boundary register. -/
theorem held_of_wrapper (i : Wir) (cells : List Bool) : HeldInReset { s with wir := i, wbr := cells } := by
  unfold HeldInReset at hs ⊢
  rw [hs]
  rfl

theorem held_of_lic (lic : BitVec 8) : HeldInReset { s with groom := { s.groom with lic := lic } } := by
  unfold HeldInReset at hs ⊢
  rw [hs]
  rfl

/-- While PORESET_N is asserted nothing is dispatched and no event occurs. -/
theorem exec_of_held (c : Instr) (hc : actsInReset c = false) : exec c s = .next s := by
  have hl := live_of_held hs
  have hk := curStall_of_held hs
  cases c with
  | add | sub | and | or | xor | sll | srl | sra | mul | mulh | mulhu | div | divu | rem | remu | min | max | minu |
  maxu | ceq | cne | clt | cltu | cle | cleu | addi | andi | ori | xori | slli | srli | srai | ceqi | clti | cltui |
  movi | orsh | tagof | retag | mov | cmovnz | cmovz | faddD | fsubD | fmulD | fdivD | fsqrtD | fmaddD | fmsubD |
  fnmaddD | fminD | fmaxD | fabsD | fnegD | fceqD | fcltD | fcleD | fcunD | faddS | fsubS | fmulS | fdivS | fsqrtS |
  fmaddS | fmsubS | fnmaddS | fminS | fmaxS | fabsS | fnegS | fceqS | fcltS | fcleS | fcunS | fcvtDI | fcvtDIu | fcvtID
  | fcvtIuD | fcvtSI | fcvtSIu | fcvtIS | fcvtIuS | fcvtDS | fcvtSD | ldI8 | ldI8u | ldI16 | ldI16u | ldI32 | ldI32u |
  ldI | ldF32 | ldF64 | ldVa | ldBa | ldSh | ldSd | ldW | stI8 | stI16 | stI32 | stI | bz | bnz | jal | jalr | fence |
  fenceSt | ifence | ssync | srd | swr | tret | wait | yieldOp | keysw | ctxsvL | ctxsvU | ctxldL | ctxldU | sarm |
  srearm | sstat | scancel | bdecl | brel | bqry | opaT | opaM | opkT | opkM | tld | tldScale | tst | tstScale | tzf |
  tzfRelease | tdr | tdw | taw | tchk | tsync | tewQ | tewR | tewD | trunLoad | trunGo | trunGoAt | trunStat =>
    exact coreStep_of_no_stall hk
  | trap d a imm w =>
    show execTrap d a imm w s = .next s
    unfold execTrap
    split
    · exact coreStep_of_no_stall hk
    · rfl
  | gSync t d a b w =>
    show execGSync t d a b w s = .next s
    unfold execGSync
    split
    · rfl
    · apply eventStep_of_not_live hl
  | windowWrite w gen off data pz tag =>
    show execWindowWrite w gen off data pz tag s = .next s
    simp only [execWindowWrite, por_of_held hs, if_true]
  | regWrite who space off lanes op =>
    cases space with
    | aperture => cases op <;> apply eventStep_of_not_live hl
    | groomCtl | bist => apply eventStep_of_not_live hl
  | errAdv who =>
    have hcopy : s.copyHead = s := by simp only [State.copyHead, fifo_of_held hs]
    show execErrAdv who s = .next s
    simp only [execErrAdv, hcopy, ite_self]
    apply eventStep_of_not_live hl
  | poresetAssert | poresetRelease | licIrq | wsBypass | wsExtest | wsIntest | wsScan | wsMbist => simp [actsInReset] at hc
  | _ => apply eventStep_of_not_live hl

theorem held_of_wirLoad (i : Wir) {t : State} (h : wirLoad i s = .next t) : HeldInReset t := by
  cases h
  split
  · exact held_of_wrapper hs i s.wbr
  · exact hs

theorem held_of_wirShift (i : Wir) (cells : List Bool) {t : State} (h : wirShift i cells s = .next t) : HeldInReset t := by
  cases h
  split
  · exact held_of_wrapper hs i cells
  · exact hs

/-- No command but the release of PORESET_N takes the block out of reset. -/
theorem held_of_exec (c : Instr) {t : State} (hc : ∀ straps test, c ≠ .poresetRelease straps test) (h : exec c s = .next t) :
    HeldInReset t := by
  cases hq : actsInReset c with
  | false =>
    rw [exec_of_held hs c hq] at h
    cases h
    exact hs
  | true =>
    cases c with
    | poresetAssert cut => cases h; rfl
    | poresetRelease straps test => exact absurd rfl (hc straps test)
    | licIrq n level => cases h; exact held_of_lic hs _
    | wsBypass =>
      cases h
      split
      · exact held_of_wrapper hs .bypass s.wbr
      · exact hs
    | wsExtest cells | wsIntest cells => exact held_of_wirShift hs _ cells h
    | wsScan | wsMbist => exact held_of_wirLoad hs _ h
    | _ => simp [actsInReset] at hq

end

/-- Settles O56: the command at the front of the queue is executed on a block that is still held in reset. -/
theorem resetHolds : Obligations.ResetHolds := by
  unfold Obligations.ResetHolds
  intro s t hs h hp
  cases hq : s.pending with
  | nil =>
    simp only [step, hq, idle_of_held hs] at h
    cases h
    exact hs
  | cons c rest =>
    simp only [step, hq] at h
    exact held_of_exec (held_of_pending hs rest) c (fun straps test e => hp straps test rest (e ▸ hq)) h

end Sys2Proof.Machine
end

section
/-! PROOFS. The bound of the error FIFO (R460). Only `State.record` adds a record, and it does so below the bound. For every function
that a command runs, one lemma says that it leaves the error records as they are (`f_ras`), or that it keeps the bound (`f_fifo`). A
`_ras` lemma that is true by definition is proved by `(rfl)`, so that it is a rewriting rule and the hypotheses of the `_fifo` lemmas
can be discharged with it. In the instruction monad the rules of `FifoM` follow the text of a function. -/

namespace Sys2Proof.Machine

/-- The state in which a run of the instruction monad ends. -/
def endState {α : Type} (r : EStateM.Result Abort State α) : State :=
  match r with
  | .ok _ t => t
  | .error _ t => t

/-- From a state within the bound, the instruction monad ends within it. -/
structure FifoM {α : Type} (m : M α) : Prop where
  keeps : ∀ s : State, s.ras.fifo.length ≤ 16 → (endState (m s)).ras.fifo.length ≤ 16

section
variable {α β : Type} {m : M α} {f : α → M β}

@[simp] theorem fifoM_pure (x : α) : FifoM (pure x : M α) := ⟨fun _ h => h⟩

@[simp] theorem fifoM_throw (e : Abort) : FifoM (throw e : M α) := ⟨fun _ h => h⟩

@[simp] theorem fifoM_bind (hm : FifoM m) (hf : ∀ x, FifoM (f x)) : FifoM (m >>= f) := by
  refine ⟨fun s h => ?_⟩
  have h1 := hm.keeps s h
  simp only [bind, EStateM.bind]
  cases hr : m s with
  | ok x t => rw [hr] at h1; exact (hf x).keeps t h1
  | error e t => rw [hr] at h1; exact h1

@[simp] theorem fifoM_throw_bind (e : Abort) : FifoM ((throw e : M α) >>= f) := ⟨fun _ h => h⟩

@[simp] theorem fifoM_map {g : α → β} (hm : FifoM m) : FifoM (g <$> m) := by
  refine ⟨fun s h => ?_⟩
  have h1 := hm.keeps s h
  simp only [Functor.map, EStateM.map]
  cases hr : m s with
  | ok x t => rw [hr] at h1; exact h1
  | error e t => rw [hr] at h1; exact h1

@[simp] theorem fifoM_get : FifoM get := ⟨fun _ h => h⟩

@[simp] theorem fifoM_get_bind {f : State → M β} (hf : ∀ s, s.ras.fifo.length ≤ 16 → FifoM (f s)) : FifoM (get >>= f) :=
  ⟨fun s h => (hf s h).keeps s h⟩

@[simp] theorem fifoM_set {s : State} (h : s.ras.fifo.length ≤ 16) : FifoM (set s : M PUnit) := ⟨fun _ _ => h⟩

@[simp] theorem fifoM_modify {f : State → State} (hf : ∀ s, s.ras.fifo.length ≤ 16 → (f s).ras.fifo.length ≤ 16) :
    FifoM (modify f : M PUnit) := ⟨fun s h => hf s h⟩

@[simp] theorem fifoM_ite {c : Prop} [Decidable c] {a b : M α} (ha : c → FifoM a) (hb : ¬c → FifoM b) :
    FifoM (if c then a else b) := by
  split
  · exact ha ‹_›
  · exact hb ‹_›

theorem fifoM_check {c : Prop} [Decidable c] {m : M PUnit} {f : PUnit → M α} (hm : FifoM m) (hf : ∀ x, FifoM (f x)) :
    FifoM (if c then m >>= f else f ⟨⟩) := by
  split
  · exact fifoM_bind hm hf
  · exact hf _

end

@[simp] theorem foldl_ras {α : Type} {f : State → α → State} (hf : ∀ s x, (f s x).ras = s.ras) (xs : List α) (s : State) :
    (xs.foldl f s).ras = s.ras := by
  induction xs generalizing s with
  | nil => rfl
  | cons x xs ih => rw [List.foldl_cons, ih, hf]

@[simp] theorem foldl_fifo {α : Type} {f : State → α → State}
    (hf : ∀ s x, s.ras.fifo.length ≤ 16 → (f s x).ras.fifo.length ≤ 16) (xs : List α) (s : State) (h : s.ras.fifo.length ≤ 16) :
    (xs.foldl f s).ras.fifo.length ≤ 16 := by
  induction xs generalizing s with
  | nil => exact h
  | cons x xs ih => exact ih _ (hf s x h)

@[simp] theorem ite_fifo {c : Prop} [Decidable c] {a b : State} (ha : c → a.ras.fifo.length ≤ 16)
    (hb : ¬c → b.ras.fifo.length ≤ 16) : (if c then a else b).ras.fifo.length ≤ 16 := by
  split
  · exact ha ‹_›
  · exact hb ‹_›

@[simp] theorem ite_ras {c : Prop} [Decidable c] {a b : State} {r : Ras} (ha : c → a.ras = r) (hb : ¬c → b.ras = r) :
    (if c then a else b).ras = r := by
  split
  · exact ha ‹_›
  · exact hb ‹_›

theorem foldl_keeps {α β : Type} {P : β → Prop} {f : β → α → β} (hf : ∀ b x, P b → P (f b x)) (xs : List α) (b : β)
    (h : P b) : P (xs.foldl f b) := by
  induction xs generalizing b with
  | nil => exact h
  | cons x xs ih => exact ih _ (hf b x h)

theorem foldl_const {α β γ : Type} {g : β → γ} {f : β → α → β} (hf : ∀ b x, g (f b x) = g b) (xs : List α) (b : β) :
    g (xs.foldl f b) = g b := by
  induction xs generalizing b with
  | nil => rfl
  | cons x xs ih => rw [List.foldl_cons, ih, hf]

theorem ite_snd_ras {α : Type} {c : Prop} [Decidable c] {a b : α × State} {r : Ras} (ha : a.2.ras = r) (hb : b.2.ras = r) :
    (if c then a else b).2.ras = r := by
  split
  · exact ha
  · exact hb

theorem ite_snd_fifo {α : Type} {c : Prop} [Decidable c] {a b : α × State} (ha : a.2.ras.fifo.length ≤ 16)
    (hb : b.2.ras.fifo.length ≤ 16) : (if c then a else b).2.ras.fifo.length ≤ 16 := by
  split
  · exact ha
  · exact hb

/-! ### Machine/Ops.lean -/

@[simp] theorem State.pmcAdd_ras (s : State) (n k : Nat) : (s.pmcAdd n k).ras = s.ras := by
  simp [State.pmcAdd]

@[simp] theorem State.raiseMachineCheck_ras (s : State) : s.raiseMachineCheck.ras = s.ras := (rfl)

@[simp] theorem State.raiseEvent_ras (s : State) (c k : Nat) : (s.raiseEvent c k).ras = s.ras := by
  simp [State.raiseEvent]

@[simp] theorem State.raiseAlert_ras (s : State) (c b : Nat) : (s.raiseAlert c b).ras = s.ras := by
  simp [State.raiseAlert]

@[simp] theorem State.alertAll_ras (s : State) (b : Nat) : (s.alertAll b).ras = s.ras := by
  simp [State.alertAll]

@[simp] theorem State.record_fifo (s : State) (r : ErrRec) (h : s.ras.fifo.length ≤ 16) :
    (s.record r).ras.fifo.length ≤ 16 := by
  have ha : ∀ u : State, (if r.ctx = 0xFFFF then u else u.raiseAlert r.ctx.toNat 1).ras = u.ras := fun u => by
    split
    · rfl
    · exact State.raiseAlert_ras ..
  refine (congrArg (fun x : Ras => x.fifo.length ≤ 16) (ha _)).mpr ?_
  split
  next hlt =>
    dsimp only
    rw [List.length_append, List.length_singleton]
    omega
  next => exact h

@[simp] theorem State.meetUpset_fifo (s : State) (k : Nat) (rs : List Nat) (h : s.ras.fifo.length ≤ 16) :
    (s.meetUpset k rs).ras.fifo.length ≤ 16 := by
  unfold State.meetUpset
  exact foldl_fifo (fun s p h => State.record_fifo _ _ (by simp [h])) _ s h

/-! ### Machine/Cache.lean -/

@[simp] theorem State.maLines_ras (s : State) (op : Nat) (lines : List Nat) (wdata : List (Nat × Byte)) (wpoison : List Nat) :
    (s.maLines op lines wdata wpoison).ras = s.ras := by
  simp only [State.maLines]
  split <;> rfl

@[simp] theorem State.maRequest_ras (s : State) (op line : Nat) (wdata : List (Nat × Byte)) (wpoison : List Nat) :
    (s.maRequest op line wdata wpoison).ras = s.ras := (rfl)

@[simp] theorem State.readRequests_ras (s : State) (lines : List Nat) : (s.readRequests lines).ras = s.ras := by
  simp [State.readRequests]

@[simp] theorem State.writeBack_ras (s : State) (line : Nat) : (s.writeBack line).ras = s.ras := (rfl)

@[simp] theorem State.putCaches_ras (s : State) (c : Caches) (dirtied : Option Nat) : (s.putCaches c dirtied).ras = s.ras := by
  simp [State.putCaches]

@[simp] theorem State.cacheAccess_ras (s : State) (k : CacheId) (line : Nat) (write st : Bool) :
    (s.cacheAccess k line write st).2.ras = s.ras := by
  simp [State.cacheAccess]

@[simp] theorem State.tileLineRead_ras (s : State) (line : Nat) : (s.tileLineRead line).2.ras = s.ras := by
  simp only [State.tileLineRead]
  split <;> (try split) <;> simp

@[simp] theorem State.tileBlockRead_ras (s : State) (ls : List Nat) : (s.tileBlockRead ls).ras = s.ras := by
  simp only [State.tileBlockRead, State.maLines_ras]
  exact foldl_const (g := fun r : List Nat × State => r.2.ras) (fun r l => by simp) ls ([], s)

@[simp] theorem State.unitRequest_ras (s : State) (line o : Nat) (bs : List Byte) (poison : Bool) :
    (s.unitRequest line o bs poison).ras = s.ras := by
  simp [State.unitRequest]

/-! ### Machine/Translate.lean -/

@[simp] theorem trapM_fifo {α : Type} (code : Nat) (tval : Word) : FifoM (trapM code tval : M α) := by
  simp [trapM]

@[simp] theorem State.noTargetRecord_fifo (s : State) (pa : Nat) (c : Option Nat) (h : s.ras.fifo.length ≤ 16) :
    (s.noTargetRecord pa c).ras.fifo.length ≤ 16 := by
  simp [State.noTargetRecord, h]

@[simp] theorem State.walkErrorRecord_fifo (s : State) (a level : Nat) (tile : Bool) (c : Option Nat)
    (h : s.ras.fifo.length ≤ 16) :
    (s.walkErrorRecord a level tile c).ras.fifo.length ≤ 16 := by
  simp only [State.walkErrorRecord]
  split <;> simp [h]

@[simp] theorem lookup_fifo (x : XCtx) (kind : Kind) (tile : Bool) (va : Word) (c : Option Nat) :
    FifoM (lookup x kind tile va c) := by
  simp only [lookup]
  repeat' first
    | with_reducible refine fifoM_check ?_ ?_ | with_reducible refine fifoM_get_bind ?_ | with_reducible refine fifoM_bind ?_ ?_
    | with_reducible refine fifoM_ite ?_ ?_ | with_reducible refine fifoM_set ?_ | with_reducible refine fifoM_modify ?_
    | split | intro _
  all_goals simp [*]

@[simp] theorem translate_fifo (x : XCtx) (kind : Kind) (tile : Bool) (va : Word) (c : Option Nat) :
    FifoM (translate x kind tile va c) := by
  simp only [translate]
  repeat' first
    | with_reducible refine fifoM_check ?_ ?_ | with_reducible refine fifoM_get_bind ?_ | with_reducible refine fifoM_bind ?_ ?_
    | with_reducible refine fifoM_ite ?_ ?_ | with_reducible refine fifoM_set ?_ | with_reducible refine fifoM_modify ?_
    | split | intro _
  all_goals simp [*]

@[simp] theorem translateCur_fifo (kind : Kind) (tile : Bool) (va : Word) : FifoM (translateCur kind tile va) := by
  simp [translateCur]

@[simp] theorem State.lostAccess_fifo (s : State) (pa : Nat) (c : Option Nat) (h : s.ras.fifo.length ≤ 16) :
    (s.lostAccess pa c).ras.fifo.length ≤ 16 := by
  simp [State.lostAccess, h]

@[simp] theorem State.memRead_fifo (s : State) (k : CacheId) (pa n : Nat) (st : Bool) (c : Option Nat)
    (h : s.ras.fifo.length ≤ 16) :
    (s.memRead k pa n st c).2.ras.fifo.length ≤ 16 := by
  simp only [State.memRead]
  split <;> simp [h]

@[simp] theorem State.memWrite_fifo (s : State) (pa : Nat) (bs : List Byte) (poison st : Bool) (c : Option Nat)
    (h : s.ras.fifo.length ≤ 16) :
    (s.memWrite pa bs poison st c).ras.fifo.length ≤ 16 := by
  simp [State.memWrite, h]

@[simp] theorem State.bufRead_fifo (s : State) (off n : Nat) (c : Option Nat) (h : s.ras.fifo.length ≤ 16) :
    (s.bufRead off n c).2.ras.fifo.length ≤ 16 := by
  simp only [State.bufRead]
  split <;> simp [h]

@[simp] theorem State.bufWrite_fifo (s : State) (port off : Nat) (bs : List Byte) (poison : Bool) (c : Option Nat)
    (h : s.ras.fifo.length ≤ 16) :
    (s.bufWrite port off bs poison c).ras.fifo.length ≤ 16 := by
  simp [State.bufWrite, h]

@[simp] theorem State.poisonIn_fifo (s : State) (src unit : Nat) (chunks : List Nat) (c : Option Nat)
    (h : s.ras.fifo.length ≤ 16) :
    (s.poisonIn src unit chunks c).ras.fifo.length ≤ 16 := by
  simp only [State.poisonIn]
  split <;> simp [h]

@[simp] theorem translateParts_fifo (kind : Kind) (va : Word) (a : List (Nat × Nat)) : FifoM (translateParts kind va a) := by
  induction a with
  | nil => exact fifoM_pure []
  | cons p ps ih => simp [translateParts, ih]

@[simp] theorem readParts_fifo (c : Option Nat) (a : List (TlbEntry × Nat × Nat)) (a2 : State) (h : a2.ras.fifo.length ≤ 16) :
    (readParts c a a2).2.ras.fifo.length ≤ 16 := by
  induction a generalizing a2 with
  | nil => exact h
  | cons p ps ih =>
    simp only [readParts]
    exact ih _ (by split <;> simp [h])

@[simp] theorem writeParts_fifo (c : Option Nat) (poison : Bool) (a : List (TlbEntry × Nat × Nat)) (a2 : List Byte)
    (a3 : State) (h : a3.ras.fifo.length ≤ 16) :
    (writeParts c poison a a2 a3).ras.fifo.length ≤ 16 := by
  induction a generalizing a2 a3 with
  | nil => exact h
  | cons p ps ih =>
    simp only [writeParts]
    exact ih _ _ (by split <;> simp [h])

@[simp] theorem fetchCheck_fifo : FifoM (fetchCheck) := by
  simp only [fetchCheck]
  repeat' first
    | with_reducible refine fifoM_check ?_ ?_ | with_reducible refine fifoM_get_bind ?_ | with_reducible refine fifoM_bind ?_ ?_
    | with_reducible refine fifoM_ite ?_ ?_ | with_reducible refine fifoM_set ?_ | with_reducible refine fifoM_modify ?_
    | split | intro _
  all_goals simp [*]

/-! ### Machine/Buffer.lean -/

@[simp] theorem State.dropRanges_ras (s : State) (c : Nat) : (s.dropRanges c).ras = s.ras := (rfl)

@[simp] theorem State.unitWrite_fifo (s : State) (pa : Nat) (bs : List Byte) (poison : Bool) (c : Option Nat)
    (h : s.ras.fifo.length ≤ 16) :
    (s.unitWrite pa bs poison c).ras.fifo.length ≤ 16 := by
  unfold State.unitWrite
  exact foldl_fifo (fun s p h => by simp only; split <;> (try split) <;> simp [h]) _ s h

@[simp] theorem State.unitRead_fifo (s : State) (pa n : Nat) (c : Option Nat) (h : s.ras.fifo.length ≤ 16) :
    (s.unitRead pa n c).2.2.ras.fifo.length ≤ 16 := by
  unfold State.unitRead
  refine foldl_keeps (P := fun r : List Byte × Bool × State => r.2.2.ras.fifo.length ≤ 16) (fun r p hr => ?_) _ ([], false, s) h
  simp only
  split <;> simp [hr]

@[simp] theorem State.engineAcquire_ras (s : State) (k : Nat) : (s.engineAcquire k).ras = s.ras := by
  simp only [State.engineAcquire]
  split <;> rfl

@[simp] theorem State.completeDesc_fifo (s : State) (c : Nat) (d : StreamD) (status : Nat) (h : s.ras.fifo.length ≤ 16) :
    (s.completeDesc c d status).ras.fifo.length ≤ 16 := by
  unfold State.completeDesc
  split <;> simp [h]

@[simp] theorem State.cancelSlot_fifo (s : State) (k : Nat) (h : s.ras.fifo.length ≤ 16) :
    (s.cancelSlot k).ras.fifo.length ≤ 16 := by
  simp only [State.cancelSlot]
  split <;> simp [h]

@[simp] theorem State.cancelStreams_fifo (s : State) (p : Nat → Bool) (h : s.ras.fifo.length ≤ 16) :
    (s.cancelStreams p).ras.fifo.length ≤ 16 := by
  simp +contextual [State.cancelStreams, h]

/-! ### Machine/Queue.lean -/

@[simp] theorem State.modQueue_ras (s : State) (q : Nat) (f : Queue → Queue) : (s.modQueue q f).ras = s.ras := (rfl)

@[simp] theorem State.putRecord_fifo (s : State) (q : Nat) (seq : BitVec 32) (status value : Nat) (c : Option Nat)
    (h : s.ras.fifo.length ≤ 16) :
    (s.putRecord q seq status value c).ras.fifo.length ≤ 16 := by
  simp [State.putRecord, h]

@[simp] theorem State.writeCompletion_fifo (s : State) (q status value : Nat) (c : Option Nat) (h : s.ras.fifo.length ≤ 16) :
    (s.writeCompletion q status value c).ras.fifo.length ≤ 16 := by
  simp [State.writeCompletion, h]

@[simp] theorem State.pump_ras (s : State) (q : Nat) : (s.pump q).ras = s.ras := (rfl)

@[simp] theorem State.failEntries_fifo (q status : Nat) (a : List Nat) (a2 : State) (h : a2.ras.fifo.length ≤ 16) :
    (a2.failEntries q status a).ras.fifo.length ≤ 16 := by
  induction a generalizing a2 with
  | nil => exact h
  | cons i is ih => exact ih _ (by simp [h])

@[simp] theorem State.failQueue_fifo (s : State) (q : Nat) (p : Nat → Bool) (status : Nat) (h : s.ras.fifo.length ≤ 16) :
    (s.failQueue q p status).2.ras.fifo.length ≤ 16 := by
  simp [State.failQueue, h]

@[simp] theorem State.disableQueue_fifo (s : State) (q : Nat) (h : s.ras.fifo.length ≤ 16) :
    (s.disableQueue q).ras.fifo.length ≤ 16 := by
  simp [State.disableQueue, h]

@[simp] theorem State.failInFlight_fifo (s : State) (p : Nat → Bool) (status : Nat) (h : s.ras.fifo.length ≤ 16) :
    (s.failInFlight p status).2.ras.fifo.length ≤ 16 := by
  unfold State.failInFlight
  exact foldl_keeps (P := fun r : Nat × State => r.2.ras.fifo.length ≤ 16) (fun r e hr => by simp [hr]) _ (0, s) h

@[simp] theorem State.doorbell_ras (s : State) (q : Nat) (t : BitVec 32) : (s.doorbell q t).ras = s.ras := by
  unfold State.doorbell
  extract_lets
  repeat' split
  all_goals simp_all

@[simp] theorem State.qtake_ras (s : State) (q : Nat) (c : Option Nat) : (s.qtake q c).2.ras = s.ras := by
  unfold State.qtake
  exact ite_snd_ras rfl <| ite_snd_ras rfl <| ite_snd_ras rfl rfl

@[simp] theorem State.qtakeAny_ras (s : State) (c : Nat) : (s.qtakeAny c).2.ras = s.ras := by
  simp only [State.qtakeAny]
  split <;> rfl

@[simp] theorem State.qdone_fifo (s : State) (q : Nat) (c : Option Nat) (w : Word) (poison : Bool)
    (h : s.ras.fifo.length ≤ 16) :
    (s.qdone q c w poison).ras.fifo.length ≤ 16 := by
  simp only [State.qdone]
  repeat' split
  all_goals simp_all

/-! ### Machine/Stop.lean -/

@[simp] theorem State.setSad_ras (s : State) (i : Nat) (d : Saddle) : (s.setSad i d).ras = s.ras := by
  simp [State.setSad]

@[simp] theorem State.modSad_ras (s : State) (i : Nat) (f : Saddle → Saddle) : (s.modSad i f).ras = s.ras := by
  simp [State.modSad]

@[simp] theorem State.setRun_ras (s : State) (i : Nat) (r : Option Run) : (s.setRun i r).ras = s.ras := by
  simp [State.setRun]

@[simp] theorem State.imagePoison_fifo (s : State) (r : Run) (ix : Nat) (h : s.ras.fifo.length ≤ 16) :
    (s.imagePoison r ix).ras.fifo.length ≤ 16 := by
  simp only [State.imagePoison]
  split <;> simp [h]

@[simp] theorem State.finishRun_fifo (s : State) (r : Run) (result : BitVec 8) (ix : Nat) (h : s.ras.fifo.length ≤ 16) :
    (s.finishRun r result ix).ras.fifo.length ≤ 16 := by
  simp [State.finishRun, h]

@[simp] theorem State.endRun_fifo (s : State) (i : Nat) (result : BitVec 8) (ix : Nat) (h : s.ras.fifo.length ≤ 16) :
    (s.endRun i result ix).ras.fifo.length ≤ 16 := by
  simp only [State.endRun]
  split <;> simp [h]

@[simp] theorem State.endParked_fifo (s : State) (c : Nat) (result : BitVec 8) (h : s.ras.fifo.length ≤ 16) :
    (s.endParked c result).ras.fifo.length ≤ 16 := by
  simp only [State.endParked]
  split <;> simp [h]

@[simp] theorem State.abandonRun_fifo (s : State) (i : Nat) (result : BitVec 8) (h : s.ras.fifo.length ≤ 16) :
    (s.abandonRun i result).ras.fifo.length ≤ 16 := by
  simp only [State.abandonRun]
  split <;> (try split) <;> simp [h]

@[simp] theorem State.abandonOf_fifo (s : State) (c : Nat) (result : BitVec 8) (h : s.ras.fifo.length ≤ 16) :
    (s.abandonOf c result).ras.fifo.length ≤ 16 := by
  simp only [State.abandonOf]
  split <;> simp [h]

@[simp] theorem State.setWindow_ras (s : State) (w : Nat) (v : Window) : (s.setWindow w v).ras = s.ras := (rfl)

@[simp] theorem State.closeWindow_ras (s : State) (w : Nat) (spoil : Bool) : (s.closeWindow w spoil).ras = s.ras := by
  simp [State.closeWindow]

@[simp] theorem State.closeOwned_ras (s : State) (c : Nat) : (s.closeOwned c).ras = s.ras := by
  simp [State.closeOwned]

@[simp] theorem State.abandonWait_ras (s : State) (n : Nat) : (s.abandonWait n).ras = s.ras := (rfl)

@[simp] theorem State.freeStallOf_ras (s : State) (c : Nat) : (s.freeStallOf c).ras = s.ras := by
  simp only [State.freeStallOf]
  split <;> rfl

@[simp] theorem State.stopContext_fifo (s : State) (c cause : Nat) (h : s.ras.fifo.length ≤ 16) :
    (s.stopContext c cause).2.ras.fifo.length ≤ 16 := by
  simp only [State.stopContext, State.trigger_ras, State.closeOwned_ras]
  refine State.cancelStreams_fifo _ _ ?_
  rw [State.dropRanges_ras]
  refine State.failInFlight_fifo _ _ _ (State.abandonOf_fifo _ _ _ ?_)
  simp only [State.modCtx_ras, State.freeStallOf_ras, State.abandonWait_ras]
  split <;> exact h

@[simp] theorem State.stopByError_fifo (s : State) (c cause : Nat) (r : ErrRec) (h : s.ras.fifo.length ≤ 16) :
    (s.stopByError c cause r).ras.fifo.length ≤ 16 := by
  simp [State.stopByError, h]

/-! ### Machine/Trap.lean -/

@[simp] theorem State.recordToHeader_ras (s : State) (n : Nat) : (s.recordToHeader n).ras = s.ras := by
  simp only [State.recordToHeader]
  split <;> rfl

@[simp] theorem State.writeFlags_fifo (s : State) (n v : Nat) (h : s.ras.fifo.length ≤ 16) :
    (s.writeFlags n v).ras.fifo.length ≤ 16 := by
  simp [State.writeFlags, h]

@[simp] theorem State.frameFault_fifo (s : State) (n k cause : Nat) (h : s.ras.fifo.length ≤ 16) :
    (s.frameFault n k cause).ras.fifo.length ≤ 16 := by
  simp [State.frameFault, h]

@[simp] theorem State.trapEntry_fifo (s : State) (n k code opfield : Nat) (optag : Tag) (alert : Bool) (tval pc : Word)
    (h : s.ras.fifo.length ≤ 16) :
    (s.trapEntry n k code opfield optag alert tval pc).ras.fifo.length ≤ 16 := by
  have hx := (translate_fifo { (s.stall k).xctx with sys := true } 2 false ((s.stall k).tsp - 256) (some n)).keeps s h
  simp only [State.trapEntry]
  split
  · exact State.frameFault_fifo _ _ _ _ h
  · split
    · next hr => rw [hr] at hx; exact State.frameFault_fifo _ _ _ _ hx
    · next hr =>
      rw [hr] at hx
      split
      · exact State.frameFault_fifo _ _ _ _ hx
      · simp only [State.modStall_ras, State.modCtx_ras, State.abandonWait_ras]
        refine State.memWrite_fifo _ _ _ _ _ _ ?_
        split
        · exact State.writeFlags_fifo _ _ _ (by rw [State.recordToHeader_ras]; exact hx)
        · exact hx

@[simp] theorem State.settleHold_fifo (s : State) (p : Nat × Hold) (h : s.ras.fifo.length ≤ 16) :
    (s.settleHold p).ras.fifo.length ≤ 16 := by
  simp only [State.settleHold]
  split <;> simp [h]

@[simp] theorem State.reserveFault_fifo (s : State) (cause : Nat) (h : s.ras.fifo.length ≤ 16) :
    (s.reserveFault cause).ras.fifo.length ≤ 16 := by
  simp +contextual [State.reserveFault, h]

@[simp] theorem State.retire_ras (s : State) (k : Nat) (n : Option Nat) (pc : Word) : (s.retire k n pc).ras = s.ras := by
  simp only [State.retire]
  split <;> simp

@[simp] theorem State.setWait_ras (s : State) (n : Option Nat) (i : Instr) (why : WaitWhy) (opfield : Nat) (optag : Tag)
    (tval : Word) :
    (s.setWait n i why opfield optag tval).ras = s.ras := by
  simp only [State.setWait]
  split <;> rfl

@[simp] theorem State.abort_fifo (s : State) (i : Instr) (k : Nat) (n : Option Nat) (pc : Word) (a : Abort)
    (h : s.ras.fifo.length ≤ 16) :
    (s.abort i k n pc a).ras.fifo.length ≤ 16 := by
  simp only [State.abort]
  split <;> simp [h]

@[simp] theorem issueChecks_fifo (i : Instr) : FifoM (issueChecks i) := by
  simp only [issueChecks]
  repeat' first
    | with_reducible refine fifoM_check ?_ ?_ | with_reducible refine fifoM_get_bind ?_ | with_reducible refine fifoM_bind ?_ ?_
    | with_reducible refine fifoM_ite ?_ ?_ | with_reducible refine fifoM_set ?_ | with_reducible refine fifoM_modify ?_
    | split | intro _
  all_goals simp [*]

theorem State.runInsn_fifo {s : State} {i : Instr} {body : M (Option Word)} (hb : FifoM body) (h : s.ras.fifo.length ≤ 16) :
    (s.runInsn i body).ras.fifo.length ≤ 16 := by
  unfold State.runInsn
  split
  · exact h
  · have hc := (issueChecks_fifo i).keeps s h
    split
    · next hr => rw [hr] at hc; exact State.abort_fifo _ _ _ _ _ _ hc
    · next s1 hr =>
      rw [hr] at hc
      have h2 := hb.keeps s1 hc
      split
      · next hr => rw [hr] at h2; rw [State.retire_ras]; exact h2
      · next hr => rw [hr] at h2; exact State.abort_fifo _ _ _ _ _ _ h2

@[simp] theorem requireSystem_fifo (i : Instr) : FifoM (requireSystem i) := by
  simp [requireSystem]

@[simp] theorem trapReturn_fifo : FifoM (trapReturn) := by
  unfold trapReturn
  refine fifoM_get_bind fun s h => ?_
  have hx := (translate_fifo { s.cur.xctx with sys := true } 1 false s.cur.tsp s.curCtx).keeps s h
  refine fifoM_check (fifoM_throw _) fun _ => ?_
  split
  · next hr => rw [hr] at hx; exact fifoM_bind (fifoM_set hx) fun _ => fifoM_throw _
  · next e pa s1 hr =>
    rw [hr] at hx
    have hm := State.memRead_fifo s1 .l1d pa 48 e.st s.curCtx hx
    generalize s1.memRead .l1d pa 48 e.st s.curCtx = r at hm ⊢
    refine fifoM_bind (fifoM_set hx) fun _ => fifoM_check (fifoM_throw _) fun _ => ?_
    refine fifoM_bind (fifoM_set hm) fun _ => fifoM_check (fifoM_throw _) fun _ => ?_
    have hl : ∀ w : Nat → Word, FifoM (do modify fun s => s.modCur fun t => t.leaveTrap w; pure (some s.cur.epc)) := fun w => by
      exact fifoM_bind (fifoM_modify fun s h => by simp [h]) fun _ => fifoM_pure _
    split
    · refine fifoM_bind (fifoM_set ?_) fun _ => hl _
      rw [State.modCtx_ras]
      split
      · rw [State.recordToHeader_ras]; exact hm
      · exact hm
    · exact hl _

/-! ### Machine/Window.lean -/

@[simp] theorem State.windowEvent_ras (s : State) (w : Nat) : (s.windowEvent w).ras = s.ras := by
  simp [State.windowEvent]

@[simp] theorem State.windowLast_ras (s : State) (w code : Nat) : (s.windowLast w code).ras = s.ras := (rfl)

@[simp] theorem State.windowXlate_fifo (s : State) (va : Word) (n : Nat) (h : s.ras.fifo.length ≤ 16) :
    (s.windowXlate va n).2.ras.fifo.length ≤ 16 := by
  have hx := (translateCur_fifo 2 false va).keeps s h
  unfold State.windowXlate
  split
  · next hr => rw [hr] at hx; exact hx
  · next hr => rw [hr] at hx; exact hx

@[simp] theorem State.openWindow_fifo (s : State) (w : Nat) (h : s.ras.fifo.length ≤ 16) :
    (s.openWindow w).ras.fifo.length ≤ 16 := by
  simp only [State.openWindow]
  split
  · simpa using h
  · split
    · simpa using h
    · split
      · have hx := State.windowXlate_fifo (s.setWindow w { s.window w with gen := (s.window w).gen + 1, count := 0, spoil := false })
          (s.window w).addr (s.window w).bytes h
        split
        · next hr => simpa using (congrArg (fun p => p.2.ras.fifo.length ≤ 16) hr).mp hx
        · next hr => simpa using (congrArg (fun p => p.2.ras.fifo.length ≤ 16) hr).mp hx
      · split <;> simpa using h

@[simp] theorem State.closeByOwner_ras (s : State) (w : Nat) : (s.closeByOwner w).ras = s.ras := by
  simp [State.closeByOwner]

@[simp] theorem State.finishClose_fifo (s : State) (w : Nat) (h : s.ras.fifo.length ≤ 16) :
    (s.finishClose w).ras.fifo.length ≤ 16 := by
  simp [State.finishClose, h]

theorem State.asOwner_fifo {s : State} {f : State → State} (who : Requester) (w : Nat) (h : s.ras.fifo.length ≤ 16)
    (hf : (f s).ras.fifo.length ≤ 16) : (s.asOwner who w f).ras.fifo.length ≤ 16 := by
  unfold State.asOwner
  split
  · split <;> simp [h, hf]
  · exact h

@[simp] theorem State.targetBuf_fifo (s : State) (c : Option Nat) (cs : List (Nat × List (Byte × Bool) × Bool))
    (q : Nat × Nat) (h : s.ras.fifo.length ≤ 16) :
    (s.targetBuf c cs q).ras.fifo.length ≤ 16 := by
  simp only [State.targetBuf]
  split <;> simp [h]

@[simp] theorem State.targetMem_fifo (s : State) (c : Option Nat) (cs : List (Nat × List (Byte × Bool) × Bool))
    (q : Nat × Nat) (h : s.ras.fifo.length ≤ 16) :
    (s.targetMem c cs q).ras.fifo.length ≤ 16 := by
  simp only [State.targetMem]
  split <;> simp [h]

@[simp] theorem State.targetWrite_fifo (s : State) (loc : Loc) (a : Nat) (data : List (Byte × Bool)) (poison : List Bool)
    (c : Option Nat) (h : s.ras.fifo.length ≤ 16) :
    (s.targetWrite loc a data poison c).ras.fifo.length ≤ 16 := by
  unfold State.targetWrite
  repeat' split
  all_goals simp_all

@[simp] theorem State.acceptWrite_fifo (s : State) (w off : Nat) (data : List (Byte × Bool)) (poison : List Bool)
    (h : s.ras.fifo.length ≤ 16) :
    (s.acceptWrite w off data poison).ras.fifo.length ≤ 16 := by
  simp only [State.acceptWrite]
  split <;> (try split) <;> simp [h]

@[simp] theorem State.windowWrite_fifo (s : State) (w : Nat) (gen : BitVec 8) (off : Nat) (data : List (Byte × Bool))
    (poison : List Bool) (tag : BitVec 16) (h : s.ras.fifo.length ≤ 16) :
    (s.windowWrite w gen off data poison tag).ras.fifo.length ≤ 16 := by
  simp [State.windowWrite, h]

/-! ### Machine/Gate.lean -/

@[simp] theorem State.driveGate_ras (s : State) : s.driveGate.ras = s.ras := by
  simp [State.driveGate]

@[simp] theorem State.raiseGate_ras (s : State) : s.raiseGate.ras = s.ras := by
  simp [State.raiseGate]

@[simp] theorem State.setGcount_ras (s : State) (w : Word) : (s.setGcount w).ras = s.ras := (rfl)

@[simp] theorem State.loadGcount_ras (s : State) : s.loadGcount.ras = s.ras := (rfl)

@[simp] theorem State.releaseGate_ras (s : State) : s.releaseGate.ras = s.ras := by
  simp [State.releaseGate]

@[simp] theorem State.arrive_ras (s : State) (c : Nat) : (s.arrive c).ras = s.ras := by
  simp [State.arrive]

@[simp] theorem State.dropGate_ras (s : State) : s.dropGate.ras = s.ras := by
  simp only [State.dropGate]
  split <;> simp

@[simp] theorem State.calRaise_ras (s : State) : s.calRaise.ras = s.ras := by
  simp only [State.calRaise]
  split <;> simp

@[simp] theorem State.calBegin_ras (s : State) : s.calBegin.ras = s.ras := by
  simp [State.calBegin]

@[simp] theorem State.calRise_ras (s : State) (k : GateCal) : (s.calRise k).ras = s.ras := (rfl)

@[simp] theorem State.gateRise_ras (s : State) : s.gateRise.ras = s.ras := by
  simp only [State.gateRise]
  split <;> simp

@[simp] theorem State.tclk_ras (s : State) : s.tclk.ras = s.ras := by
  simp [State.tclk]

@[simp] theorem State.tick_ras (s : State) : s.tick.ras = s.ras := by
  simp [State.tick]

/-! ### Machine/Mailbox.lean -/

@[simp] theorem State.ijRespond_ras (s : State) (data : Word) (err : Bool) : (s.ijRespond data err).ras = s.ras := (rfl)

@[simp] theorem State.answer_ras (s : State) (who : Requester) (data : Word) (ok : Bool) :
    (s.answer who data ok).ras = s.ras := by
  simp only [State.answer]
  split <;> (try split) <;> simp

@[simp] theorem State.mbRefuse_ras (s : State) (who : Requester) : (s.mbRefuse who).ras = s.ras := by
  simp [State.mbRefuse]

@[simp] theorem State.postAlert_ras (s : State) (c code : Nat) : (s.postAlert c code).ras = s.ras := by
  simp [State.postAlert]

@[simp] theorem State.mbDone_ras (s : State) (m status detail : Nat) (payload : List Byte) :
    (s.mbDone m status detail payload).ras = s.ras := by
  simp only [State.mbDone]
  split <;> simp

@[simp] theorem State.mbFail_ras (s : State) (m status detail : Nat) : (s.mbFail m status detail).ras = s.ras := by
  simp [State.mbFail]

@[simp] theorem State.mbServe_ras (s : State) (m : Nat) : (s.mbServe m).ras = s.ras := by
  simp only [State.mbServe]
  split <;> simp

@[simp] theorem State.mbSubmit_ras (s : State) (m : Nat) : (s.mbSubmit m).ras = s.ras := by
  simp only [State.mbSubmit]
  split <;> (try split) <;> simp

@[simp] theorem State.mbWait_ras (s : State) (m : Nat) (w : MbWait) : (s.mbWait m w).ras = s.ras := (rfl)

/-! ### Machine/Commit.lean -/

@[simp] theorem State.tkEnds_ras (s : State) (es : List TkEnd) : (s.tkEnds es).ras = s.ras := by
  unfold State.tkEnds
  exact foldl_ras (fun s e => by simp) es s

@[simp] theorem State.tackRaw_ras (s : State) (n : Nat) (v : Word) (src : TkSrc) : (s.tackRaw n v src).2.ras = s.ras := by
  simp [State.tackRaw]

@[simp] theorem State.unstage_ras (s : State) (set : List CfgItem) : (s.unstage set).ras = s.ras := by
  simp [State.unstage]

@[simp] theorem State.rewriteField_ras (s : State) (a : StageOp) : (s.rewriteField a).ras = s.ras := by
  simp only [State.rewriteField]
  split <;> simp

@[simp] theorem State.rewriteRwp_ras (s : State) (set : List CfgItem) : (s.rewriteRwp set).ras = s.ras := by
  simp [State.rewriteRwp]

@[simp] theorem State.commitUndo_ras (s : State) (m status detail blocker : Nat) :
    (s.commitUndo m status detail blocker).ras = s.ras := by
  simp [State.commitUndo]

@[simp] theorem State.viewReg_ras (s : State) (n : Nat) : (s.viewReg n).ras = s.ras := by
  simp only [State.viewReg]
  split <;> simp

@[simp] theorem State.setTodo_ras (s : State) (c : Commit) (todo : List StageOp) : (s.setTodo c todo).ras = s.ras := (rfl)

@[simp] theorem State.stageItem_ras (s : State) (it : CfgItem) : (s.stageItem it).ras = s.ras := (rfl)

@[simp] theorem stageNext_ras (fuel : Nat) (a : State) : (stageNext fuel a).ras = a.ras := by
  induction fuel generalizing a with
  | zero => rfl
  | succ n ih =>
    simp only [stageNext]
    split
    · rfl
    · split
      · rfl
      · simp [ih]
      · split
        · split
          · next hr => simpa using congrArg (fun p => p.2.ras) hr.symm
          · next hr => simpa using congrArg (fun p => p.2.ras) hr.symm
        · simp [ih]

@[simp] theorem State.stageOn_ras (s : State) : s.stageOn.ras = s.ras := by
  simp only [State.stageOn]
  split <;> simp

@[simp] theorem State.tackNotifyOne_ras (s : State) (code : Nat) (src : TkSrc) : (s.tackNotifyOne code src).ras = s.ras := by
  simp only [State.tackNotifyOne]
  split <;> simp

@[simp] theorem State.tackNotifyEnd_ras (s : State) (e : TkEnd) : (s.tackNotifyEnd e).ras = s.ras := by
  simp [State.tackNotifyEnd]

@[simp] theorem State.tackNotify_ras (s : State) (es : List TkEnd) : (s.tackNotify es).ras = s.ras := by
  simp [State.tackNotify]

@[simp] theorem State.tackWrite_ras (s : State) (n : Nat) (v : Word) (src : TkSrc) : (s.tackWrite n v src).ras = s.ras := by
  simp [State.tackWrite]

@[simp] theorem State.tkLow_ras (s : State) (t n : Nat) (v : Half) : (s.tkLow t n v).ras = s.ras := (rfl)

@[simp] theorem State.tkDiscard_ras (s : State) (t : Nat) : (s.tkDiscard t).ras = s.ras := (rfl)

@[simp] theorem State.tkHoldThread_ras (s : State) (t : Nat) : (s.tkHoldThread t).ras = s.ras := by
  simp [State.tkHoldThread]

@[simp] theorem State.tkHigh_ras (s : State) (t n : Nat) (v : Half) : (s.tkHigh t n v).ras = s.ras := by
  simp [State.tkHigh]

@[simp] theorem State.historyAdded_fifo (s : State) (w : TkWrite) (old : Word) (h : s.ras.fifo.length ≤ 16) :
    (s.historyAdded w old).ras.fifo.length ≤ 16 := by
  simp [State.historyAdded, h]

@[simp] theorem State.tackCommit_fifo (s : State) (failA failB : Nat) (h : s.ras.fifo.length ≤ 16) :
    (s.tackCommit failA failB).ras.fifo.length ≤ 16 := by
  simp only [State.tackCommit, State.tackNotify_ras, State.tkEnds_ras]
  split
  · refine State.record_fifo _ _ ?_
    split
    · split <;> simp -implicitDefEqProofs [h]
    · exact h
  · split
    · split <;> simp -implicitDefEqProofs [h]
    · exact h

@[simp] theorem State.tkSealNow_ras (s : State) : s.tkSealNow.ras = s.ras := (rfl)

@[simp] theorem State.commitTurn_ras (s : State) (m : Nat) : (s.commitTurn m).ras = s.ras := by
  simp only [State.commitTurn]
  split <;> simp

@[simp] theorem State.commitBegin_ras (s : State) (m : Nat) : (s.commitBegin m).ras = s.ras := by
  unfold State.commitBegin
  extract_lets
  repeat' split
  all_goals simp_all

@[simp] theorem State.closeAtGate_fifo (s : State) (w : Nat) (h : s.ras.fifo.length ≤ 16) :
    (s.closeAtGate w).ras.fifo.length ≤ 16 := by
  simp [State.closeAtGate, h]

@[simp] theorem State.beforeApply_fifo (s : State) (it : CfgItem) (h : s.ras.fifo.length ≤ 16) :
    (s.beforeApply it).ras.fifo.length ≤ 16 := by
  simp only [State.beforeApply]
  split <;> (try split) <;> simp [h]

@[simp] theorem State.afterGate_ras (s : State) (old : Word) : (s.afterGate old).ras = s.ras := by
  simp [State.afterGate]

@[simp] theorem State.afterQueue_ras (s : State) (q : Nat) (old : Word) : (s.afterQueue q old).ras = s.ras := by
  simp [State.afterQueue]

@[simp] theorem State.applyItem_fifo (s : State) (it : CfgItem) (h : s.ras.fifo.length ≤ 16) :
    (s.applyItem it).ras.fifo.length ≤ 16 := by
  simp only [State.applyItem]
  split <;> simp [h]

@[simp] theorem State.applyCommit_fifo (s : State) (m : Nat) (h : s.ras.fifo.length ≤ 16) :
    (s.applyCommit m).ras.fifo.length ≤ 16 := by
  simp only [State.applyCommit]
  repeat' split
  all_goals simp_all

/-! ### Machine/Groom.lean -/

@[simp] theorem State.gWrite_ras (s : State) (t d : Nat) (v : Half) (k : Nat) : (s.gWrite t d v k).ras = s.ras := by
  simp only [State.gWrite]
  split <;> rfl

@[simp] theorem State.gStore_ras (s : State) (a n v : Nat) : (s.gStore a n v).ras = s.ras := by
  simp only [State.gStore]
  split <;> simp

@[simp] theorem State.gClear_ras (s : State) (n : Nat) : (s.gClear n).ras = s.ras := (rfl)

@[simp] theorem State.gIset_ras (s : State) (v : Half) : (s.gIset v).ras = s.ras := by
  simp [State.gIset]

@[simp] theorem State.gRunBits_ras (s : State) (v : Half) : (s.gRunBits v).ras = s.ras := by
  unfold State.gRunBits
  exact foldl_ras (fun s t => by simp only; split <;> (try split) <;> rfl) _ s

@[simp] theorem State.gThreaded_ras (s : State) : s.gThreaded.ras = s.ras := by
  simp [State.gThreaded]

@[simp] theorem State.gExtCfg_ras (s : State) (v : Half) : (s.gExtCfg v).ras = s.ras := by
  simp [State.gExtCfg]

@[simp] theorem State.gComplete_ras (s : State) (off : Nat) (v : Half) : (s.gComplete off v).ras = s.ras := by
  unfold State.gComplete
  extract_lets
  repeat' split
  all_goals simp_all

@[simp] theorem State.gSync_ras (s : State) (t : Nat) : (s.gSync t).ras = s.ras := by
  simp [State.gSync]

@[simp] theorem State.extRead_fifo (s : State) (a n : Nat) (h : s.ras.fifo.length ≤ 16) :
    (s.extRead a n).ras.fifo.length ≤ 16 := by
  unfold State.extRead
  repeat' split
  all_goals simp_all

@[simp] theorem State.bridleRestart_ras (s : State) : s.bridleRestart.ras = s.ras := by
  simp [State.bridleRestart]

@[simp] theorem State.standWork_fifo (s : State) (h : s.ras.fifo.length ≤ 16) : s.standWork.ras.fifo.length ≤ 16 := by
  simp only [State.standWork]
  refine foldl_fifo (fun s p h => by simp [h]) _ _ ?_
  split
  · simp [h]
  · split <;> simp [h]

@[simp] theorem State.enterStand_fifo (s : State) (h : s.ras.fifo.length ≤ 16) : (s.enterStand).2.ras.fifo.length ≤ 16 := by
  simp [State.enterStand, h]

@[simp] theorem State.groomReload_fifo (s : State) (h : s.ras.fifo.length ≤ 16) : s.groomReload.ras.fifo.length ≤ 16 := by
  simp only [State.groomReload]
  split
  · simp [h]
  · exact State.record_fifo _ _ (by simp [h])

@[simp] theorem State.groomRestart_fifo (s : State) (reason t : Nat) (h : s.ras.fifo.length ≤ 16) :
    (s.groomRestart reason t).ras.fifo.length ≤ 16 := by
  simp only [State.groomRestart]
  split
  · exact h
  · split
    · exact h
    · split
      · exact State.record_fifo _ _ (State.enterStand_fifo _ h)
      · exact State.groomReload_fifo _ (State.record_fifo _ _ (State.enterStand_fifo _ h))

@[simp] theorem State.gMachineCheck_fifo (s : State) (t : Nat) (h : s.ras.fifo.length ≤ 16) :
    (s.gMachineCheck t).ras.fifo.length ≤ 16 := by
  simp [State.gMachineCheck, h]

@[simp] theorem State.gBadMet_fifo (s : State) (t : Nat) (e : Ecc) (h : s.ras.fifo.length ≤ 16) :
    (s.gBadMet t e).ras.fifo.length ≤ 16 := by
  simp [State.gBadMet, h]

@[simp] theorem State.gDivNext_ras (s : State) : s.gDivNext.ras = s.ras := by
  simp only [State.gDivNext]
  split
  · rfl
  · split
    · rfl
    · split <;> rfl

@[simp] theorem State.gDropDiv_ras (s : State) (t : Nat) : (s.gDropDiv t).ras = s.ras := by
  simp only [State.gDropDiv]
  split <;> simp

@[simp] theorem State.gCause_ras (s : State) (t code : Nat) (addr : Option Half) : (s.gCause t code addr).ras = s.ras := (rfl)

@[simp] theorem State.extHalt_fifo (s : State) (t code : Nat) (h : s.ras.fifo.length ≤ 16) :
    (s.extHalt t code).ras.fifo.length ≤ 16 := by
  simp [State.extHalt, h]

@[simp] theorem State.gChainTo_ras (s : State) (t n : Nat) : (s.gChainTo t n).1.ras = s.ras := by
  simp [State.gChainTo]

theorem State.gVectorBad_fifo {s s1 : State} {t n : Nat} (h : s.ras.fifo.length ≤ 16) (hv : s.gVectorBad t n = some s1) :
    s1.ras.fifo.length ≤ 16 := by
  simp only [State.gVectorBad, Option.map_eq_some_iff] at hv
  obtain ⟨e, -, rfl⟩ := hv
  split <;> simp [h]

@[simp] theorem State.gEnter_fifo (s : State) (t n : Nat) (h : s.ras.fifo.length ≤ 16) :
    (s.gEnter t n).ras.fifo.length ≤ 16 := by
  simp only [State.gEnter]
  split
  · simp [h]
  · split
    · simp [h]
    · split
      · next hv => exact State.gVectorBad_fifo (by split <;> simp [h]) hv
      · simp only [State.modGthread_ras]; split <;> simp [h]

@[simp] theorem State.gTakeSource_fifo (s : State) (t n : Nat) (h : s.ras.fifo.length ≤ 16) :
    (s.gTakeSource t n).ras.fifo.length ≤ 16 := by
  unfold State.gTakeSource
  split
  · split
    · next hv => exact State.gVectorBad_fifo h hv
    · simp only
      split <;> simp [h]
  · simp [h]

@[simp] theorem State.groomFault_fifo (s : State) (t code : Nat) (addr : Option Half) (h : s.ras.fifo.length ≤ 16) :
    (s.groomFault t code addr).ras.fifo.length ≤ 16 := by
  simp only [State.groomFault]
  split <;> (try split) <;> simp [h]

@[simp] theorem State.gTakeMachineCheck_fifo (s : State) (h : s.ras.fifo.length ≤ 16) :
    s.gTakeMachineCheck.ras.fifo.length ≤ 16 := by
  unfold State.gTakeMachineCheck
  repeat' split
  all_goals simp_all

@[simp] theorem State.gHold_ras (s : State) (t : Nat) (dest : Option (Nat × Half)) : (s.gHold t dest).ras = s.ras := (rfl)

theorem State.groomAccess_fifo {s : State} {f : State → Option State} (t : Nat) (write : Bool) (a : Nat) (v : Half)
    (h : s.ras.fifo.length ≤ 16) (hf : ∀ s1, f s = some s1 → s1.ras.fifo.length ≤ 16) :
    (s.groomAccess t write a v f).ras.fifo.length ≤ 16 := by
  unfold State.groomAccess
  split
  · exact h
  · split
    · simp [h]
    · split
      · simp [h]
      · exact hf _ ‹_›

/-! ### Machine/Boot.lean -/

@[simp] theorem State.errAdvance_fifo (s : State) (h : s.ras.fifo.length ≤ 16) : s.errAdvance.ras.fifo.length ≤ 16 := by
  simp only [State.errAdvance, List.length_drop]
  omega

@[simp] theorem State.copyHead_fifo (s : State) (h : s.ras.fifo.length ≤ 16) : s.copyHead.ras.fifo.length ≤ 16 := by
  simp only [State.copyHead]
  split <;> simp [h]

@[simp] theorem State.drainErrors_fifo (s : State) (h : s.ras.fifo.length ≤ 16) : s.drainErrors.ras.fifo.length ≤ 16 :=
  foldl_fifo (fun s _ h => State.errAdvance_fifo _ (by simp [h])) _ s h

@[simp] theorem State.disableWay_fifo (s : State) (k : CacheId) (w : Nat) (h : s.ras.fifo.length ≤ 16) :
    (s.disableWay k w).ras.fifo.length ≤ 16 := by
  simp [State.disableWay, h]

@[simp] theorem State.lineError_ras (s : State) (k : CacheId) (w a : Nat) : (s.lineError k w a).2.ras = s.ras := by
  simp only [State.lineError]
  split <;> (try split) <;> simp

@[simp] theorem State.cacheError_fifo (s : State) (k : CacheId) (w : Nat) (bad : Bool) (a : BitVec 52) (syn : BitVec 16)
    (h : s.ras.fifo.length ≤ 16) :
    (s.cacheError k w bad a syn).ras.fifo.length ≤ 16 := by
  simp only [State.cacheError]
  split <;> simp [h]

@[simp] theorem State.wayError_fifo (s : State) (k : CacheId) (w : Nat) (a : CacheErr) (h : s.ras.fifo.length ≤ 16) :
    (s.wayError k w a).2.ras.fifo.length ≤ 16 := by
  simp only [State.wayError]
  split <;> simp [h]

@[simp] theorem State.applyWayMap_fifo (s : State) (h : s.ras.fifo.length ≤ 16) : s.applyWayMap.ras.fifo.length ≤ 16 := by
  simp [State.applyWayMap, h]

@[simp] theorem State.imageRead_fifo (s : State) (a : Nat) (headerOk : Bool) (h : s.ras.fifo.length ≤ 16) :
    (s.imageRead a headerOk).ras.fifo.length ≤ 16 := by
  simp only [State.imageRead]
  split <;> simp [h]

@[simp] theorem State.imageWrite_fifo (s : State) (a : Nat) (bs : List Byte) (h : s.ras.fifo.length ≤ 16) :
    (s.imageWrite a bs).ras.fifo.length ≤ 16 := by
  simp +contextual [State.imageWrite, h]

@[simp] theorem State.acceptImage_fifo (s : State) (a : Nat) (h : s.ras.fifo.length ≤ 16) :
    (s.acceptImage a).ras.fifo.length ≤ 16 := by
  simp [State.acceptImage, h]

@[simp] theorem State.loadExtension_fifo (s0 : State) (h : s0.ras.fifo.length ≤ 16) :
    s0.loadExtension.ras.fifo.length ≤ 16 := by
  unfold State.loadExtension
  extract_lets a head s
  have hs : s.ras.fifo.length ≤ 16 := ite_fifo (fun _ => State.imageRead_fifo _ _ _ h) fun _ => h
  clear_value s
  split
  · exact ite_fifo (a := s.gClear 40) (fun _ => hs) fun _ => hs
  · exact hs

@[simp] theorem State.assertReset_fifo (s : State) (cut : CommitCut) : (s.assertReset cut).ras.fifo.length ≤ 16 := Nat.zero_le 16

@[simp] theorem State.releaseReset_ras (s : State) (straps : Straps) (test : SelfTest) :
    (s.releaseReset straps test).ras = s.ras := (rfl)

@[simp] theorem State.atStep_ras (s : State) (n : Nat) : (s.atStep n).ras = s.ras := (rfl)

@[simp] theorem State.startupFails_ras (s : State) : s.startupFails.ras = s.ras := (rfl)

@[simp] theorem State.loadRwp_ras (s : State) : s.loadRwp.ras = s.ras := (rfl)

@[simp] theorem State.startThreads_ras (s : State) : s.startThreads.ras = s.ras := by
  simp [State.startThreads]

@[simp] theorem State.arrayTest_fifo (s : State) (h : s.ras.fifo.length ≤ 16) : s.arrayTest.ras.fifo.length ≤ 16 := by
  unfold State.arrayTest
  repeat' split
  all_goals simp_all

@[simp] theorem State.deviceFails_fifo (s : State) (a : Nat) (h : s.ras.fifo.length ≤ 16) :
    (s.deviceFails a).ras.fifo.length ≤ 16 := by
  simp [State.deviceFails, h]

@[simp] theorem State.replayStep_fifo (s : State) (h : s.ras.fifo.length ≤ 16) : s.replayStep.ras.fifo.length ≤ 16 := by
  simp only [State.replayStep]
  split <;> simp [h]

@[simp] theorem State.verifyImage_fifo (s : State) (a : Nat) (valid : Bool) (h : s.ras.fifo.length ≤ 16) :
    (s.verifyImage a valid).ras.fifo.length ≤ 16 := by
  simp only [State.verifyImage]
  split
  · refine State.replayStep_fifo _ ?_
    rw [State.atStep_ras]
    refine State.acceptImage_fifo _ _ ?_
    split <;> simp [h]
  · split <;> simp [h]

@[simp] theorem State.pllLock_fifo (s : State) (band icp : BitVec 6) (fwValid : Bool) (h : s.ras.fifo.length ≤ 16) :
    (s.pllLock band icp fwValid).ras.fifo.length ≤ 16 := by
  simp only [State.pllLock]
  split <;> simp [h]

@[simp] theorem State.fwload_fifo (s : State) (cls : BitVec 2) (v : Word) (h : s.ras.fifo.length ≤ 16) :
    (s.fwload cls v).ras.fifo.length ≤ 16 := by
  simp only [State.fwload]
  split
  · simp [h]
  · split
    · simp [h]
    · split
      · exact State.verifyImage_fifo _ _ _ (by simp [h])
      · simp [h]

@[simp] theorem State.readyWrites_ras (s : State) : s.readyWrites.ras = s.ras := by
  simp [State.readyWrites]

@[simp] theorem State.clearMap_ras (s : State) : s.clearMap.ras = s.ras := by
  unfold State.clearMap
  extract_lets put
  simp only

@[simp] theorem State.bridleIsReady_fifo (s : State) (h : s.ras.fifo.length ≤ 16) : s.bridleIsReady.ras.fifo.length ≤ 16 := by
  simp [State.bridleIsReady, h]

/-! ### Machine/Aperture.lean -/

@[simp] theorem State.mbRead_ras (s : State) (who : Requester) (o : Nat) : (s.mbRead who o).2.ras = s.ras := by
  unfold State.mbRead
  extract_lets
  repeat' split
  all_goals simp_all

@[simp] theorem State.takeRead_ras (s : State) (who : Requester) (o : Nat) : (s.takeRead who o).2.ras = s.ras := by
  simp only [State.takeRead]
  split <;> (try split) <;> simp

@[simp] theorem State.apRead64_ras (s : State) (who : Requester) (o : Nat) (ln : Lanes) :
    (s.apRead64 who o ln).2.ras = s.ras := by
  unfold State.apRead64
  refine ite_snd_ras rfl <| ite_snd_ras rfl <| ite_snd_ras (by simp) <| ite_snd_ras rfl <| ite_snd_ras ?_ <|
    ite_snd_ras rfl <| ite_snd_ras rfl <| ite_snd_ras (by simp) <| ite_snd_ras rfl <| ite_snd_ras rfl rfl
  split <;> rfl

@[simp] theorem State.apRead_ras (s : State) (who : Requester) (o : Nat) (ln : Lanes) : (s.apRead who o ln).2.ras = s.ras := by
  simp only [State.apRead]
  repeat' split
  all_goals simp

@[simp] theorem State.stageWrite_ras (s : State) (item index : Nat) (mask : Word) (ln : Lanes) (w : Word) :
    (s.stageWrite item index mask ln w).ras = s.ras := (rfl)

@[simp] theorem State.fieldWrite_ras (s : State) (who : Requester) (n hi lo v : Nat) :
    (s.fieldWrite who n hi lo v).ras = s.ras := by
  simp only [State.fieldWrite]
  split <;> simp

@[simp] theorem State.gateCfgWrite_ras (s : State) (who : Requester) (ln : Lanes) (w : Word) :
    (s.gateCfgWrite who ln w).ras = s.ras := by
  simp [State.gateCfgWrite]

@[simp] theorem State.gctlBusy_ras (s : State) (o : Nat) (ln : Lanes) : (s.gctlBusy o ln).ras = s.ras := by
  simp [State.gctlBusy]

@[simp] theorem State.identWrite_fifo (s : State) (who : Requester) (o : Nat) (ln : Lanes) (w : Word)
    (h : s.ras.fifo.length ≤ 16) :
    (s.identWrite who o ln w).ras.fifo.length ≤ 16 := by
  simp only [State.identWrite]
  split <;> simp [h]

@[simp] theorem State.powerWrite_ras (s : State) (who : Requester) (o : Nat) (ln : Lanes) (w : Word) :
    (s.powerWrite who o ln w).ras = s.ras := by
  simp only [State.powerWrite]
  split <;> simp

@[simp] theorem State.mbBell_ras (s : State) (m : Nat) (w : Word) : (s.mbBell m w).ras = s.ras := by
  simp [State.mbBell]

@[simp] theorem State.mbPut_ras (s : State) (who : Requester) (m r : Nat) (ln : Lanes) (w : Word) :
    (s.mbPut who m r ln w).ras = s.ras := by
  unfold State.mbPut
  extract_lets
  repeat' split
  all_goals simp_all

@[simp] theorem State.mbWrite_ras (s : State) (who : Requester) (o : Nat) (ln : Lanes) (w : Word) :
    (s.mbWrite who o ln w).2.ras = s.ras := by
  unfold State.mbWrite
  extract_lets
  repeat' split
  all_goals simp_all

@[simp] theorem State.tackPut_ras (s : State) (t o : Nat) (ln : Lanes) (w : Word) : (s.tackPut t o ln w).ras = s.ras := by
  simp only [State.tackPut]
  split <;> (try split) <;> simp

@[simp] theorem State.rasPut_fifo (s : State) (t o : Nat) (ln : Lanes) (w : Word) (h : s.ras.fifo.length ≤ 16) :
    (s.rasPut t o ln w).ras.fifo.length ≤ 16 := by
  unfold State.rasPut
  refine ite_fifo (fun _ => ?_) fun _ => ite_fifo (fun _ => ?_) fun _ => ite_fifo (fun _ => ?_) fun _ =>
    ite_fifo (fun _ => h) fun _ => ite_fifo (fun _ => h) fun _ => h
  · split <;> simp [h]
  · split <;> exact h
  · split <;> simp [h]

@[simp] theorem State.gateCtl_ras (s : State) (who : Requester) (w : Word) : (s.gateCtl who w).ras = s.ras := by
  unfold State.gateCtl
  split <;> simp

@[simp] theorem State.gatePut_ras (s : State) (who : Requester) (o : Nat) (ln : Lanes) (w : Word) :
    (s.gatePut who o ln w).ras = s.ras := by
  simp only [State.gatePut]
  split <;> (try split) <;> simp

@[simp] theorem State.qstatWrite_ras (s : State) (q : Nat) (ln : Lanes) (w : Word) : (s.qstatWrite q ln w).ras = s.ras := by
  simp [State.qstatWrite]

@[simp] theorem State.queuePut_fifo (s : State) (who : Requester) (o : Nat) (ln : Lanes) (w : Word) (poison : Bool)
    (h : s.ras.fifo.length ≤ 16) :
    (s.queuePut who o ln w poison).ras.fifo.length ≤ 16 := by
  simp only [State.queuePut]
  repeat' split
  all_goals simp [*]

@[simp] theorem State.windowReg_ras (s : State) (w : Nat) (f : Window → Window) : (s.windowReg w f).ras = s.ras := by
  simp [State.windowReg]

@[simp] theorem State.windowCmd_fifo (s : State) (w : Nat) (ln : Lanes) (v : Word) (h : s.ras.fifo.length ≤ 16) :
    (s.windowCmd w ln v).ras.fifo.length ≤ 16 := by
  simp only [State.windowCmd]
  split
  · exact h
  · split
    · exact State.openWindow_fifo _ _ (by simp [h])
    · split <;> simp [h]

@[simp] theorem State.windowPut_fifo (s : State) (who : Requester) (o : Nat) (ln : Lanes) (v : Word)
    (h : s.ras.fifo.length ≤ 16) :
    (s.windowPut who o ln v).ras.fifo.length ≤ 16 := by
  unfold State.windowPut
  split
  · split
    · exact h
    · exact State.asOwner_fifo _ _ h (by simp [h])
    · exact State.asOwner_fifo _ _ h (by simp [h])
    · exact State.asOwner_fifo _ _ h (State.windowCmd_fifo _ _ _ _ h)
  · split <;> simp [h]

@[simp] theorem State.debugPut_ras (s : State) (o : Nat) (ln : Lanes) (w : Word) : (s.debugPut o ln w).ras = s.ras := by
  simp [State.debugPut]

@[simp] theorem State.apWriteAny_fifo (s : State) (who : Requester) (o : Nat) (ln : Lanes) (w : Word) (poison : Bool)
    (h : s.ras.fifo.length ≤ 16) :
    (s.apWriteAny who o ln w poison).2.ras.fifo.length ≤ 16 := by
  have groom : ∀ (b : Option Word) (x : Bool × State), x.2.ras.fifo.length ≤ 16 →
      (if b.isNone then (false, s) else x).2.ras.fifo.length ≤ 16 := fun b x hx => ite_snd_fifo h hx
  unfold State.apWriteAny
  refine ite_snd_fifo (by split <;> simp [h]) <| ite_snd_fifo (groom _ _ (ite_snd_fifo (by simp [h]) h)) <|
    ite_snd_fifo (by simp [h]) <| ite_snd_fifo ?_ <| ite_snd_fifo ?_ <| ite_snd_fifo (groom _ _ (ite_snd_fifo (by simp [h]) h)) <|
    ite_snd_fifo h <| ite_snd_fifo (groom _ _ (by simp [h])) <| ite_snd_fifo (groom _ _ (by simp [h])) ?_
  · split
    · exact groom _ _ (by simp [h])
    · exact h
    · exact h
  · split
    · exact groom _ _ (by simp [h])
    · exact h
    · exact h
  · split
    · exact groom _ _ (by simp [h])
    · exact h
    · exact h

@[simp] theorem State.apWrite_fifo (s : State) (who : Requester) (o : Nat) (ln : Lanes) (w : Word) (poison : Bool)
    (h : s.ras.fifo.length ≤ 16) :
    (s.apWrite who o ln w poison).2.ras.fifo.length ≤ 16 := by
  simp only [State.apWrite]
  repeat' split
  all_goals simp [*]

@[simp] theorem State.accessTrap_fifo (s : State) (code opfield : Nat) (optag : Tag) (tval : Word)
    (h : s.ras.fifo.length ≤ 16) :
    (s.accessTrap code opfield optag tval).ras.fifo.length ≤ 16 := by
  simp only [State.accessTrap]
  split <;> simp [h]

@[simp] theorem State.deviceTrap_fifo (s : State) (h : s.ras.fifo.length ≤ 16) : s.deviceTrap.ras.fifo.length ≤ 16 := by
  simp [State.deviceTrap, h]

@[simp] theorem State.apWriteBy_fifo (s : State) (who : Requester) (o : Nat) (ln : Lanes) (v : TVal)
    (h : s.ras.fifo.length ≤ 16) :
    (s.apWriteBy who o ln v).ras.fifo.length ≤ 16 := by
  have hw := State.apWrite_fifo s who o ln v.data (v.tag = .poison) h
  simp only [State.apWriteBy]
  split
  · refine State.groomAccess_fifo _ _ _ _ h fun s1 h1 => ?_
    split at h1
    · cases h1
    · cases h1
      split <;> simp [hw]
  · split
    · simp [h]
    · split
      · simp [h]
      · exact hw
  · simp [hw]

@[simp] theorem State.apReadBy_fifo (s : State) (who : Requester) (o : Nat) (ln : Lanes) (h : s.ras.fifo.length ≤ 16) :
    (s.apReadBy who o ln).ras.fifo.length ≤ 16 := by
  simp only [State.apReadBy]
  split
  · refine State.groomAccess_fifo _ _ _ _ h fun s1 h1 => ?_
    obtain ⟨w, -, rfl⟩ := Option.map_eq_some_iff.mp h1
    simp [h]
  · split <;> simp [h]
  · simp [h]

theorem forall_mem_ite {α : Type} {P : α → Prop} {c : Prop} [Decidable c] {a b : Option α} (ha : ∀ x ∈ a, P x) (hb : ∀ x ∈ b, P x) :
    ∀ x ∈ (if c then a else b), P x := by
  split
  · exact ha
  · exact hb

theorem State.gctlWrite_ras {s : State} {t off : Nat} {v : Half} : ∀ s1 ∈ s.gctlWrite t off v, s1.ras = s.ras := by
  have some_ras : ∀ u : State, u.ras = s.ras → ∀ s1 ∈ some u, s1.ras = s.ras := by simp
  unfold State.gctlWrite
  refine forall_mem_ite (by simp) <| forall_mem_ite (some_ras _ (by simp)) <| forall_mem_ite (some_ras _ (by simp)) <|
    forall_mem_ite (some_ras _ rfl) <| forall_mem_ite (some_ras _ rfl) <| forall_mem_ite (some_ras _ (by simp)) <|
    forall_mem_ite (some_ras _ rfl) <| forall_mem_ite (some_ras _ rfl) <| forall_mem_ite (some_ras _ ?_) (some_ras _ rfl)
  split <;> rfl

@[simp] theorem State.gctlBy_fifo (s : State) (t off : Nat) (op : RegOp) (h : s.ras.fifo.length ≤ 16) :
    (s.gctlBy t off op).ras.fifo.length ≤ 16 := by
  simp only [State.gctlBy]
  split
  · exact State.groomAccess_fifo _ _ _ _ h fun s1 hw => by rw [State.gctlWrite_ras _ hw]; exact h
  · refine State.groomAccess_fifo _ _ _ _ h fun s1 hw => ?_
    obtain ⟨x, -, rfl⟩ := Option.map_eq_some_iff.mp hw
    simpa using h

/-! ### Machine/Operands.lean -/

@[simp] theorem checkNone_fifo (os : List Opd) : FifoM (checkNone os) := by
  unfold checkNone
  split <;> simp

@[simp] theorem checkAccepted_fifo (os : List Opd) : FifoM (checkAccepted os) := by
  unfold checkAccepted
  split <;> simp

@[simp] theorem checkPoison_fifo (os : List Opd) : FifoM (checkPoison os) := by
  unfold checkPoison
  split <;> simp

@[simp] theorem checkTags_fifo (os : List Opd) : FifoM (checkTags os) := by
  simp [checkTags]

@[simp] theorem propagating_fifo (d : Reg) (os : List Opd) (res : Option TVal) : FifoM (propagating d os res) := by
  simp only [propagating]
  repeat' first
    | with_reducible refine fifoM_check ?_ ?_ | with_reducible refine fifoM_get_bind ?_ | with_reducible refine fifoM_bind ?_ ?_
    | with_reducible refine fifoM_ite ?_ ?_ | with_reducible refine fifoM_set ?_ | with_reducible refine fifoM_modify ?_
    | split | intro _
  all_goals simp [*]

@[simp] theorem binary_fifo (d a b : Reg) (okA okB : Tag → Bool) (rule : TagRule) (f : Word → Word → Word) :
    FifoM (binary d a b okA okB rule f) := by
  simp [binary]

@[simp] theorem withImm_fifo (d a : Reg) (imm : Word) (okA : Tag → Bool) (rule : TagRule) (f : Word → Word → Word) :
    FifoM (withImm d a imm okA rule f) := by
  simp [withImm]

@[simp] theorem unary_fifo (d a : Reg) (src dst : Tag) (f : Word → Word) : FifoM (unary d a src dst f) := by
  simp [unary]

@[simp] theorem binaryOf_fifo (d a b : Reg) (src dst : Tag) (f : Word → Word → Word) : FifoM (binaryOf d a b src dst f) := by
  simp [binaryOf]

@[simp] theorem ternaryOf_fifo (d a b : Reg) (t : Tag) (f : Word → Word → Word → Word) : FifoM (ternaryOf d a b t f) := by
  simp [ternaryOf]

@[simp] theorem condition_fifo (field : Nat) (v : TVal) : FifoM (condition field v) := by
  simp [condition]

/-! ### Machine/Branch.lean -/

@[simp] theorem condBranch_fifo (a : Reg) (off : BitVec 20) (taken : Bool → Bool) : FifoM (condBranch a off taken) := by
  simp [condBranch]

/-! ### Machine/Field.lean -/

@[simp] theorem State.clearReins_ras (s : State) : s.clearReins.ras = s.ras := (rfl)

@[simp] theorem State.setActive_ras (s : State) (i : Nat) : (s.setActive i).ras = s.ras := (rfl)

/-! ### Machine/SaveArea.lean -/

@[simp] theorem State.readArea_fifo (s : State) (pa : Nat) (c : Option Nat) (h : s.ras.fifo.length ≤ 16) :
    (s.readArea pa c).2.ras.fifo.length ≤ 16 := by
  unfold State.readArea
  exact foldl_keeps (P := fun r : Area × State => r.2.ras.fifo.length ≤ 16) (fun r i hr => by simp [hr]) _ _ h

@[simp] theorem State.loadInUse_ras (s : State) (b k : Nat) : (s.loadInUse b k).ras = s.ras := (rfl)

/-! ### Machine/Sched.lean -/

@[simp] theorem State.wantStall_ras (s : State) (c : Nat) : (s.wantStall c).ras = s.ras := by
  simp only [State.wantStall]
  split <;> (try split) <;> simp

@[simp] theorem State.wantLocked_ras (s : State) : s.wantLocked.ras = s.ras := by
  simp only [State.wantLocked]
  split <;> simp

@[simp] theorem State.schedule_ras (s : State) : s.schedule.ras = s.ras := by
  simp only [State.schedule]
  split <;> simp

@[simp] theorem State.undispatch_ras (s : State) : s.undispatch.ras = s.ras := by
  simp only [State.undispatch]
  split <;> rfl

@[simp] theorem State.dispatch_ras (s : State) (b k : Nat) : (s.dispatch b k).ras = s.ras := by
  simp [State.dispatch]

@[simp] theorem State.arrayStop_fifo (s : State) (c : Nat) (e : Ecc) (h : s.ras.fifo.length ≤ 16) :
    (s.arrayStop c e).ras.fifo.length ≤ 16 := by
  simp only [State.arrayStop]
  split <;> simp [h]

@[simp] theorem State.stallError_fifo (s : State) (a : StallErr) (h : s.ras.fifo.length ≤ 16) :
    (s.stallError a).ras.fifo.length ≤ 16 := by
  simp only [State.stallError]
  repeat' split
  all_goals simp [*]

@[simp] theorem State.switch_ras (s : State) : s.switch.ras = s.ras := by
  simp only [State.switch]
  split <;> (try split) <;> simp

@[simp] theorem State.fillStall_fifo (s : State) (c k : Nat) (h : s.ras.fifo.length ≤ 16) :
    (s.fillStall c k).ras.fifo.length ≤ 16 := by
  have h2 := fun pa pa' => State.readArea_fifo (s.readArea pa (some c)).2 pa' (some c) (State.readArea_fifo s pa (some c) h)
  simp only [State.fillStall]
  split
  · simp [h2]
  · refine State.stopByError_fifo _ _ _ _ ?_
    simp [h2]

@[simp] theorem State.victimArgs_ras (s : State) : (s.victimArgs).2.ras = s.ras := by
  simp only [State.victimArgs]
  split <;> rfl

@[simp] theorem State.overflowArgs_ras (s : State) (c : Nat) : (s.overflowArgs c).ras = s.ras := by
  simp [State.overflowArgs]

@[simp] theorem State.enterReserve_ras (s : State) (code : Nat) : (s.enterReserve code).ras = s.ras := by
  simp [State.enterReserve]

/-! ### Machine/System.lean -/

@[simp] theorem waitM_fifo {α : Type} (why : WaitWhy) : FifoM (waitM why : M α) := by
  simp [waitM]

@[simp] theorem checkSysReg_fifo (n : Nat) (write : Bool) : FifoM (checkSysReg n write) := by
  unfold checkSysReg
  split <;> simp

@[simp] theorem waitContext_fifo (i : Instr) (c : Nat) : FifoM (waitContext i c) := by
  simp only [waitContext]
  repeat' first
    | with_reducible refine fifoM_check ?_ ?_ | with_reducible refine fifoM_get_bind ?_ | with_reducible refine fifoM_bind ?_ ?_
    | with_reducible refine fifoM_ite ?_ ?_ | with_reducible refine fifoM_set ?_ | with_reducible refine fifoM_modify ?_
    | split | intro _
  all_goals simp [*]

@[simp] theorem waitReserve_fifo : FifoM (waitReserve) := by
  simp only [waitReserve]
  repeat' first
    | with_reducible refine fifoM_check ?_ ?_ | with_reducible refine fifoM_get_bind ?_ | with_reducible refine fifoM_bind ?_ ?_
    | with_reducible refine fifoM_ite ?_ ?_ | with_reducible refine fifoM_set ?_ | with_reducible refine fifoM_modify ?_
    | split | intro _
  all_goals simp [*]

/-! ### Machine/Stream.lean -/

@[simp] theorem entryOperand_fifo (a : Reg) : FifoM (entryOperand a) := by
  simp only [entryOperand]
  repeat' first
    | with_reducible refine fifoM_check ?_ ?_ | with_reducible refine fifoM_get_bind ?_ | with_reducible refine fifoM_bind ?_ ?_
    | with_reducible refine fifoM_ite ?_ ?_ | with_reducible refine fifoM_set ?_ | with_reducible refine fifoM_modify ?_
    | split | intro _
  all_goals simp [*]

@[simp] theorem State.releaseEntry_ras (s : State) (c i : Nat) : (s.releaseEntry c i).ras = s.ras := by
  simp only [State.releaseEntry]
  split <;> rfl

@[simp] theorem streamFoot_fifo (kind : Kind) (va : Int) (n : Nat) : FifoM (streamFoot kind va n) := by
  simp only [streamFoot]
  repeat' first
    | with_reducible refine fifoM_check ?_ ?_ | with_reducible refine fifoM_get_bind ?_ | with_reducible refine fifoM_bind ?_ ?_
    | with_reducible refine fifoM_ite ?_ ?_ | with_reducible refine fifoM_set ?_ | with_reducible refine fifoM_modify ?_
    | split | intro _
  all_goals simp [*]

@[simp] theorem readDescriptor_fifo (av : Word) : FifoM (readDescriptor av) := by
  unfold readDescriptor
  refine fifoM_check (fifoM_throw _) fun _ => fifoM_bind (translateParts_fifo ..) fun ps => ?_
  refine fifoM_get_bind fun s h => fifoM_check (trapM_fifo ..) fun _ => ?_
  have hr := readParts_fifo s.curCtx ps s h
  generalize readParts s.curCtx ps s = r at hr ⊢
  refine fifoM_bind (fifoM_set (State.poisonIn_fifo _ _ _ _ _ hr)) fun _ => fifoM_check (fifoM_throw _) fun _ => ?_
  split
  · exact fifoM_throw_bind _
  · refine fifoM_check (fifoM_throw _) fun _ => fifoM_bind (streamFoot_fifo ..) fun mpa => ?_
    have last : ∀ (statva : Nat) (d : Option Nat → StreamD), FifoM (if statva = 0 then do
        let spa ← pure none
        pure (d spa)
      else do
        let p ← streamFoot 2 statva 16
        let spa ← pure (some p)
        pure (d spa)) := fun statva d => by
      split
      · exact fifoM_pure _
      · exact fifoM_bind (streamFoot_fifo ..) fun _ => fifoM_pure _
    split
    · exact fifoM_bind (streamFoot_fifo ..) fun _ => last ..
    · exact last ..

@[simp] theorem State.flowStarts_ras (s : State) (c : Nat) (d : StreamD) : (s.flowStarts c d).ras = s.ras := by
  simp [State.flowStarts]

@[simp] theorem State.flowEnds_ras (s : State) (c : Nat) (d : StreamD) : (s.flowEnds c d).ras = s.ras := by
  simp [State.flowEnds]

@[simp] theorem handleOperand_fifo (b : Reg) (before : List Opd) : FifoM (handleOperand b before) := by
  simp only [handleOperand]
  repeat' first
    | with_reducible refine fifoM_check ?_ ?_ | with_reducible refine fifoM_get_bind ?_ | with_reducible refine fifoM_bind ?_ ?_
    | with_reducible refine fifoM_ite ?_ ?_ | with_reducible refine fifoM_set ?_ | with_reducible refine fifoM_modify ?_
    | split | intro _
  all_goals simp [*]

@[simp] theorem State.moveRow_ras (s : State) (d : StreamD) (r : Nat) : (s.moveRow d r).2.ras = s.ras := by
  simp only [State.moveRow]
  split <;> (try split) <;> simp

@[simp] theorem State.streamRow_ras (s : State) (k : Nat) (t : StreamSlot) (d : StreamD) : (s.streamRow k t d).ras = s.ras := by
  simp [State.streamRow]

@[simp] theorem State.streamRecords_fifo (s : State) (c eng : Nat) (d : StreamD) (status : BitVec 8) (pchunks : Nat)
    (h : s.ras.fifo.length ≤ 16) :
    (s.streamRecords c eng d status pchunks).ras.fifo.length ≤ 16 := by
  simp only [State.streamRecords]
  split <;> (try split) <;> simp [h]

@[simp] theorem State.nextShadow_fifo (s : State) (k code : Nat) (h : s.ras.fifo.length ≤ 16) :
    (s.nextShadow k code).ras.fifo.length ≤ 16 := by
  simp only [State.nextShadow]
  split <;> (try split) <;> simp [h]

@[simp] theorem State.endStream_fifo (s : State) (k : Nat) (held : StreamD) (code rows pchunks : Nat)
    (h : s.ras.fifo.length ≤ 16) :
    (s.endStream k held code rows pchunks).ras.fifo.length ≤ 16 := by
  simp [State.endStream, h]

@[simp] theorem State.stallSlot_fifo (s : State) (k : Nat) (h : s.ras.fifo.length ≤ 16) :
    (s.stallSlot k).ras.fifo.length ≤ 16 := by
  have hs : ∀ d t, ((s.completeDesc (s.stream k).ctx d 3).setStream k t).ras.fifo.length ≤ 16 := by simp [h]
  simp only [State.stallSlot]
  split <;> split
  · exact State.streamRecords_fifo _ _ _ _ _ _ (State.endStream_fifo _ _ _ _ _ _ (hs _ _))
  · exact State.streamRecords_fifo _ _ _ _ _ _ (State.endStream_fifo _ _ _ _ _ _ h)
  · exact hs _ _
  · exact h

@[simp] theorem State.granted_ras (s : State) (tag : Nat) (o : AcqOwner) : (s.granted tag o).ras = s.ras := by
  simp only [State.granted]
  split <;> rfl

/-! ### Machine/TilePort.lean -/

@[simp] theorem Perf.anyPort_ras (p : Perf) (first n : Nat) : (p.anyPort first n).2.s.ras = p.s.ras := (rfl)

@[simp] theorem Perf.readBuf_ras (p : Perf) (first n : Nat) (q : Nat × Nat) : (p.readBuf first n q).2.s.ras = p.s.ras := by
  simp only [Perf.readBuf]
  split <;> (try split) <;> simp

@[simp] theorem Perf.readPiece_ras (p : Perf) (loc : Loc) (first n : Nat) (q : Nat × Nat) :
    (p.readPiece loc first n q).2.s.ras = p.s.ras := by
  cases loc with
  | mem =>
    simp only [Perf.readPiece, Perf.lostLines]
    exact foldl_ras (fun s b => by simp) _ p.s
  | buf => exact foldl_const (g := fun r : List Chunk × Perf => r.2.s.ras) (fun r o => by simp) _ ([], p)

@[simp] theorem Perf.readRow_ras (p : Perf) (first n : Nat) (row : Row) : (p.readRow first n row).2.s.ras = p.s.ras :=
  foldl_const (g := fun r : List Chunk × Perf => r.2.s.ras) (fun r q => by simp) _ ([], p)

@[simp] theorem Perf.writeBuf_ras (p : Perf) (q : Nat × Nat) (cs : List Chunk) : (p.writeBuf q cs).s.ras = p.s.ras := by
  simp only [Perf.writeBuf]
  split <;> rfl

@[simp] theorem chunkRequests_ras (fuel a : Nat) (a2 : List Chunk) (a3 : State) :
    (chunkRequests fuel a a2 a3).ras = a3.ras := by
  induction fuel generalizing a a2 a3 with
  | zero => rfl
  | succ n ih =>
    cases a2 with
    | nil => rfl
    | cons c cs => simp [chunkRequests, ih]

@[simp] theorem Perf.writePiece_ras (p : Perf) (loc : Loc) (q : Nat × Nat) (cs : List Chunk) :
    (p.writePiece loc q cs).s.ras = p.s.ras := by
  cases loc with
  | mem => simp [Perf.writePiece, Perf.lostLines]
  | buf => exact foldl_const (g := fun r : List Chunk × Perf => r.2.s.ras) (fun r o => by simp) _ (cs, p)

@[simp] theorem Perf.writeRow_ras (p : Perf) (row : Row) (cs : List Chunk) : (p.writeRow row cs).s.ras = p.s.ras :=
  foldl_const (g := fun r : List Chunk × Perf => r.2.s.ras) (fun r q => by simp) _ (cs, p)

/-! ### Machine/TileState.lean -/

@[simp] theorem State.putMem_fifo (s : State) (pa : Nat) (cs : List Chunk) (c : Option Nat) (h : s.ras.fifo.length ≤ 16) :
    (s.putMem pa cs c).ras.fifo.length ≤ 16 := by
  unfold State.putMem
  repeat' split
  all_goals simp_all

@[simp] theorem State.spillBlock_fifo (s : State) (d : Saddle) (pin o b : Nat) (h : s.ras.fifo.length ≤ 16) :
    (s.spillBlock d pin o b).ras.fifo.length ≤ 16 := by
  refine foldl_fifo (fun s p h => State.record_fifo _ _ h) _ _ ?_
  exact State.putMem_fifo _ _ _ _ (State.putMem_fifo _ _ _ _ (State.putMem_fifo _ _ _ _ h))

@[simp] theorem State.spillTile_fifo (s : State) (d : Saddle) (pin o t : Nat) (h : s.ras.fifo.length ≤ 16) :
    (s.spillTile d pin o t).ras.fifo.length ≤ 16 := by
  unfold State.spillTile
  have hp := fun s c pa h => State.putMem_fifo s pa c (some o) h
  refine ite_fifo (fun _ => ?_) fun _ => ?_
  · exact hp _ _ _ (hp _ _ _ (hp _ _ _ h))
  · exact hp _ _ _ (hp _ _ _ h)

@[simp] theorem State.writeRecord_fifo (s : State) (o pin : Nat) (t : TileRec) (h : s.ras.fifo.length ≤ 16) :
    (s.writeRecord o pin t).ras.fifo.length ≤ 16 := by
  unfold State.writeRecord
  have hp := fun c pa => State.putMem_fifo s pa c (some o) h
  refine ite_fifo (fun _ => ?_) fun _ => ?_
  · rw [State.modCtx_ras]; exact State.writeFlags_fifo _ _ _ (hp _ _)
  · rw [State.modCtx_ras]; exact hp _ _

@[simp] theorem State.spill_fifo (s : State) (i : Nat) (rstate : List Byte) (h : s.ras.fifo.length ≤ 16) :
    (s.spill i rstate).ras.fifo.length ≤ 16 := by
  simp only [State.spill]
  split
  · exact h
  · split
    · exact h
    · simp only [State.clearReins_ras, State.setSad_ras]
      refine State.writeRecord_fifo _ _ _ _ (foldl_fifo (fun s t h => by simp [h]) _ _ ?_)
      exact foldl_fifo (fun s b h => by simp [h]) _ s h

@[simp] theorem State.getMem_fifo (s : State) (pa n : Nat) (c : Option Nat) (h : s.ras.fifo.length ≤ 16) :
    (s.getMem pa n c).2.ras.fifo.length ≤ 16 := by
  unfold State.getMem
  repeat' split
  all_goals simp_all

@[simp] theorem State.loadBlocks_fifo (s : State) (pin c : Nat) (d : Saddle) (h : s.ras.fifo.length ≤ 16) :
    (s.loadBlocks pin c d).2.ras.fifo.length ≤ 16 := by
  have hg := fun s pa n h => State.getMem_fifo s pa n (some c) h
  exact foldl_keeps (P := fun r : Saddle × State => r.2.ras.fifo.length ≤ 16)
    (fun r b hr => hg _ _ _ (hg _ _ _ (hg _ _ _ hr))) _ (d, s) h

@[simp] theorem State.loadTiles_fifo (s : State) (pin c : Nat) (d : Saddle) (h : s.ras.fifo.length ≤ 16) :
    (s.loadTiles pin c d).2.ras.fifo.length ≤ 16 := by
  have hg := fun s pa n h => State.getMem_fifo s pa n (some c) h
  exact foldl_keeps (P := fun r : Saddle × State => r.2.ras.fifo.length ≤ 16)
    (fun r b hr => hg _ _ _ (hg _ _ _ (hg _ _ _ hr))) _ (d, s) h

@[simp] theorem State.releaseTile_fifo (s : State) (c : Nat) (h : s.ras.fifo.length ≤ 16) :
    (s.releaseTile c).ras.fifo.length ≤ 16 := by
  simp only [State.releaseTile]
  split <;> simp [h]

@[simp] theorem State.restoreFails_fifo (s : State) (c a : Nat) (h : s.ras.fifo.length ≤ 16) :
    (s.restoreFails c a).ras.fifo.length ≤ 16 := by
  simp [State.restoreFails, h]

@[simp] theorem State.restore_fifo (s : State) (c i pin : Nat) (fresh : Bool) (h : s.ras.fifo.length ≤ 16) :
    (s.restore c i pin fresh).2.ras.fifo.length ≤ 16 := by
  have hm := fun pa n => State.getMem_fifo s.clearReins pa n (some c) h
  simp only [State.restore]
  split
  · rw [State.setSad_ras]; exact h
  · split
    · exact State.restoreFails_fifo _ _ _ (hm _ _)
    · have hl := fun d d' => State.loadTiles_fifo _ pin c d' (State.loadBlocks_fifo _ pin c d (hm ((s.clearReins.ctx c).recordPa pin) 13))
      rw [State.setSad_ras]
      split
      · rw [State.modCtx_ras]; exact State.writeFlags_fifo _ _ _ (hl _ _)
      · exact hl _ _

@[simp] theorem saveAreaPa_fifo (x : XCtx) (c : Nat) : FifoM (saveAreaPa x c) := by
  unfold saveAreaPa
  refine fifoM_get_bind fun s h => ?_
  have hx := (translate_fifo { x with sys := true } 2 true (s.ctx c).tsave (some c)).keeps s h
  simp only
  split
  · simp
  · split
    · next hr => exact fifoM_bind (fifoM_set (by simpa [hr, endState] using hx)) (by simp)
    · next hr =>
      refine fifoM_bind (fifoM_set (by simpa [hr, endState] using hx)) fun _ => ?_
      split <;> simp

@[simp] theorem saveAreaTrap_fifo {α : Type} (c : Nat) : FifoM (saveAreaTrap c : M α) := by
  simp [saveAreaTrap]

@[simp] theorem takeSaddle_fifo (x : XCtx) (c : Nat) : FifoM (takeSaddle x c) := by
  unfold takeSaddle
  refine fifoM_get_bind fun s h => ?_
  have rest : ∀ pin, FifoM (do
      let s1 ← get
      match s1.takeFrom with
      | none => waitM .saddle
      | some i =>
        if (s1.sad i).owner.isSome && !(s1.sad i).queue.isEmpty then waitM .saddle
        set (((s1.spill i []).modCtx c fun e => { e with pin := some pin }).restore c i pin (s.ctx c).pin.isNone).2
        if (((s1.spill i []).modCtx c fun e => { e with pin := some pin }).restore c i pin (s.ctx c).pin.isNone).1 then pure i
        else saveAreaTrap c) := fun pin => by
    refine fifoM_get_bind fun s1 h1 => ?_
    split
    · simp
    · refine fifoM_check (by simp) fun _ => ?_
      exact fifoM_bind (fifoM_set (State.restore_fifo _ _ _ _ _ (by simp [h1]))) fun _ => by split <;> simp
  split
  · simp
  · split
    · exact rest _
    · refine fifoM_bind (saveAreaPa_fifo x c) fun p => ?_
      split
      · exact rest _
      · exact fifoM_bind (saveAreaTrap_fifo c) rest

/-! ### Machine/TilePerf.lean -/

@[simp] theorem Perf.modSad_ras (p : Perf) (i : Nat) (f : Saddle → Saddle) : (p.modSad i f).s.ras = p.s.ras := by
  simp [Perf.modSad]

@[simp] theorem Perf.err_ras (p : Perf) (r : ErrRec) : (p.err r).s.ras = p.s.ras := (rfl)

@[simp] theorem Perf.upset_ras (p : Perf) (i : Nat) (hw : HwFault) : (p.upset i hw).s.ras = p.s.ras := by
  simp only [Perf.upset]
  split <;> simp

@[simp] theorem Perf.parity_ras (p : Perf) (i : Nat) (t : TileRun) : (p.parity i t).s.ras = p.s.ras :=
  foldl_const (g := fun p : Perf => p.s.ras) (fun p q => by simp only; split <;> simp) _ p

@[simp] theorem Perf.residueErr_ras (p : Perf) (t : TileRun) : (p.residueErr t).s.ras = p.s.ras := by
  simp only [Perf.residueErr]
  split <;> rfl

@[simp] theorem Perf.readRows_ras (p : Perf) (first n : Nat) (rows : List Row) :
    (p.readRows first n rows).2.s.ras = p.s.ras :=
  foldl_const (g := fun r : List Chunk × Perf => r.2.s.ras) (fun r q => by simp) _ ([], p)

@[simp] theorem TileRun.bufVecs_ras (t : TileRun) (p : Perf) (k : Nat) : (t.bufVecs p k).2.s.ras = p.s.ras := by
  simp [TileRun.bufVecs]

@[simp] theorem Perf.modTile_ras (p : Perf) (f : TileUnit → TileUnit) : (p.modTile f).s.ras = p.s.ras := (rfl)

@[simp] theorem Perf.outer_ras (p : Perf) (i : Nat) (t : TileRun) (mem : Bool) (k : Nat) :
    (p.outer i t mem k).s.ras = p.s.ras := by
  simp only [Perf.outer]
  split <;> simp

@[simp] theorem Perf.load_ras (p : Perf) (i : Nat) (t : TileRun) (scale : Bool) : (p.load i t scale).s.ras = p.s.ras := by
  have hl := foldl_const (g := fun p : Perf => p.s.ras) (f := fun (p : Perf) (q : Row × Nat) =>
    (p.readRow 0 8 q.1).2.modSad i fun d => d.setTileRow (twTile t.right.data) scale (twFirst t.right.data + q.2)
      (chunkBytes (p.readRow 0 8 q.1).1) ((p.readRow 0 8 q.1).1.map (·.2))) (fun p q => by simp) t.moved p
  simp only [Perf.load]
  split
  · exact (Perf.modSad_ras ..).trans hl
  · exact hl

@[simp] theorem Perf.store_ras (p : Perf) (i : Nat) (t : TileRun) (scale : Bool) : (p.store i t scale).s.ras = p.s.ras :=
  foldl_const (g := fun p : Perf => p.s.ras) (fun _ _ => Perf.writeRow_ras _ _ _) _ p

@[simp] theorem Perf.zero_ras (p : Perf) (i : Nat) (t : TileRun) : (p.zero i t).s.ras = p.s.ras := by
  simp [Perf.zero]

@[simp] theorem Perf.writeOut_ras (p : Perf) (i : Nat) (t : TileRun) (dfmt : Nat) (outs : List (List Drained)) :
    (p.writeOut i t dfmt outs).s.ras = p.s.ras := by
  simp only [Perf.writeOut]
  split
  · simp
  · exact foldl_const (g := fun p : Perf => p.s.ras) (fun p q => by simp) _ p

@[simp] theorem Perf.drain_ras (p : Perf) (i : Nat) (t : TileRun) (dfmt act : Nat) (clr bias xr xc : Bool) :
    (p.drain i t dfmt act clr bias xr xc).s.ras = p.s.ras := by
  simp [Perf.drain]

@[simp] theorem Perf.wide_ras (p : Perf) (i : Nat) (t : TileRun) (clr : Bool) : (p.wide i t clr).s.ras = p.s.ras := by
  simp only [Perf.wide, Perf.modSad_ras]
  refine (foldl_const (g := fun p : Perf => p.s.ras) (fun p q => by simp) _ _).trans ?_
  simp

@[simp] theorem Perf.addWide_ras (p : Perf) (i : Nat) (t : TileRun) : (p.addWide i t).s.ras = p.s.ras := by
  refine (foldl_const (g := fun p : Perf => p.s.ras) (fun p q => by simp) _ _).trans ?_
  simp

@[simp] theorem Perf.check_ras (p : Perf) (i : Nat) (t : TileRun) : (p.check i t).s.ras = p.s.ras := by
  simp only [Perf.check]
  split <;> rfl

@[simp] theorem TileRun.act_ras (t : TileRun) (i : Nat) (s : State) : (t.act i s).s.ras = s.ras := by
  simp only [TileRun.act]
  split <;> simp

@[simp] theorem TileRun.perform_ras (t : TileRun) (i : Nat) (s : State) : (t.perform i s).s.ras = s.ras := by
  simp [TileRun.perform]

/-! ### Machine/Tile.lean -/

@[simp] theorem translateSpan_fifo (kind : Kind) (fuel : Nat) (va : Word) (n : Nat) : FifoM (translateSpan kind fuel va n) := by
  induction fuel generalizing va n with
  | zero => exact fifoM_pure []
  | succ m ih =>
    refine fifoM_ite (fun _ => fifoM_pure _) fun _ => fifoM_bind (translateCur_fifo ..) fun p => ?_
    exact fifoM_bind (ih _ _) fun _ => fifoM_pure _

@[simp] theorem memRows_fifo (kind : Kind) (a : List (Word × Nat)) : FifoM (memRows kind a) := by
  induction a with
  | nil => exact fifoM_pure []
  | cons r rs ih => simp [memRows, ih]

@[simp] theorem checkBounds_fifo (field : Nat) (rows : List (Word × Nat)) : FifoM (checkBounds field rows) := by
  simp only [checkBounds]
  repeat' first
    | with_reducible refine fifoM_check ?_ ?_ | with_reducible refine fifoM_get_bind ?_ | with_reducible refine fifoM_bind ?_ ?_
    | with_reducible refine fifoM_ite ?_ ?_ | with_reducible refine fifoM_set ?_ | with_reducible refine fifoM_modify ?_
    | split | intro _
  all_goals simp [*]

@[simp] theorem checkDeclared_fifo (field c : Nat) (write : Bool) (rows : List (Word × Nat)) :
    FifoM (checkDeclared field c write rows) := by
  unfold checkDeclared
  refine fifoM_get_bind fun s h => ?_
  split <;> simp +contextual -implicitDefEqProofs

@[simp] theorem waitRange_fifo (field : Nat) (tag : Tag) (v : Word) : FifoM (waitRange field tag v) := by
  simp [waitRange]

@[simp] theorem checkGranted_fifo (c : Nat) (k : TK) (sh : Word) (l r : TVal) : FifoM (checkGranted c k sh l r) := by
  unfold checkGranted
  refine fifoM_get_bind fun s h => ?_
  split <;> simp +contextual -implicitDefEqProofs

@[simp] theorem placeRows_fifo (c : Nat) (k : TK) (sh : Word) (l r : TVal) : FifoM (placeRows c k sh l r) := by
  simp only [placeRows]
  repeat' first
    | with_reducible refine fifoM_check ?_ ?_ | with_reducible refine fifoM_get_bind ?_ | with_reducible refine fifoM_bind ?_ ?_
    | with_reducible refine fifoM_ite ?_ ?_ | with_reducible refine fifoM_set ?_ | with_reducible refine fifoM_modify ?_
    | split | intro _
  all_goals simp [*]

@[simp] theorem opTrap_fifo {α : Type} (code field : Nat) (sh l r : TVal) (v : Word) :
    FifoM (opTrap code field sh l r v : M α) := by
  simp [opTrap]

@[simp] theorem issueTile_fifo (i : Instr) : FifoM (issueTile i) := by
  simp only [issueTile]
  repeat' first
    | with_reducible refine fifoM_check ?_ ?_ | with_reducible refine fifoM_get_bind ?_ | with_reducible refine fifoM_bind ?_ ?_
    | with_reducible refine fifoM_ite ?_ ?_ | with_reducible refine fifoM_set ?_ | with_reducible refine fifoM_modify ?_
    | split | intro _
  all_goals simp [*]

@[simp] theorem issueSaddle_fifo (i : Instr) (q : Issued) : FifoM (issueSaddle i q) := by
  simp only [issueSaddle]
  repeat' first
    | with_reducible refine fifoM_check ?_ ?_ | with_reducible refine fifoM_get_bind ?_ | with_reducible refine fifoM_bind ?_ ?_
    | with_reducible refine fifoM_ite ?_ ?_ | with_reducible refine fifoM_set ?_ | with_reducible refine fifoM_modify ?_
    | split | intro _
  all_goals simp [*]

@[simp] theorem issuePaced_fifo (q : Issued) : FifoM (issuePaced q) := by
  simp [issuePaced]

@[simp] theorem State.countIssue_ras (s : State) (n : Nat) (q : Issued) : (s.countIssue n q).ras = s.ras := by
  simp [State.countIssue]

@[simp] theorem acceptTile_fifo (i : Instr) : FifoM (acceptTile i) := by
  simp only [acceptTile]
  repeat' first
    | with_reducible refine fifoM_check ?_ ?_ | with_reducible refine fifoM_get_bind ?_ | with_reducible refine fifoM_bind ?_ ?_
    | with_reducible refine fifoM_ite ?_ ?_ | with_reducible refine fifoM_set ?_ | with_reducible refine fifoM_modify ?_
    | split | intro _
  all_goals simp [*]

@[simp] theorem waitTurn_fifo (q : Issued) (n : Nat) (engines : Bool) : FifoM (waitTurn q n engines) := by
  simp only [waitTurn]
  repeat' first
    | with_reducible refine fifoM_check ?_ ?_ | with_reducible refine fifoM_get_bind ?_ | with_reducible refine fifoM_bind ?_ ?_
    | with_reducible refine fifoM_ite ?_ ?_ | with_reducible refine fifoM_set ?_ | with_reducible refine fifoM_modify ?_
    | split | intro _
  all_goals simp [*]

@[simp] theorem Perf.inline_fifo (p : Perf) (c outcome : Nat) (h : p.s.ras.fifo.length ≤ 16) :
    (p.inline c outcome).ras.fifo.length ≤ 16 := by
  have hf := foldl_fifo (f := fun (s : State) (r : ErrRec) =>
    s.record { r with ctx := BitVec.ofNat 16 c, outcome := BitVec.ofNat 8 outcome }) (fun s r h => by simp [h]) p.errs p.s h
  simp only [Perf.inline]
  split
  · exact hf
  · exact State.record_fifo _ _ hf

@[simp] theorem transferTile_fifo (i : Instr) (cut : CutRows) : FifoM (transferTile i cut) := by
  simp only [transferTile]
  repeat' first
    | with_reducible refine fifoM_check ?_ ?_ | with_reducible refine fifoM_get_bind ?_ | with_reducible refine fifoM_bind ?_ ?_
    | with_reducible refine fifoM_ite ?_ ?_ | with_reducible refine fifoM_set ?_ | with_reducible refine fifoM_modify ?_
    | split | intro _
  all_goals simp [*]

/-! ### Machine/RunLoad.lean -/

@[simp] theorem refuseImage_fifo {α : Type} (reason : Nat) : FifoM (refuseImage reason : M α) := by
  simp [refuseImage]

@[simp] theorem imageRows_fifo (base : TVal) (n : Nat) : FifoM (imageRows base n) := by
  unfold imageRows
  split <;> simp

@[simp] theorem readImage_fifo (c : Nat) (base : TVal) (n : Nat) : FifoM (readImage c base n) := by
  simp only [readImage]
  repeat' first
    | with_reducible refine fifoM_check ?_ ?_ | with_reducible refine fifoM_get_bind ?_ | with_reducible refine fifoM_bind ?_ ?_
    | with_reducible refine fifoM_ite ?_ ?_ | with_reducible refine fifoM_set ?_ | with_reducible refine fifoM_modify ?_
    | split | intro _
  all_goals simp [*]

@[simp] theorem State.setImage_ras (s : State) (c : Nat) (t : Tbl Image) (gone : List Nat) (m : Image) :
    (s.setImage c t gone m).ras = s.ras := by
  simp only [State.setImage, State.modCtx_ras]
  exact foldl_ras (fun s v => by simp) gone s

@[simp] theorem loadImage_fifo (c : Nat) (base : TVal) : FifoM (loadImage c base) := by
  simp only [loadImage]
  repeat' first
    | with_reducible refine fifoM_check ?_ ?_ | with_reducible refine fifoM_get_bind ?_ | with_reducible refine fifoM_bind ?_ ?_
    | with_reducible refine fifoM_ite ?_ ?_ | with_reducible refine fifoM_set ?_ | with_reducible refine fifoM_modify ?_
    | split | intro _
  all_goals simp [*]

@[simp] theorem takePin_fifo (x : XCtx) (c : Nat) (p : Pin) : FifoM (takePin x c p) := by
  simp only [takePin]
  repeat' first
    | with_reducible refine fifoM_check ?_ ?_ | with_reducible refine fifoM_get_bind ?_ | with_reducible refine fifoM_bind ?_ ?_
    | with_reducible refine fifoM_ite ?_ ?_ | with_reducible refine fifoM_set ?_ | with_reducible refine fifoM_modify ?_
    | split | intro _
  all_goals simp [*]

@[simp] theorem takePins_fifo (x : XCtx) (c : Nat) (a : List Pin) : FifoM (takePins x c a) := by
  induction a with
  | nil => exact fifoM_pure []
  | cons p ps ih => simp [takePins, ih]

@[simp] theorem State.askRange_ras (s : State) (c i : Nat) (g : BufRange) : (s.askRange c i g).ras = s.ras := (rfl)

@[simp] theorem takeRanges_fifo (c : Nat) (gs : List BufRange) : FifoM (takeRanges c gs) := by
  simp only [takeRanges]
  repeat' first
    | with_reducible refine fifoM_check ?_ ?_ | with_reducible refine fifoM_get_bind ?_ | with_reducible refine fifoM_bind ?_ ?_
    | with_reducible refine fifoM_ite ?_ ?_ | with_reducible refine fifoM_set ?_ | with_reducible refine fifoM_modify ?_
    | split | intro _
  all_goals simp [*]

@[simp] theorem State.admitRun_ras (s : State) (c n : Nat) (m : Image) (pins : List HeldPin) (gate : Bool) (at' : Option Word) :
    (s.admitRun c n m pins gate at').ras = s.ras := by
  simp [State.admitRun]

@[simp] theorem admitImage_fifo (i : Instr) (q : Issued) (gate : Bool) (at' : Option Word) :
    FifoM (admitImage i q gate at') := by
  simp only [admitImage]
  repeat' first
    | with_reducible refine fifoM_check ?_ ?_ | with_reducible refine fifoM_get_bind ?_ | with_reducible refine fifoM_bind ?_ ?_
    | with_reducible refine fifoM_ite ?_ ?_ | with_reducible refine fifoM_set ?_ | with_reducible refine fifoM_modify ?_
    | split | intro _
  all_goals simp [*]

/-! ### Machine/RunEvent.lean -/

@[simp] theorem State.startRun_ras (s : State) (i : Nat) : (s.startRun i).ras = s.ras := by
  simp only [State.startRun]
  split <;> simp

@[simp] theorem State.chargeErrors_fifo (s : State) (r : Run) (n start latency after : Nat) (es : List ErrRec)
    (h : s.ras.fifo.length ≤ 16) :
    (s.chargeErrors r n start latency after es).1.ras.fifo.length ≤ 16 :=
  foldl_keeps (P := fun r : State × Run => r.1.ras.fifo.length ≤ 16) (fun r e hr => by simp [hr]) _ (s, r) h

@[simp] theorem State.runBufError_fifo (s : State) (i : Nat) (r : Run) (n start : Nat) (h : s.ras.fifo.length ≤ 16) :
    (s.runBufError i r n start).ras.fifo.length ≤ 16 := by
  simp [State.runBufError, h]

@[simp] theorem State.runBufCorrected_fifo (s : State) (r : Run) (n start : Nat) (hw : HwFault) (h : s.ras.fifo.length ≤ 16) :
    (s.runBufCorrected r n start hw).ras.fifo.length ≤ 16 := by
  simp [State.runBufCorrected, h]

@[simp] theorem State.startInsn_fifo (s : State) (i : Nat) (hw : HwFault) (after : Nat) (h : s.ras.fifo.length ≤ 16) :
    (s.startInsn i hw after).ras.fifo.length ≤ 16 := by
  simp only [State.startInsn]
  split
  · exact h
  · split
    · exact h
    · split
      · simp [h]
      · simp only [State.setRun_ras]
        refine State.chargeErrors_fifo _ _ _ _ _ _ _ ?_
        refine State.runBufCorrected_fifo _ _ _ _ _ ?_
        exact State.chargeErrors_fifo _ _ _ _ _ _ _ (by simp [h])

@[simp] theorem State.replayRun_ras (s : State) (i : Nat) : (s.replayRun i).ras = s.ras := by
  simp only [State.replayRun]
  split <;> (try split) <;> simp

@[simp] theorem State.completeRun_fifo (s : State) (i : Nat) (h : s.ras.fifo.length ≤ 16) :
    (s.completeRun i).ras.fifo.length ≤ 16 := by
  simp only [State.completeRun]
  split <;> (try split) <;> simp [h]

@[simp] theorem State.limitRun_fifo (s : State) (i : Nat) (h : s.ras.fifo.length ≤ 16) :
    (s.limitRun i).ras.fifo.length ≤ 16 := by
  simp only [State.limitRun]
  split <;> (try split) <;> simp [h]

@[simp] theorem State.takeAbandon_fifo (s : State) (i : Nat) (h : s.ras.fifo.length ≤ 16) :
    (s.takeAbandon i).ras.fifo.length ≤ 16 := by
  simp only [State.takeAbandon]
  split <;> (try split) <;> simp [h]

@[simp] theorem State.switchOut_ras (s : State) (i : Nat) : (s.switchOut i).ras = s.ras := by
  simp only [State.switchOut]
  split <;> simp

@[simp] theorem State.switchBack_ras (s : State) (i : Nat) : (s.switchBack i).ras = s.ras := by
  simp only [State.switchBack]
  split <;> simp

@[simp] theorem State.takePause_ras (s : State) (i : Nat) : (s.takePause i).ras = s.ras := by
  simp only [State.takePause]
  split <;> simp

@[simp] theorem State.continueRun_ras (s : State) (i : Nat) (r : Run) : (s.continueRun i r).ras = s.ras := by
  simp [State.continueRun]

@[simp] theorem State.parkRun_fifo (s : State) (i : Nat) (h : s.ras.fifo.length ≤ 16) : (s.parkRun i).ras.fifo.length ≤ 16 := by
  simp only [State.parkRun]
  split <;> simp [h]

@[simp] theorem State.failResume_fifo (s : State) (c : Nat) (result : BitVec 8) (h : s.ras.fifo.length ≤ 16) :
    (s.failResume c result).ras.fifo.length ≤ 16 := by
  simp [State.failResume, h]

@[simp] theorem State.unpark_fifo (s : State) (c i : Nat) (x : XCtx) (h : s.ras.fifo.length ≤ 16) :
    (s.unpark c i x).ras.fifo.length ≤ 16 := by
  unfold State.unpark
  split
  · exact h
  · next r _ =>
    have hp := (takePins_fifo x c r.image.pins).keeps s h
    split
    · next hr => rw [hr] at hp; exact State.failResume_fifo _ _ _ hp
    · next hr =>
      rw [hr] at hp
      simp only
      split
      · exact State.failResume_fifo _ _ _ hp
      · split
        · rw [State.setRun_ras]; exact hp
        · rw [State.continueRun_ras]; exact hp

/-! ### Machine/Bridle.lean -/

theorem State.onCtx_fifo {s : State} {f : Nat → State → State} (m : Nat) (h : s.ras.fifo.length ≤ 16)
    (hf : ∀ c, (f c s).ras.fifo.length ≤ 16) : (s.onCtx m f).ras.fifo.length ≤ 16 := by
  simp only [State.onCtx]
  split
  · simp [h]
  · exact hf _

@[simp] theorem saveAreaOf_fifo (va : Word) (s : State) (h : s.ras.fifo.length ≤ 16) :
    (saveAreaOf va s).2.ras.fifo.length ≤ 16 := by
  have hx := (translate_fifo { (s.stall 31).xctx with sys := true } 2 false va none).keeps s h
  unfold saveAreaOf
  split
  · next hr => rw [hr] at hx; exact hx
  · next hr => rw [hr] at hx; exact hx

@[simp] theorem State.startCtx_fifo (s : State) (c : Nat) (d : CtxDesc) (lo hi : Nat) (h : s.ras.fifo.length ≤ 16) :
    (s.startCtx c d lo hi).ras.fifo.length ≤ 16 := by
  simp [State.startCtx, h]

@[simp] theorem State.ctxStart_fifo (s : State) (m c : Nat) (h : s.ras.fifo.length ≤ 16) :
    (s.ctxStart m c).ras.fifo.length ≤ 16 := by
  have hr := State.unitRead_fifo s ((s.cfgAct 1 0).toNat + 256 * c) 128 none h
  have ha := fun va va' => saveAreaOf_fifo va' _ (saveAreaOf_fifo va _ hr)
  simp only [State.ctxStart]
  split
  · simp [h]
  · split
    · simp [hr]
    · split
      · simp [hr]
      · split
        · rw [State.mbDone_ras]; exact State.startCtx_fifo _ _ _ _ _ (ha _ _)
        · rw [State.mbFail_ras]; exact ha _ _

@[simp] theorem State.ctxStopEnd_ras (s : State) (m c how waited : Nat) : (s.ctxStopEnd m c how waited).ras = s.ras := by
  simp only [State.ctxStopEnd]
  split <;> simp

@[simp] theorem State.ctxStopNow_fifo (s : State) (m c how waited : Nat) (h : s.ras.fifo.length ≤ 16) :
    (s.ctxStopNow m c how waited).ras.fifo.length ≤ 16 := by
  simp [State.ctxStopNow, h]

@[simp] theorem State.ctxStop_fifo (s : State) (m c : Nat) (h : s.ras.fifo.length ≤ 16) :
    (s.ctxStop m c).ras.fifo.length ≤ 16 := by
  simp only [State.ctxStop]
  repeat' split
  all_goals simp_all

@[simp] theorem State.removeCtx_fifo (s : State) (c : Nat) (h : s.ras.fifo.length ≤ 16) :
    (s.removeCtx c).ras.fifo.length ≤ 16 := by
  simp [State.removeCtx, h]

@[simp] theorem State.setupReserve_ras (s : State) (asid ptbase tvec : Word) :
    (s.setupReserve asid ptbase tvec).ras = s.ras := by
  simp [State.setupReserve]

@[simp] theorem State.askPause_ras (s : State) (i : Nat) : (s.askPause i).ras = s.ras := by
  simp only [State.askPause]
  split <;> (try split) <;> simp

@[simp] theorem State.mbWaitOnce_ras (s : State) (m : Nat) (w : MbWait) : (s.mbWaitOnce m w).ras = s.ras := by
  simp [State.mbWaitOnce]

@[simp] theorem State.runPause_ras (s : State) (m c : Nat) : (s.runPause m c).ras = s.ras := by
  simp only [State.runPause]
  split <;> (try split) <;> simp

@[simp] theorem State.runPark_fifo (s : State) (m c : Nat) (h : s.ras.fifo.length ≤ 16) :
    (s.runPark m c).ras.fifo.length ≤ 16 := by
  simp only [State.runPark]
  split <;> (try split) <;> simp [h]

@[simp] theorem State.resumeDone_ras (s : State) (m c : Nat) : (s.resumeDone m c).ras = s.ras := by
  simp [State.resumeDone]

@[simp] theorem State.resumeParked_fifo (s : State) (m c : Nat) (h : s.ras.fifo.length ≤ 16) :
    (s.resumeParked m c).ras.fifo.length ≤ 16 := by
  have hp := (takeSaddle_fifo (s.xctxOf c) c).keeps s h
  simp only [State.resumeParked]
  split
  · next hr => rw [hr] at hp; rw [State.resumeDone_ras]; exact State.unpark_fifo _ _ _ _ hp
  · next hr => rw [hr] at hp; exact hp
  · next hr => rw [hr] at hp; rw [State.resumeDone_ras]; exact State.failResume_fifo _ _ _ hp

@[simp] theorem State.runResume_fifo (s : State) (m c : Nat) (h : s.ras.fifo.length ≤ 16) :
    (s.runResume m c).ras.fifo.length ≤ 16 := by
  unfold State.runResume
  repeat' split
  all_goals simp_all

@[simp] theorem State.runCancel_fifo (s : State) (m c : Nat) (h : s.ras.fifo.length ≤ 16) :
    (s.runCancel m c).ras.fifo.length ≤ 16 := by
  simp [State.runCancel, h]

@[simp] theorem State.mbTack_ras (s : State) (m n : Nat) (v : Word) : (s.mbTack m n v).ras = s.ras := by
  simp [State.mbTack]

@[simp] theorem State.setCalMode_ras (s : State) (on : Bool) : (s.setCalMode on).ras = s.ras := by
  simp [State.setCalMode]

@[simp] theorem State.gateCal_ras (s : State) (m : Nat) : (s.gateCal m).ras = s.ras := by
  simp only [State.gateCal]
  split <;> (try split) <;> simp

@[simp] theorem State.extAsk_ras (s : State) (m : Nat) : (s.extAsk m).ras = s.ras := by
  unfold State.extAsk
  extract_lets s1
  have h1 : s1.ras = s.ras := foldl_ras (fun s i => State.gStore_ras ..) _ s
  rw [State.mbWait_ras, State.pendGroom_ras, State.gClear_ras, h1]

@[simp] theorem State.licensee_ras (s : State) (m : Nat) : (s.licensee m).ras = s.ras := by
  simp [State.licensee]

/-! ### Machine/Context.lean -/

@[simp] theorem holdFault_fifo {α : Type} : FifoM (holdFault : M α) := by
  simp only [holdFault]
  repeat' first
    | with_reducible refine fifoM_check ?_ ?_ | with_reducible refine fifoM_get_bind ?_ | with_reducible refine fifoM_bind ?_ ?_
    | with_reducible refine fifoM_ite ?_ ?_ | with_reducible refine fifoM_set ?_ | with_reducible refine fifoM_modify ?_
    | split | intro _
  all_goals simp [*]

@[simp] theorem contextOperands_fifo (i : Instr) (a b : Reg) : FifoM (contextOperands i a b) := by
  simp only [contextOperands]
  repeat' first
    | with_reducible refine fifoM_check ?_ ?_ | with_reducible refine fifoM_get_bind ?_ | with_reducible refine fifoM_bind ?_ ?_
    | with_reducible refine fifoM_ite ?_ ?_ | with_reducible refine fifoM_set ?_ | with_reducible refine fifoM_modify ?_
    | split | intro _
  all_goals simp [*]

@[simp] theorem areaParts_fifo (kind : Kind) (va : Word) : FifoM (areaParts kind va) := by
  simp only [areaParts]
  repeat' first
    | with_reducible refine fifoM_check ?_ ?_ | with_reducible refine fifoM_get_bind ?_ | with_reducible refine fifoM_bind ?_ ?_
    | with_reducible refine fifoM_ite ?_ ?_ | with_reducible refine fifoM_set ?_ | with_reducible refine fifoM_modify ?_
    | split | intro _
  all_goals simp [*]

@[simp] theorem writeArea_fifo (ps : List (TlbEntry × Nat × Nat)) (bs : List Byte) (s : State) (h : s.ras.fifo.length ≤ 16) :
    (writeArea ps bs s).ras.fifo.length ≤ 16 := by
  simp only [writeArea]
  split <;> simp [h]

@[simp] theorem readAreaParts_fifo (ps : List (TlbEntry × Nat × Nat)) (s : State) (h : s.ras.fifo.length ≤ 16) :
    (readAreaParts ps s).2.ras.fifo.length ≤ 16 := by
  refine foldl_keeps (P := fun r : Area × State => r.2.ras.fifo.length ≤ 16) (fun r p hr => ?_) ps _ h
  exact foldl_keeps (P := fun r : Area × State => r.2.ras.fifo.length ≤ 16) (fun r i hr => readParts_fifo _ _ _ hr) _ r hr

@[simp] theorem savable_fifo (v : Nat) : FifoM (savable v) := by
  unfold savable
  refine fifoM_get_bind fun s h => ?_
  split <;> simp +contextual -implicitDefEqProofs

@[simp] theorem loadable_fifo (v : Nat) : FifoM (loadable v) := by
  unfold loadable
  refine fifoM_get_bind fun s h => ?_
  split <;> simp +contextual -implicitDefEqProofs

@[simp] theorem loadableCtx_fifo (c : Nat) : FifoM (loadableCtx c) := by
  simp [loadableCtx]

@[simp] theorem fillFault_fifo (c v : Nat) (ps : List (TlbEntry × Nat × Nat)) : FifoM (fillFault c v ps) := by
  simp only [fillFault]
  repeat' first
    | with_reducible refine fifoM_check ?_ ?_ | with_reducible refine fifoM_get_bind ?_ | with_reducible refine fifoM_bind ?_ ?_
    | with_reducible refine fifoM_ite ?_ ?_ | with_reducible refine fifoM_set ?_ | with_reducible refine fifoM_modify ?_
    | split | intro _
  all_goals simp [*]

/-! ### Machine/Scalar.lean -/

@[simp] theorem intOp_fifo (d a b : Reg) (f : Word → Word → Word) : FifoM (intOp d a b f) := by
  simp [intOp]

@[simp] theorem cmpOp_fifo (d a b : Reg) (f : Word → Word → Word) : FifoM (cmpOp d a b f) := by
  simp [cmpOp]

@[simp] theorem intImm_fifo (d a : Reg) (imm : Word) (f : Word → Word → Word) : FifoM (intImm d a imm f) := by
  simp [intImm]

@[simp] theorem cmpImm_fifo (d a : Reg) (imm : Word) (f : Word → Word → Word) : FifoM (cmpImm d a imm f) := by
  simp [cmpImm]

@[simp] theorem condMove_fifo (d a b : Reg) (when : Bool) : FifoM (condMove d a b when) := by
  simp only [condMove]
  repeat' first
    | with_reducible refine fifoM_check ?_ ?_ | with_reducible refine fifoM_get_bind ?_ | with_reducible refine fifoM_bind ?_ ?_
    | with_reducible refine fifoM_ite ?_ ?_ | with_reducible refine fifoM_set ?_ | with_reducible refine fifoM_modify ?_
    | split | intro _
  all_goals simp [*]

/-! ### Machine/GroomExec.lean -/

@[simp] theorem State.gAdvance_ras (s : State) (taken : Bool) : (s.gAdvance taken).ras = s.ras := by
  simp [State.gAdvance]

/-- The state that the effect of a Groom instruction leaves is within the bound. -/
def GOut.Fifo : GOut → Prop
  | .done s | .jump s _ | .hold s | .faulted s => s.ras.fifo.length ≤ 16
  | .fault _ _ => True

@[simp] theorem GOut.fifo_done (s : State) : (GOut.done s).Fifo ↔ s.ras.fifo.length ≤ 16 := Iff.rfl

@[simp] theorem GOut.fifo_jump (s : State) (pc : Half) : (GOut.jump s pc).Fifo ↔ s.ras.fifo.length ≤ 16 := Iff.rfl

@[simp] theorem GOut.fifo_hold (s : State) : (GOut.hold s).Fifo ↔ s.ras.fifo.length ≤ 16 := Iff.rfl

@[simp] theorem GOut.fifo_fault (code : Nat) (a : Option Half) : (GOut.fault code a).Fifo := trivial

theorem GOut.apply_fifo {o : GOut} {s : State} (t : Nat) (pc : Half) (ho : o.Fifo) (h : s.ras.fifo.length ≤ 16) :
    (o.apply t pc s).ras.fifo.length ≤ 16 := by
  cases o with
  | done s1 | jump s1 | hold s1 =>
    replace ho : s1.ras.fifo.length ≤ 16 := ho
    simp only [GOut.apply]
    split <;> simp [ho]
  | fault code addr => simp [GOut.apply, h]
  | faulted s1 => exact ho

theorem State.gFetch_ras {s s1 : State} {t : Nat} (hf : s.gFetch t = .ok s1) : s1.ras = s.ras := by
  simp only [State.gFetch] at hf
  split at hf
  · split at hf
    · cases hf; rfl
    · split at hf
      · cases hf
      · cases hf; rfl
  · split at hf
    · cases hf
    · cases hf; rfl

theorem State.runGroom_fifo {s : State} {t : Nat} {legal : Bool} {body : State → GThread → GOut} (h : s.ras.fifo.length ≤ 16)
    (hb : ∀ s1 u, s1.ras.fifo.length ≤ 16 → (body s1 u).Fifo) : (s.runGroom t legal body).ras.fifo.length ≤ 16 := by
  simp only [State.runGroom]
  split
  · exact h
  · split
    · exact State.groomFault_fifo _ _ _ _ h
    · split
      · exact State.gBadMet_fifo _ _ _ h
      · next s1 hf =>
        have h1 : s1.ras.fifo.length ≤ 16 := by rw [State.gFetch_ras hf]; exact h
        split
        · exact State.groomFault_fifo _ _ _ _ h1
        · exact GOut.apply_fifo _ _ (hb s1 _ h1) h1

@[simp] theorem State.gDivEnd_ras (s : State) (t : Nat) : (s.gDivEnd t).ras = s.ras := by
  simp only [State.gDivEnd]
  split <;> simp

/-! ### Machine/GroomMem.lean -/

@[simp] theorem State.gUnstack_ras (s : State) (t a : Nat) : (s.gUnstack t a).1.ras = s.ras := (rfl)

@[simp] theorem State.gBoundary_fifo (s : State) (t : Nat) (h : s.ras.fifo.length ≤ 16) :
    (s.gBoundary t).ras.fifo.length ≤ 16 := by
  simp only [State.gBoundary]
  split <;> simp [h]

@[simp] theorem State.gMarkBad_ras (s : State) (a : Nat) (e : Ecc) : (s.gMarkBad a e).ras = s.ras := by
  simp [State.gMarkBad]

@[simp] theorem State.machineCheck_fifo (s : State) (why : MachineCheck) (h : s.ras.fifo.length ≤ 16) :
    (s.machineCheck why).ras.fifo.length ≤ 16 := by
  have hw : ∀ s1 : State, s1.ras.fifo.length ≤ 16 → (if gRestarted s s1 then s1
      else if s1.groom.ipend.bit 33 && s1.gRuns 0 && (s1.gthread 0).held.isNone then s1.gBoundary 0 else s1).ras.fifo.length ≤ 16 :=
    fun s1 h1 => by
      split
      · exact h1
      · split
        · exact State.gBoundary_fifo _ _ h1
        · exact h1
  unfold State.machineCheck
  cases why with
  | memoryError w e => exact hw _ (State.gBadMet_fifo _ _ _ (by simpa using h))
  | memoryCorrected e => exact hw _ (State.record_fifo _ _ h)
  | escalated => exact hw s h

/-! ### Machine/LoadStore.lean -/

@[simp] theorem deviceLoad_fifo (f : LoadForm) (va : Word) (pa : Nat) : FifoM (deviceLoad f va pa) := by
  unfold deviceLoad
  refine fifoM_get_bind fun s h => fifoM_check (by simp) fun _ => ?_
  have hr : (s.apRead .core (apOff pa) (apLane pa f.n)).2.ras.fifo.length ≤ 16 := by rw [State.apRead_ras]; exact h
  generalize s.apRead .core (apOff pa) (apLane pa f.n) = r at hr ⊢
  split
  · exact fifoM_bind (fifoM_set hr) fun _ => by split <;> simp
  · simp [h]

@[simp] theorem plainLoad_fifo (f : LoadForm) (ps : List (TlbEntry × Nat × Nat)) : FifoM (plainLoad f ps) := by
  simp only [plainLoad]
  repeat' first
    | with_reducible refine fifoM_check ?_ ?_ | with_reducible refine fifoM_get_bind ?_ | with_reducible refine fifoM_bind ?_ ?_
    | with_reducible refine fifoM_ite ?_ ?_ | with_reducible refine fifoM_set ?_ | with_reducible refine fifoM_modify ?_
    | split | intro _
  all_goals simp [*]

@[simp] theorem loadInsn_fifo (d a : Reg) (imm : BitVec 15) (f : LoadForm) : FifoM (loadInsn d a imm f) := by
  simp only [loadInsn]
  repeat' first
    | with_reducible refine fifoM_check ?_ ?_ | with_reducible refine fifoM_get_bind ?_ | with_reducible refine fifoM_bind ?_ ?_
    | with_reducible refine fifoM_ite ?_ ?_ | with_reducible refine fifoM_set ?_ | with_reducible refine fifoM_modify ?_
    | split | intro _
  all_goals simp [*]

@[simp] theorem deviceStore_fifo (n : Nat) (va : Word) (pa : Nat) (v : TVal) : FifoM (deviceStore n va pa v) := by
  unfold deviceStore
  refine fifoM_get_bind fun s h => fifoM_check (by simp) fun _ => ?_
  split
  · exact fifoM_set (State.apWrite_fifo s _ _ _ _ _ h)
  · simp

@[simp] theorem storeInsn_fifo (d a : Reg) (imm : BitVec 15) (n : Nat) : FifoM (storeInsn d a imm n) := by
  simp only [storeInsn]
  repeat' first
    | with_reducible refine fifoM_check ?_ ?_ | with_reducible refine fifoM_get_bind ?_ | with_reducible refine fifoM_bind ?_ ?_
    | with_reducible refine fifoM_ite ?_ ?_ | with_reducible refine fifoM_set ?_ | with_reducible refine fifoM_modify ?_
    | split | intro _
  all_goals simp [*]

/-! ### Machine/Ports.lean -/

@[simp] theorem State.portError_fifo (s : State) (mine : Run → Bool) (e : ErrRec) (h : s.ras.fifo.length ≤ 16) :
    (s.portError mine e).ras.fifo.length ≤ 16 := by
  simp only [State.portError]
  split <;> simp [h]

@[simp] theorem State.readAnswered_ras (s : State) (line i : Nat) (data : List Byte) (marks : List Bool) :
    (s.readAnswered line i data marks).ras = s.ras := by
  simp [State.readAnswered]

@[simp] theorem State.writeAnswered_ras (s : State) (line : Nat) (marks : List Bool) :
    (s.writeAnswered line marks).ras = s.ras := (rfl)

@[simp] theorem State.noTargetAnswered_fifo (s : State) (lines : List Nat) (h : s.ras.fifo.length ≤ 16) :
    (s.noTargetAnswered lines).ras.fifo.length ≤ 16 := by
  simp only [State.noTargetAnswered]
  split <;> simp [h]

@[simp] theorem State.lineAnswered_ras (write : Bool) (data : List Byte) (pmask : BitVec 16) (s : State) (line : Nat) :
    (s.lineAnswered write data pmask line).ras = s.ras := by
  simp [State.lineAnswered]

@[simp] theorem State.memAnswered_fifo (s : State) (write : Bool) (block : Nat) (lmask : BitVec 2) (resp : PortResp)
    (data : List Byte) (pmask : BitVec 16) (h : s.ras.fifo.length ≤ 16) :
    (s.memAnswered write block lmask resp data pmask).ras.fifo.length ≤ 16 := by
  simp only [State.memAnswered]
  split <;> simp [h]

@[simp] theorem State.snoopAnswer_ras (s : State) (line : Nat) (tag : BitVec 8) : (s.snoopAnswer line tag).ras = s.ras := (rfl)

@[simp] theorem State.bufBeat_fifo (s : State) (port chunk : Nat) (data : List Byte) (rpoison : BitVec 32) (rerr : Bool)
    (h : s.ras.fifo.length ≤ 16) :
    (s.bufBeat port chunk data rpoison rerr).ras.fifo.length ≤ 16 := by
  simp [State.bufBeat, h]

@[simp] theorem State.bufAck_fifo (s : State) (port chunk n : Nat) (aerr : Bool) (h : s.ras.fifo.length ≤ 16) :
    (s.bufAck port chunk n aerr).ras.fifo.length ≤ 16 := by
  simp [State.bufAck, h]

/-! ### Machine/Power.lean -/

@[simp] theorem State.abandonAll_fifo (s : State) (result : BitVec 8) (h : s.ras.fifo.length ≤ 16) :
    (s.abandonAll result).ras.fifo.length ≤ 16 :=
  foldl_fifo (fun s p h => by simp [h]) _ _ (by simp [h])

@[simp] theorem State.setTherm_fifo (s : State) (t : Therm) (h : s.ras.fifo.length ≤ 16) :
    (s.setTherm t).ras.fifo.length ≤ 16 := by
  simp [State.setTherm, h]

@[simp] theorem State.thermalSample_fifo (s : State) (temp : Byte) (thermN : Bool) (h : s.ras.fifo.length ≤ 16) :
    (s.thermalSample temp thermN).ras.fifo.length ≤ 16 := by
  simp [State.thermalSample, h]

@[simp] theorem State.addCount_ras (s : State) (p : Nat × Nat) : (s.addCount p).ras = s.ras := by
  simp [State.addCount]

@[simp] theorem State.addHistory_ras (s : State) : s.addHistory.ras = s.ras := by
  simp [State.addHistory]

@[simp] theorem State.idle_ras (s : State) : s.idle.ras = s.ras := by
  simp [State.idle]

@[simp] theorem State.pfWrites_ras (s : State) : s.pfWrites.ras = s.ras := by
  simp [State.pfWrites]

@[simp] theorem State.emergencyToPwrfail_ras (s : State) : s.emergencyToPwrfail.ras = s.ras := by
  simp only [State.emergencyToPwrfail]
  split
  · exact foldl_ras (fun s c => by simp) _ s
  · rfl

@[simp] theorem State.pwrfail_fifo (s : State) (h : s.ras.fifo.length ≤ 16) : s.pwrfail.ras.fifo.length ≤ 16 := by
  simp [State.pwrfail, h]

@[simp] theorem State.stopDispatch_ras (s : State) : s.stopDispatch.ras = s.ras := by
  simp only [State.stopDispatch]
  split <;> rfl

@[simp] theorem State.pwrfailEnd_fifo (s : State) (h : s.ras.fifo.length ≤ 16) : s.pwrfailEnd.ras.fifo.length ≤ 16 := by
  simp [State.pwrfailEnd, h]

/-! ### The commands -/

/-- A command that goes on leaves a state within the bound. -/
def FifoOut (o : Out) : Prop := ∀ t, o = .next t → t.ras.fifo.length ≤ 16

section
variable {s : State} (h : s.ras.fifo.length ≤ 16)
include h

theorem coreStep_fifo {i : Instr} {body : M (Option Word)} (hb : FifoM body) : FifoOut (coreStep i body s) := by
  intro t e
  cases e
  exact State.runInsn_fifo hb h

omit h in
theorem next_fifo {t : State} (ht : t.ras.fifo.length ≤ 16) : FifoOut (.next t) := by
  intro u e
  cases e
  exact ht

theorem eventStep_fifo {ok : Bool} {f : State → State} (hf : (f s).ras.fifo.length ≤ 16) : FifoOut (eventStep ok f s) := by
  intro t e
  cases e
  split
  · exact hf
  · exact h

theorem groomStep_fifo {t : BitVec 2} {legal : Bool} {body : State → GThread → GOut}
    (hb : ∀ s1 u, s1.ras.fifo.length ≤ 16 → (body s1 u).Fifo) : FifoOut (groomStep t legal body s) :=
  eventStep_fifo h (State.runGroom_fifo h hb)

theorem mbRow_onCtx_fifo {m op : Nat} {f : Nat → State → State} (hf : ∀ c, (f c s).ras.fifo.length ≤ 16) :
    FifoOut (mbRow m op (fun s => s.onCtx m f) s) :=
  eventStep_fifo h (State.onCtx_fifo m h hf)

theorem apWriteCmd_fifo (who : Requester) (o : Nat) (ln : Lanes) (v : TVal) : FifoOut (apWriteCmd who o ln v s) :=
  eventStep_fifo h (State.apWriteBy_fifo _ _ _ _ _ h)

theorem apReadCmd_fifo (who : Requester) (o : Nat) (ln : Lanes) : FifoOut (apReadCmd who o ln s) :=
  eventStep_fifo h (State.apReadBy_fifo _ _ _ _ h)

theorem gApLoad_fifo (t d a : Nat) : (gApLoad t d a s).Fifo := by
  have hr := (State.apRead_ras s (.groom (BitVec.ofNat 2 t)) (gApOff a) (gApLane a)).symm ▸ h
  unfold gApLoad
  generalize s.apRead (.groom (BitVec.ofNat 2 t)) (gApOff a) (gApLane a) = r at hr ⊢
  obtain ⟨w, s1⟩ := r
  cases w with
  | none => trivial
  | some w => simpa using hr

/-! The kernel would evaluate the addresses of an access, down to numerals as large as 2^31, to compare an instruction applied to
its state with its body: the functions that take them are generalized first. -/

theorem gWinLoad_fifo (t d a n : Nat) : (gWinLoad t d a n s).Fifo := by
  generalize hf : gWinLoad t d a n = f
  delta gWinLoad at hf
  generalize State.xwinPa = xwinPa at hf
  subst hf
  dsimp -zeta -iota -proj only
  extract_lets pa
  have hr := State.unitRead_fifo s pa n none h
  generalize s.unitRead pa n none = r at hr ⊢
  split
  split
  · exact State.groomFault_fifo _ _ _ _ hr
  · rw [GOut.fifo_done, State.gHold_ras]; exact hr

theorem gLoad_fifo (t : BitVec 2) (d a : BitVec 4) (imm : BitVec 18) (n : Nat) (u : GThread) : (gLoad t d a imm n s u).Fifo := by
  obtain ⟨gctlRead, hctl⟩ : ∃ f, f = State.gctlRead := ⟨_, rfl⟩
  generalize hf : gLoad t d a imm n = f
  delta gLoad at hf
  rw [← hctl] at hf
  subst hf
  dsimp -zeta -iota -proj only
  extract_lets va
  split
  · exact GOut.fifo_fault _ _
  · split
    · split
      · rw [GOut.fifo_done, State.gWrite_ras]; exact h
      · exact GOut.fifo_fault _ _
    · exact gApLoad_fifo h _ _ _
    · exact gWinLoad_fifo h _ _ _ _
    · split
      · rw [GOut.fifo_hold]; exact State.gBadMet_fifo _ _ _ h
      · rw [GOut.fifo_done, State.gWrite_ras]; exact h

theorem gApStore_fifo (t a : Nat) (v : Half) : (gApStore t a v s).Fifo := by
  simp only [gApStore]
  generalize (if gApLane a = .hi then Word.ofNat (v.toNat * 2 ^ 32) else Word.ofNat v.toNat) = w
  have hw := State.apWrite_fifo s (.groom (BitVec.ofNat 2 t)) (gApOff a) (gApLane a) w false h
  generalize s.apWrite (.groom (BitVec.ofNat 2 t)) (gApOff a) (gApLane a) w false = r at hw ⊢
  split
  · simp
  · rw [GOut.fifo_done]
    split <;> simp [hw]

theorem gStoreInsn_fifo (t : BitVec 2) (d a : BitVec 4) (imm : BitVec 18) (n : Nat) (u : GThread) :
    (gStoreInsn t d a imm n s u).Fifo := by
  obtain ⟨gctlWrite, hctl⟩ : ∃ f, f = State.gctlWrite := ⟨_, rfl⟩
  have hras : ∀ off v, ∀ s1 ∈ gctlWrite s t.toNat off v, s1.ras = s.ras := fun off v => hctl ▸ State.gctlWrite_ras
  generalize hf : gStoreInsn t d a imm n = f
  delta gStoreInsn at hf
  rw [← hctl] at hf
  subst hf
  dsimp -zeta -iota -proj only
  extract_lets va v
  split
  · exact GOut.fifo_fault _ _
  · split
    · split
      · next hw => rw [GOut.fifo_done, hras _ _ _ hw]; exact h
      · exact GOut.fifo_fault _ _
    · exact gApStore_fifo h _ _ _
    · rw [GOut.fifo_done, State.gHold_ras]; exact State.unitWrite_fifo _ _ _ _ _ h
    · rw [GOut.fifo_done, State.gStore_ras]; exact h

theorem gIretBody_fifo (t : Nat) (u : GThread) : (gIretBody t s u).Fifo := by
  simp only [gIretBody]
  split
  · rw [GOut.fifo_hold]; exact State.gMachineCheck_fifo _ _ h
  · split
    · simp
    · simp [h]
    · split
      · rw [GOut.fifo_hold]; exact State.groomRestart_fifo _ _ _ (by simpa using h)
      · split
        · split
          · next hv => rw [GOut.fifo_hold]; exact State.gVectorBad_fifo (by simpa using h) hv
          · rw [GOut.fifo_jump, State.gChainTo_ras]
            split <;> simp [h]
        · rw [GOut.fifo_jump, State.gUnstack_ras]
          split <;> simp [h]

theorem exec_fifo (c : Instr) : FifoOut (exec c s) := by
  cases c with
  | add | sub | and | or | xor | sll | srl | sra | mul | mulh | mulhu | div | divu | rem | remu | min | max | minu |
  maxu | ceq | cne | clt | cltu | cle | cleu | addi | andi | ori | xori | slli | srli | srai | ceqi | clti | cltui |
  orsh | cmovnz | cmovz | faddD | fsubD | fmulD | fdivD | fsqrtD | fmaddD | fmsubD | fnmaddD | fminD | fmaxD | fabsD |
  fnegD | fceqD | fcltD | fcleD | fcunD | faddS | fsubS | fmulS | fdivS | fsqrtS | fmaddS | fmsubS | fnmaddS | fminS |
  fmaxS | fabsS | fnegS | fceqS | fcltS | fcleS | fcunS | fcvtDI | fcvtDIu | fcvtID | fcvtIuD | fcvtSI | fcvtSIu |
  fcvtIS | fcvtIuS | fcvtDS | fcvtSD | ldI8 | ldI8u | ldI16 | ldI16u | ldI32 | ldI32u | ldI | ldF32 | ldF64 | ldVa |
  ldBa | ldSh | ldSd | ldW | stI8 | stI16 | stI32 | stI | bz | bnz | fenceSt | ifence | tret | opaT | opaM | opkT | opkM
  | tld | tldScale | tst | tstScale | tzf | tdr | tdw | taw | tewQ | trunGo | trunGoAt =>
    apply coreStep_fifo h
    simp
  | movi | tagof | retag | mov | jal | jalr | fence | ssync | srd | swr | wait | yieldOp | keysw | ctxsvL | ctxsvU |
  srearm | sstat | scancel | brel | bqry | tzfRelease | tchk | tsync | tewR | tewD | trunLoad | trunStat =>
    apply coreStep_fifo h
    repeat' first
      | with_reducible refine fifoM_check ?_ ?_ | with_reducible refine fifoM_get_bind ?_ | with_reducible refine fifoM_bind ?_ ?_
      | with_reducible refine fifoM_ite ?_ ?_ | with_reducible refine fifoM_set ?_ | with_reducible refine fifoM_modify ?_
      | split | intro _
    all_goals simp [*]
  | saddleSwitch | runStart | runInsnStart | runReplay | runEnd | runTimingLimit | preemptSwitchOut | preemptSwitchBack
  | runPauseTaken | runAbandon | schedDecide | contextSwitch | timerFire | queuePortDoorbell | windowOpened |
  windowCloseComplete | gateInRise | gateRelease | gateTimeout | memPortResponse | snoopInvalidate | snoopRead |
  bufReadData | bufWriteAck | licenseeCommand | extTimeout | bridleReady | tackCommit | tackAutoSeal | fwloadGo |
  pllLock | pwrfailAssert | pwrfailSequenceEnd | pfDone | thermalSample | thermNAssert | ptelSample | pacingWindow |
  groomAccessResponse | groomInterruptEntry | groomMachineCheck | groomTimerExpiry | gateInFall | info | cfgDiscard |
  waymapRead | waymapClear | tackRead | tackWrite | gateCal | doorbell | qdone | windowOpen | windowClose | gateArrive |
  gateLoad | gateUnload | mbGo | mbAbort | grestart | tkRegWriteLow | tkRegWriteHigh | tkSeal | pmcClear | qtake |
  qtakeany =>
    apply eventStep_fifo h
    simp [h]
  | stallOverflow | sliceExpiry | streamRowDone | cfgStage | cfgCommitDeadline | cfgRead | rsvSetup =>
    apply eventStep_fifo h
    simp only
    repeat' split
    all_goals simp [h]
  | ctxldL d a b =>
    apply coreStep_fifo h
    refine fifoM_bind (contextOperands_fifo ..) fun p => fifoM_bind (loadable_fifo _) fun u => ?_
    refine fifoM_bind (areaParts_fifo ..) fun ps => fifoM_get_bind fun s1 h1 => ?_
    have hr := readAreaParts_fifo ps s1 h1
    generalize readAreaParts ps s1 = r at hr ⊢
    refine fifoM_bind (fifoM_set hr) fun _ => fifoM_ite (fun _ => by simp) fun _ => ?_
    refine fifoM_check holdFault_fifo fun _ => fifoM_bind (loadableCtx_fifo _) fun _ => ?_
    exact fifoM_bind (fifoM_modify fun s h => h) fun _ => fifoM_pure _
  | ctxldU d a b =>
    apply coreStep_fifo h
    refine fifoM_bind (contextOperands_fifo ..) fun p => fifoM_bind (loadable_fifo _) fun u => ?_
    split
    · exact fifoM_bind holdFault_fifo fun _ => fifoM_pure _
    · refine fifoM_bind (areaParts_fifo ..) fun ps => fifoM_get_bind fun s1 h1 => ?_
      have hr := readAreaParts_fifo ps s1 h1
      generalize readAreaParts ps s1 = r at hr ⊢
      refine fifoM_bind (fifoM_set hr) fun _ => fifoM_ite (fun _ => by simp) fun _ => ?_
      refine fifoM_check holdFault_fifo fun _ => fifoM_bind (loadableCtx_fifo _) fun _ => fifoM_get_bind fun s2 h2 => ?_
      exact fifoM_bind (fifoM_set h2) fun _ => fifoM_pure _
  | sarm d a b =>
    apply coreStep_fifo h
    refine fifoM_get_bind fun s1 h1 => fifoM_bind (checkTags_fifo _) fun _ => fifoM_check (fifoM_throw _) fun _ => ?_
    refine fifoM_bind (readDescriptor_fifo _) fun ds => fifoM_get_bind fun s2 h2 => ?_
    refine fifoM_ite (fun _ => fifoM_bind (fifoM_set h2) fun _ => fifoM_pure _) fun _ => ?_
    split
    · exact fifoM_bind (fifoM_set (by simp [h2])) fun _ => fifoM_pure _
    · exact fifoM_bind (fifoM_set h2) fun _ => fifoM_pure _
  | bdecl d a b =>
    apply coreStep_fifo h
    refine fifoM_get_bind fun s1 h1 => fifoM_bind (checkTags_fifo _) fun _ => fifoM_check (fifoM_throw _) fun _ => ?_
    refine fifoM_check (fifoM_throw _) fun _ => fifoM_check (fifoM_throw _) fun _ => fifoM_check (fifoM_throw _) fun _ => ?_
    split
    · exact fifoM_bind (fifoM_set h1) fun _ => fifoM_pure _
    · refine fifoM_ite (fun _ => fifoM_bind (fifoM_set h1) fun _ => fifoM_pure _) fun _ => ?_
      split
      · exact fifoM_bind (fifoM_set h1) fun _ => fifoM_pure _
      · exact fifoM_bind (fifoM_set h1) fun _ => fifoM_pure _
  | trap d a imm w =>
    show FifoOut (execTrap d a imm w s)
    unfold execTrap
    split
    · apply coreStep_fifo h
      simp
    · exact next_fifo h
  | gAdd | gSub | gAnd | gOr | gXor | gSll | gSrl | gSra | gSlt | gSltu | gMul | gMulhu | gAddi | gAndi | gOri | gXori | gSlti | gSltui
  | gLui | gSlli | gSrli | gSrai | gDiv | gDivu | gRem | gRemu | gJl | gWfi =>
    apply groomStep_fifo h
    intro s1 u h1
    simp [gAlu, gImm, gDivide, GOut.Fifo, h1]
  | gBz | gBnz =>
    apply groomStep_fifo h
    intro s1 u h1
    unfold gBranch
    split <;> exact h1
  | gJlr t d a imm =>
    apply groomStep_fifo h
    intro s1 u h1
    simp only
    split <;> simp [GOut.Fifo, h1]
  | gLdw | gLdhu | gLdbu =>
    apply groomStep_fifo h
    exact fun s1 u h1 => gLoad_fifo h1 ..
  | gStw | gSth | gStb =>
    apply groomStep_fifo h
    exact fun s1 u h1 => gStoreInsn_fifo h1 ..
  | gIret =>
    apply groomStep_fifo h
    exact fun s1 u h1 => gIretBody_fifo h1 ..
  | gSync t d a b w =>
    show FifoOut (execGSync t d a b w s)
    unfold execGSync
    split
    · exact next_fifo h
    · apply groomStep_fifo h
      exact fun s1 u h1 => by simp [h1]
  | ctxStart | runPause | runPark | runResume | runCancel | ctxQuery =>
    apply mbRow_onCtx_fifo h
    simp [h]
  | ctxStop | ctxRemove | alertPost =>
    apply mbRow_onCtx_fifo h
    intro c
    repeat' split
    all_goals simp [h]
  | ctxStopGraceEnd =>
    apply mbRow_onCtx_fifo h
    intro c
    simp only
    repeat' split
    all_goals simp [h]
  | tileInsnComplete sad hw =>
    apply eventStep_fifo h
    split
    · exact Perf.inline_fifo _ _ _ (by simp [h])
    · exact h
  | bufwaitExpiry | alertDelivery | stallFill | groomRestart | mailboxAccessRefused | cfgCommit | gatePoint | groomDivComplete =>
    apply eventStep_fifo h
    repeat' split
    all_goals simp [h]
  | hashDone =>
    apply eventStep_fifo h
    exact ite_fifo (fun _ => State.loadExtension_fifo _ h) fun _ => h
  | rcResponse tag =>
    apply eventStep_fifo h
    split
    · exact h
    · split
      · simp [h]
      · exact h
  | streamWatchdog c =>
    apply eventStep_fifo h
    exact foldl_fifo (fun s p h => State.stallSlot_fifo _ _ h) _ s h
  | streamDone eng slot status rows pchunks =>
    apply eventStep_fifo h
    simp only
    split <;> simp [h]
  | wayDisable cache way err =>
    have hw := State.wayError_fifo s cache way.toNat err h
    apply eventStep_fifo h
    split
    · exact h
    · split
      · next hr => rw [hr] at hw; exact State.disableWay_fifo _ _ _ hw
      · next hr => rw [hr] at hw; exact hw
  | iset t v =>
    apply eventStep_fifo h
    exact State.groomAccess_fifo _ _ _ _ h fun s1 hs => by cases hs; simp [h]
  | windowWrite w gen off data pz tag =>
    refine next_fifo (ite_fifo (fun _ => h) fun _ => ?_)
    exact State.windowWrite_fifo _ _ _ _ _ _ _ h
  | poresetAssert cut => exact next_fifo (State.assertReset_fifo _ _)
  | poresetRelease straps test => exact next_fifo (ite_fifo (fun _ => by simp [h]) fun _ => h)
  | licIrq n level => exact next_fifo h
  | wsBypass | wsExtest | wsIntest | wsScan | wsMbist => exact next_fifo (ite_fifo (fun _ => h) fun _ => h)
  | regWrite who space off lanes op =>
    cases space with
    | aperture =>
      cases op with
      | write v => exact apWriteCmd_fifo h _ _ _ _
      | read => exact apReadCmd_fifo h _ _ _
    | groomCtl =>
      apply eventStep_fifo h
      split
      · exact State.gctlBy_fifo _ _ _ _ h
      · exact h
    | bist =>
      apply eventStep_fifo h
      cases op <;> exact h
  | errAdv who =>
    have hc : ∀ b : Bool, (if b then s.copyHead else s).ras.fifo.length ≤ 16 := fun b =>
      ite_fifo (fun _ => State.copyHead_fifo s h) fun _ => h
    exact apWriteCmd_fifo (hc _) _ _ _ _

end

/-- Settles O58: every command keeps the bound, and so does the time that passes on an empty queue. -/
theorem errorFifoBound : Obligations.ErrorFifoBound := by
  unfold Obligations.ErrorFifoBound
  intro s t h hs
  cases hq : s.pending with
  | nil =>
    simp only [step, hq] at hs
    cases hs
    unfold FifoBound
    rw [State.idle_ras]
    exact h
  | cons c rest =>
    simp only [step, hq] at hs
    exact exec_fifo (s := { s with pending := rest }) h c t hs

end Sys2Proof.Machine
end

section
/-! PROOFS. The record that enters the error FIFO (R460, R461). -/

namespace Sys2Proof.Machine

section
variable {s t : State}

/-- An event reads and changes the core alone. -/
theorem raiseEvent_core (h : t.core = s.core) (c k : Nat) : (t.raiseEvent c k).core = (s.raiseEvent c k).core := by
  have hc : t.ctx c = s.ctx c := by simp only [State.ctx, h]
  simp only [State.raiseEvent, hc]
  split
  · simp only [State.setCtx, State.trigger, h]
  · exact h

theorem raiseAlert_core (h : t.core = s.core) (c b : Nat) : (t.raiseAlert c b).core = (s.raiseAlert c b).core := by
  have hm (f : Ctx → Ctx) : (t.modCtx c f).core = (s.modCtx c f).core := by
    simp only [State.modCtx, State.setCtx, State.ctx, h]
  have hc : t.ctx c = s.ctx c := by simp only [State.ctx, h]
  simp only [State.raiseAlert, hc]
  split
  · exact raiseEvent_core (hm _) c 6
  · exact h

theorem raiseAlert_groom (c b : Nat) : (s.raiseAlert c b).groom = s.groom := by
  simp only [State.raiseAlert, State.raiseEvent]
  split
  · split <;> rfl
  · rfl

end

/-- The FIFO with its counters after a record, whether it was kept or discarded. -/
theorem record_ras (s : State) (r : ErrRec) : (s.record r).ras =
    if s.ras.fifo.length < 16 then
      { s.ras with fifo := s.ras.fifo ++ [{ r with seq := s.ras.nextSeq, gstamp := s.gcount }], nextSeq := s.ras.nextSeq + 1 }
    else { s.ras with nextSeq := s.ras.nextSeq + 1, ovf := true,
                      lost := if s.ras.lost = 0xFFFFFFFF then s.ras.lost else s.ras.lost + 1 } := by
  simp only [State.record, apply_ite State.ras, State.raiseAlert_ras, ite_self]
  rfl

theorem record_groom (s : State) (r : ErrRec) :
    (s.record r).groom = if s.ras.fifo.length < 16 then s.groom else (s.pendGroom 33).groom := by
  simp only [State.record, apply_ite State.groom, raiseAlert_groom, ite_self]
  rfl

theorem record_core (s : State) (r : ErrRec) :
    (s.record r).core = if r.ctx = 0xFFFF then s.core else (s.raiseAlert r.ctx.toNat 1).core := by
  simp only [State.record]
  split
  · split <;> rfl
  · exact raiseAlert_core (by split <;> rfl) _ _

/-- Settles O57: the record is kept below 16 records, and discarded and counted at 16. -/
theorem recordsEnterTheFifo : Obligations.RecordsEnterTheFifo := by
  unfold Obligations.RecordsEnterTheFifo
  intro s r
  refine ⟨?_, fun h => ?_, fun h => ?_, record_core s r⟩
  · rw [record_ras]
    split <;> rfl
  · simp only [record_ras, record_groom, if_pos h, and_self]
  · simp only [record_ras, record_groom, if_neg (Nat.not_lt.mpr h), true_and]
    rfl

end Sys2Proof.Machine
end

section
/-! PROOFS. Little-endian numbers in byte tables, and the completion of a mailbox command (R421, R422). -/

namespace Sys2Proof.Machine

theorem leBytes_length (n v : Nat) : (leBytes n v).length = n := by
  induction n generalizing v with
  | zero => rfl
  | succ n ih => simp only [leBytes, List.length_cons, ih]

theorem leNat_leBytes (n v : Nat) : leNat (leBytes n v) = v % 256 ^ n := by
  induction n generalizing v with
  | zero => simp only [leBytes, leNat, Nat.pow_zero, Nat.mod_one]
  | succ n ih => rw [leBytes, leNat, ih, BitVec.toNat_ofNat, Nat.pow_succ' (m := 256), Nat.mod_mul]

theorem leNat_lt (bs : List Byte) : leNat bs < 256 ^ bs.length := by
  induction bs with
  | nil => exact Nat.one_pos
  | cons b bs ih =>
    have hb : b.toNat < 256 := b.isLt
    simp only [leNat, List.length_cons, Nat.pow_succ]
    omega

theorem leAt_lt (t : Tbl Byte) (a n : Nat) : t.leAt a n < 256 ^ n := by
  have h := leNat_lt ((List.range n).map fun i => Tbl.get 0 t (a + i))
  rwa [List.length_map, List.length_range] at h

/-- A byte table after bytes were written from address `a` on. -/
theorem get_foldl_put (bs : List Byte) (t : Tbl Byte) (a k j : Nat) :
    Tbl.get 0 ((bs.zipIdx k).foldl (fun t p => Tbl.put 0 t (a + p.2) p.1) t) j =
      if a + k ≤ j ∧ j < a + k + bs.length then bs.getD (j - (a + k)) 0 else Tbl.get 0 t j := by
  induction bs generalizing t k with
  | nil => rw [if_neg (by simp only [List.length_nil]; omega)]; rfl
  | cons b bs ih =>
    rw [List.zipIdx_cons, List.foldl_cons, ih]
    by_cases hj : j = a + k
    · subst hj
      rw [if_neg (by omega), if_pos (by simp only [List.length_cons]; omega), Tbl.get_put_same, Nat.sub_self]
      rfl
    · rw [Tbl.get_put_other _ _ _ hj]
      by_cases hr : a + (k + 1) ≤ j ∧ j < a + (k + 1) + bs.length
      · rw [if_pos hr, if_pos (by simp only [List.length_cons]; omega), show j - (a + k) = j - (a + (k + 1)) + 1 by omega,
          List.getD_cons_succ]
      · rw [if_neg hr, if_neg (by simp only [List.length_cons]; omega)]

/-- The number that lies between other bytes written to an empty table. -/
theorem leAt_written (pre mid post : List Byte) :
    Tbl.leAt (((pre ++ (mid ++ post)).zipIdx).foldl (fun t p => Tbl.put 0 t p.2 p.1) []) pre.length mid.length = leNat mid := by
  have hget (i : Nat) (hi : i < mid.length) :
      Tbl.get 0 (((pre ++ (mid ++ post)).zipIdx).foldl (fun t p => Tbl.put 0 t p.2 p.1) []) (pre.length + i) = mid[i] := by
    have h := get_foldl_put (pre ++ (mid ++ post)) [] 0 0 (pre.length + i)
    simp only [Nat.zero_add] at h
    rw [h, if_pos (by simp only [List.length_append]; omega), Nat.sub_zero, getD_append_after _ _ _ (by omega),
      Nat.add_sub_cancel_left, getD_append_before _ _ _ hi, getD_getElem _ _ hi]
  refine congrArg leNat (List.ext_getElem (by simp only [List.length_map, List.length_range]) fun i h1 h2 => ?_)
  rw [List.getElem_map, List.getElem_range, hget i h2]

section
variable (status opcode seq detail : Nat) (payload : List Byte)

theorem responseArea_status : (responseArea status opcode seq detail payload).leAt 0 2 = status % 65536 := by
  have h := leAt_written [] (leBytes 2 status) (leBytes 2 opcode ++ leBytes 4 seq ++ leBytes 2 payload.length ++
    leBytes 2 detail ++ leBytes 4 0 ++ payload)
  simpa only [responseArea, List.append_assoc, leNat_leBytes, leBytes_length, List.nil_append, List.length_nil,
    Nat.reducePow] using h

theorem responseArea_opcode : (responseArea status opcode seq detail payload).leAt 2 2 = opcode % 65536 := by
  have h := leAt_written (leBytes 2 status) (leBytes 2 opcode) (leBytes 4 seq ++ leBytes 2 payload.length ++
    leBytes 2 detail ++ leBytes 4 0 ++ payload)
  simpa only [responseArea, List.append_assoc, leNat_leBytes, leBytes_length,
    Nat.reduceAdd, Nat.reducePow] using h

theorem responseArea_length : (responseArea status opcode seq detail payload).leAt 8 2 = payload.length % 65536 := by
  have h := leAt_written (leBytes 2 status ++ leBytes 2 opcode ++ leBytes 4 seq) (leBytes 2 payload.length)
    (leBytes 2 detail ++ leBytes 4 0 ++ payload)
  simpa only [responseArea, List.append_assoc, List.length_append, leNat_leBytes, leBytes_length,
    Nat.reduceAdd, Nat.reducePow] using h

theorem responseArea_detail : (responseArea status opcode seq detail payload).leAt 10 2 = detail % 65536 := by
  have h := leAt_written (leBytes 2 status ++ leBytes 2 opcode ++ leBytes 4 seq ++ leBytes 2 payload.length)
    (leBytes 2 detail) (leBytes 4 0 ++ payload)
  simpa only [responseArea, List.append_assoc, List.length_append, leNat_leBytes, leBytes_length,
    Nat.reduceAdd, Nat.reducePow] using h

end

section
variable (s : State) (c n : Nat)

@[simp] theorem State.raiseEvent_mboxes : (s.raiseEvent c n).mboxes = s.mboxes := by
  simp only [State.raiseEvent]
  split <;> rfl

@[simp] theorem State.raiseAlert_mboxes : (s.raiseAlert c n).mboxes = s.mboxes := by
  simp only [State.raiseAlert]
  split
  · rw [State.raiseEvent_mboxes]; rfl
  · rfl

@[simp] theorem State.postAlert_mboxes : (s.postAlert c n).mboxes = s.mboxes := by
  simp only [State.postAlert]
  split
  · rw [State.raiseAlert_mboxes]; rfl
  · rfl

end

/-- The mailbox whose command completes. -/
theorem mbox_mbDone (s : State) (m status detail : Nat) (payload : List Byte) :
    (s.mbDone m status detail payload).mbox m =
      { s.mbox m with
        resp := responseArea status (s.mbox m).opcode ((s.mbox m).cmdAt 4 4) detail payload, st := .done,
        lastStat := BitVec.ofNat 16 status, doneCnt := (s.mbox m).doneCnt + 1, abortReq := false,
        irq := (s.mbox m).irq || decide (m < 8), held := false, waitFor := .fresh, since := 0 } := by
  refine (congrArg (fun t => Tbl.get Mailbox.empty t m) (?_ : _ = s.mboxes.set m _)).trans (Tbl.get_set_same ..)
  simp only [State.mbDone]
  split
  · split
    · exact State.postAlert_mboxes ..
    · rfl
  · rfl

/-- Settles O41: the fields of the mailbox that completed, with the response area read back. -/
theorem commandCompletion : Obligations.CommandCompletion := by
  unfold Obligations.CommandCompletion
  intro s m status detail payload hs hd hp b r
  have hr : r = _ := mbox_mbDone s m.toNat status detail payload
  have hop : b.opcode < 65536 := leAt_lt b.cmd 0 2
  clear_value r
  subst hr
  dsimp only
  refine ⟨rfl, (BitVec.toNat_ofNat ..).trans (Nat.mod_eq_of_lt hs), rfl, rfl, ?_, ?_, ?_, ?_, fun hm => ?_, rfl⟩
  · exact (responseArea_status ..).trans (Nat.mod_eq_of_lt hs)
  · exact (responseArea_opcode ..).trans (Nat.mod_eq_of_lt hop)
  · exact (responseArea_length ..).trans (Nat.mod_eq_of_lt (by omega))
  · exact (responseArea_detail ..).trans (Nat.mod_eq_of_lt hd)
  · simp only [hm, decide_true, Bool.or_true]

end Sys2Proof.Machine
end

section
/-! PROOFS. Fields of words (R8, R25), and KEYSW (R300). -/

namespace Sys2Proof

theorem Word.testBit_bits (w : Word) (h l i : Nat) : (w.bits h l).testBit i = (decide (i < h + 1 - l) && w.getLsbD (l + i)) := by
  rw [Word.bits, Nat.testBit_mod_two_pow, Nat.testBit_shiftRight, BitVec.testBit_toNat]

theorem Word.getLsbD_putBits (w : Word) {h l i : Nat} (v : Nat) (hi : i < 64) :
    (w.putBits h l v).getLsbD i = if l ≤ i ∧ i ≤ h then v.testBit (i - l) else w.getLsbD i := by
  have hm : (2 ^ (h + 1 - l) - 1).testBit (i - l) = decide (i - l < h + 1 - l) := Nat.testBit_two_pow_sub_one ..
  simp only [Word.putBits, BitVec.getLsbD_or, BitVec.getLsbD_and, BitVec.getLsbD_not, BitVec.getLsbD_ofNat,
    Nat.testBit_shiftLeft, Nat.testBit_and, hm, hi, decide_true, Bool.true_and]
  by_cases hr : l ≤ i ∧ i ≤ h
  · have : i - l < h + 1 - l := by omega
    simp only [hr, this, and_self, if_true, decide_true, Bool.and_true, Bool.true_and, Bool.not_true, Bool.and_false,
      Bool.false_or]
  · rw [if_neg hr]
    by_cases hl : l ≤ i
    · have : ¬ i - l < h + 1 - l := by omega
      simp only [hl, this, decide_true, decide_false, Bool.and_false, Bool.not_false, Bool.and_true, Bool.or_false]
    · simp only [hl, decide_false, Bool.false_and, Bool.not_false, Bool.and_true, Bool.or_false]

/-- A field inside the bits that were replaced. -/
theorem Word.bits_putBits_inside (w : Word) {h l h' l' : Nat} (v : Nat) (hl : l ≤ l') (hh : h' ≤ h) (h64 : h' < 64) :
    (w.putBits h l v).bits h' l' = v >>> (l' - l) % 2 ^ (h' + 1 - l') := by
  refine Nat.eq_of_testBit_eq fun i => ?_
  rw [Word.testBit_bits, Nat.testBit_mod_two_pow, Nat.testBit_shiftRight]
  by_cases hi : i < h' + 1 - l'
  · rw [Word.getLsbD_putBits w v (by omega), if_pos (by omega), show l' + i - l = l' - l + i by omega]
  · simp only [hi, decide_false, Bool.false_and]

/-- A field outside the bits that were replaced. -/
theorem Word.bits_putBits_outside (w : Word) {h l h' l' : Nat} (v : Nat) (ho : h < l' ∨ h' < l) :
    (w.putBits h l v).bits h' l' = w.bits h' l' := by
  refine Nat.eq_of_testBit_eq fun i => ?_
  rw [Word.testBit_bits, Word.testBit_bits]
  by_cases hi : i < h' + 1 - l'
  · by_cases h64 : l' + i < 64
    · rw [Word.getLsbD_putBits w v h64, if_neg (by omega)]
    · rw [BitVec.getLsbD_of_ge _ _ (by omega), BitVec.getLsbD_of_ge _ _ (by omega)]
  · simp only [hi, decide_false, Bool.false_and]

namespace Machine

theorem modify_bind {β : Type} (g : State → State) (f : Unit → M β) (s : State) : (modify g >>= f) s = f () (g s) := rfl

theorem set_bind {β : Type} (t : State) (f : Unit → M β) (s : State) : (set t >>= f) s = f () t := rfl

/-- A key of the word `w` whose halves hold sixteen keys each, after the half of `n` was replaced. -/
theorem bits_key_putBits (u : Word) (r : Nat) {n k : Nat} (hk : k < 32) :
    (u.putBits (32 * n + 31) (32 * n) r).bits (2 * k + 1) (2 * k) =
      if k / 16 = n then r >>> (2 * (k % 16)) % 4 else u.bits (2 * k + 1) (2 * k) := by
  by_cases h : k / 16 = n
  · rw [if_pos h, Word.bits_putBits_inside u r (by omega) (by omega) (by omega), show 2 * k - 32 * n = 2 * (k % 16) by omega,
      show 2 * k + 1 + 1 - 2 * k = 2 by omega, show 2 ^ 2 = 4 from rfl]
  · rw [if_neg h, Word.bits_putBits_outside u r (by omega)]

theorem rights_keysw (t : Stall) (w : Word) {key : Nat} (h : key < 64) :
    (t.keysw w).xctx.rights key =
      if key / 16 = w.toNat % 4 then w.toNat >>> (32 + 2 * (key % 16)) % 4 else t.xctx.rights key := by
  have hr : w.bits 63 32 >>> (2 * (key % 16)) % 4 = w.toNat >>> (32 + 2 * (key % 16)) % 4 := by
    have hw := w.isLt
    have e : w.bits 63 32 = w.toNat >>> 32 := Nat.mod_eq_of_lt (by rw [Nat.shiftRight_eq_div_pow]; omega)
    rw [e, Nat.shiftRight_add]
  have hsel : w.bits 1 0 = w.toNat % 4 := rfl
  have h4 : w.toNat % 4 < 4 := Nat.mod_lt _ (by decide)
  simp only [Stall.keysw, hsel]
  generalize w.toNat % 4 = n at h4 ⊢
  rw [← hr]
  obtain rfl | rfl | rfl | rfl : n = 0 ∨ n = 1 ∨ n = 2 ∨ n = 3 := by omega
  all_goals
    simp only [XCtx.rights, Stall.xctx]
    split
  · rw [bits_key_putBits _ _ (n := 0) ‹_›]
  · rw [if_neg (by omega)]
  · rw [bits_key_putBits _ _ (n := 1) ‹_›]
  · rw [if_neg (by omega)]
  · rw [if_neg (by omega)]
  · rw [bits_key_putBits _ _ (n := 0) (by omega), show (key - 32) % 16 = key % 16 by omega]
    exact ite_congr_iff (by omega) rfl rfl
  · rw [if_neg (by omega)]
  · rw [bits_key_putBits _ _ (n := 1) (by omega), show (key - 32) % 16 = key % 16 by omega]
    exact ite_congr_iff (by omega) rfl rfl

/-- Settles O17: the instruction replaces the keys by `Stall.keysw`, which changes one group of sixteen. -/
theorem keyswReplacesSixteenKeys : Obligations.KeyswReplacesSixteenKeys := by
  unfold Obligations.KeyswReplacesSixteenKeys
  intro a s s1 w hb ha
  refine ⟨coreStep_ok hb ?_, fun key hk => rights_keysw _ w hk⟩
  rw [get_bind, ha, bind_of_ok (checkNone_of_ne (by simp)), bind_of_ok (checkAccepted_of_ok (by simp [only])), modify_bind]
  rfl

end Machine
end Sys2Proof
end

section
/-! PROOFS. The order of tag faults and of POISON (R43 to R45). -/

namespace Sys2Proof.Machine

/-! ### What an instruction that propagates POISON does -/

section
variable {d : Reg} {os : List Opd} {res : Option TVal} {s : State} {o : Opd}

theorem propagating_tagNone (h : os.find? (fun o => o.v.tag = .none) = some o) :
    propagating d os res s = .error (.trap 0x40 o.field .none o.v.data) s := by
  have ht : o.v.tag = .none := by simpa using List.find?_some h
  have hc : checkNone os s = .error (.trap 0x40 o.field .none o.v.data) s := by
    simp only [checkNone, h, Opd.fault, ht]
    rfl
  exact bind_of_error hc

theorem propagating_poison (hn : ∀ o ∈ os, o.v.tag ≠ .none) (h : os.find? (fun o => o.v.tag = .poison) = some o) :
    propagating d os res s = .ok none (s.setReg d ⟨o.v.data, .poison⟩) := by
  unfold propagating
  rw [bind_of_ok (checkNone_of_ne hn), poisonOf, h]
  rfl

theorem propagating_tagMismatch (hv : ∀ o ∈ os, IsValue o.v.tag) (h : os.find? (fun o => !o.ok o.v.tag) = some o) :
    propagating d os res s = .error (o.fault 0x42) s := by
  have hc : checkAccepted os s = .error (o.fault 0x42) s := by
    simp only [checkAccepted, h]
    rfl
  unfold propagating
  rw [bind_of_ok (checkNone_of_ne fun o ho => (hv o ho).1), poisonOf_of_ne fun o ho => (hv o ho).2]
  exact bind_of_error hc

theorem propagating_noRow (ha : Accepted (o :: os)) : propagating d (o :: os) none s = .error (o.fault 0x42) s := by
  unfold propagating
  rw [bind_of_ok (checkNone_of_ne ha.ne_none), poisonOf_of_ne ha.ne_poison]
  exact (bind_of_ok (checkAccepted_of_ok ha.ok)).trans (bind_of_error rfl)

end

/-! ### Register forms of the integer group -/

/-- The positions of a two-operand instruction accept the tags that some row of its rule names there (R44). -/
def TagRule.Positions (rule : TagRule) (okA okB : Tag → Bool) : Prop :=
  (∀ t, okA t = true ↔ ∃ u, rule t u ≠ none) ∧ ∀ t, okB t = true ↔ ∃ u, rule u t ≠ none

/-- The ten tags, to decide statements about every tag. -/
def allTags : List Tag := [.none, .int, .vaddr, .baddr, .f64, .f32, .shape, .sdesc, .wide, .poison]

theorem mem_allTags (t : Tag) : t ∈ allTags := by
  cases t <;> decide

theorem any_row_iff {g : Tag → Option Tag} : (allTags.any fun u => (g u).isSome) = true ↔ ∃ u, g u ≠ none := by
  rw [List.any_eq_true]
  exact ⟨fun ⟨u, _, hu⟩ => ⟨u, Option.isSome_iff_ne_none.mp hu⟩, fun ⟨u, hu⟩ => ⟨u, mem_allTags u, Option.isSome_iff_ne_none.mpr hu⟩⟩

/-- `Positions` is a check over the ten tags. -/
theorem positions_of_tags {rule : TagRule} {okA okB : Tag → Bool}
    (h : (allTags.all fun t => okA t == (allTags.any fun u => (rule t u).isSome) &&
      okB t == (allTags.any fun u => (rule u t).isSome)) = true) : rule.Positions okA okB := by
  have ht := fun t => List.all_eq_true.mp h t (mem_allTags t)
  simp only [Bool.and_eq_true, beq_iff_eq] at ht
  exact ⟨fun t => (ht t).1 ▸ any_row_iff, fun t => (ht t).2 ▸ any_row_iff⟩

theorem positions_ruleInt : ruleInt.Positions (only .int) (only .int) := positions_of_tags (by decide)

theorem positions_ruleAdd : ruleAdd.Positions intOrAddr intOrAddr := positions_of_tags (by decide)

theorem positions_ruleSub : ruleSub.Positions intOrAddr intOrAddr := positions_of_tags (by decide)

theorem positions_ruleAnd : ruleAnd.Positions intOrAddr (only .int) := positions_of_tags (by decide)

theorem positions_ruleCmp : ruleCmp.Positions intOrAddr intOrAddr := positions_of_tags (by decide)

/-- Every register form of the integer group is a two-operand instruction by its rule of R42. -/
theorem exec_integerGroup {i : Instr} {d a b : Reg} (h : integerGroup i = some (d, a, b)) (s : State) :
    ∃ okA okB f, Machine.exec i s = coreStep i (binary d a b okA okB (integerRule i) f) s ∧
      (integerRule i).Positions okA okB := by
  unfold integerGroup at h
  split at h <;> simp only [Option.some.injEq, Prod.mk.injEq, reduceCtorEq] at h <;> obtain ⟨rfl, rfl, rfl⟩ := h
  case h_1 => exact ⟨_, _, _, rfl, positions_ruleAdd⟩
  case h_2 => exact ⟨_, _, _, rfl, positions_ruleSub⟩
  case h_3 => exact ⟨_, _, _, rfl, positions_ruleAnd⟩
  case h_20 | h_21 | h_22 | h_23 | h_24 | h_25 => exact ⟨_, _, _, rfl, positions_ruleCmp⟩
  all_goals exact ⟨_, _, _, rfl, positions_ruleInt⟩

section
variable {i : Instr} {d a b : Reg} {s s1 : State}

theorem integerGroup_none (h : integerGroup i = some (d, a, b)) (hb : Begins i s s1) :
    ((s1.reg a).tag = .none → Machine.exec i s = .next (Aborted i s s1 (.trap 0x40 2 .none (s1.reg a).data))) ∧
    ((s1.reg a).tag ≠ .none → (s1.reg b).tag = .none →
      Machine.exec i s = .next (Aborted i s s1 (.trap 0x40 3 .none (s1.reg b).data))) := by
  obtain ⟨okA, okB, f, he, -⟩ := exec_integerGroup h s
  constructor
  · intro ha
    exact he.trans (coreStep_error hb (propagating_tagNone (o := ⟨2, s1.reg a, okA⟩) (by simp [ha])))
  · intro ha hn
    exact he.trans (coreStep_error hb (propagating_tagNone (o := ⟨3, s1.reg b, okB⟩) (by simp [ha, hn])))

theorem integerGroup_poison (h : integerGroup i = some (d, a, b)) (hb : Begins i s s1) :
    ((s1.reg a).tag = .poison → (s1.reg b).tag ≠ .none →
      Machine.exec i s = .next (After s (s1.setReg d ⟨(s1.reg a).data, .poison⟩) none)) ∧
    ((s1.reg a).tag ≠ .none → (s1.reg a).tag ≠ .poison → (s1.reg b).tag = .poison →
      Machine.exec i s = .next (After s (s1.setReg d ⟨(s1.reg b).data, .poison⟩) none)) := by
  obtain ⟨okA, okB, f, he, -⟩ := exec_integerGroup h s
  constructor
  · intro ha hn
    exact he.trans (coreStep_ok hb (propagating_poison (o := ⟨2, s1.reg a, okA⟩) (by simp [ha, hn]) (by simp [ha])))
  · intro ha hp hn
    exact he.trans (coreStep_ok hb (propagating_poison (o := ⟨3, s1.reg b, okB⟩) (by simp [ha, hn]) (by simp [hp, hn])))

/-- R44: the mismatch is against b only where some row accepts the tag of a and none that of b. -/
theorem integerGroup_mismatch (h : integerGroup i = some (d, a, b)) (hb : Begins i s s1) {ta tb : Tag}
    (ha : (s1.reg a).tag = ta) (hbt : (s1.reg b).tag = tb) (va : IsValue ta) (vb : IsValue tb)
    (hr : integerRule i ta tb = none) :
    ((∃ u, integerRule i ta u ≠ none) → (∀ u, integerRule i u tb = none) →
      Machine.exec i s = .next (Aborted i s s1 (.trap 0x42 3 tb (s1.reg b).data))) ∧
    ((∀ u, integerRule i ta u = none) ∨ (∃ u, integerRule i u tb ≠ none) →
      Machine.exec i s = .next (Aborted i s s1 (.trap 0x42 2 ta (s1.reg a).data))) := by
  obtain ⟨okA, okB, f, he, hpA, hpB⟩ := exec_integerGroup h s
  subst ha hbt
  have hv : ∀ o ∈ [Opd.mk 2 (s1.reg a) okA, ⟨3, s1.reg b, okB⟩], IsValue o.v.tag := by simp [va, vb]
  have noB (h0 : ∀ u, integerRule i u (s1.reg b).tag = none) : okB (s1.reg b).tag = false := by
    simpa [h0] using hpB (s1.reg b).tag
  constructor
  · intro hA hB
    exact he.trans (coreStep_error hb (propagating_tagMismatch (o := ⟨3, s1.reg b, okB⟩) hv
      (by simp [(hpA _).mpr hA, noB hB])))
  · intro hAB
    refine he.trans (coreStep_error hb ?_)
    cases hA : okA (s1.reg a).tag with
    | false => exact propagating_tagMismatch (o := ⟨2, s1.reg a, okA⟩) hv (by simp [hA])
    | true =>
      have hB : okB (s1.reg b).tag = true := by
        obtain ⟨u, hu⟩ := (hpA _).mp hA
        obtain h0 | h1 := hAB
        · exact absurd (h0 u) hu
        · exact (hpB _).mpr h1
      have hn : (integerRule i (s1.reg a).tag (s1.reg b).tag).map (fun t => TVal.mk (f (s1.reg a).data (s1.reg b).data) t) = none := by
        rw [hr, Option.map_none]
      rw [binary, get_bind, hn]
      exact propagating_noRow (by simp [Accepted, va, vb, hA, hB])

end

/-! ### Immediate forms -/

/-- Every immediate form is a one-operand instruction by its rule of R42 against INT (R66). -/
theorem exec_immediateGroup {i : Instr} {d a : Reg} {r : TagRule} (h : immediateGroup i = some (d, a, r)) (s : State) :
    ∃ imm okA f, Machine.exec i s = coreStep i (withImm d a imm okA r f) s := by
  unfold immediateGroup at h
  split at h <;> simp only [Option.some.injEq, Prod.mk.injEq, reduceCtorEq] at h <;> obtain ⟨rfl, rfl, rfl⟩ := h <;>
    exact ⟨_, _, _, rfl⟩

theorem immediateGroup_tagOrder {i : Instr} {d a : Reg} {r : TagRule} {s s1 : State} {v : TVal}
    (h : immediateGroup i = some (d, a, r)) (hb : Begins i s s1) (hv : s1.reg a = v) :
    (v.tag = .none → Machine.exec i s = .next (Aborted i s s1 (.trap 0x40 2 .none v.data))) ∧
    (v.tag = .poison → Machine.exec i s = .next (After s (s1.setReg d v) none)) ∧
    (v.tag ≠ .none → v.tag ≠ .poison → r v.tag .int = none →
      Machine.exec i s = .next (Aborted i s s1 (.trap 0x42 2 v.tag v.data))) := by
  obtain ⟨imm, okA, f, he⟩ := exec_immediateGroup h s
  subst hv
  refine ⟨fun hn => ?_, fun hp => ?_, fun hn hp hr => ?_⟩
  · exact he.trans (coreStep_error hb (propagating_tagNone (o := ⟨2, s1.reg a, okA⟩) (by simp [hn])))
  · have hv : TVal.mk (s1.reg a).data .poison = s1.reg a := by rw [← hp]
    rw [← hv]
    exact he.trans (coreStep_ok hb (propagating_poison (o := ⟨2, s1.reg a, okA⟩) (by simp [hp]) (by simp [hp])))
  · refine he.trans (coreStep_error hb ?_)
    cases hA : okA (s1.reg a).tag with
    | false => exact propagating_tagMismatch (o := ⟨2, s1.reg a, okA⟩) (by simp [IsValue, hn, hp]) (by simp [hA])
    | true =>
      rw [withImm, get_bind, hr]
      exact propagating_noRow (by simp [Accepted, IsValue, hn, hp, hA])

/-! ### Floating point and conversions -/

/-- The operands of `floatGroup` as they are checked in a state. -/
def State.operands (s : State) (os : List (Nat × Reg × Tag)) : List Opd :=
  os.map fun o => ⟨o.1, s.reg o.2.1, only o.2.2⟩

theorem exec_floatGroup {i : Instr} {d : Reg} {os : List (Nat × Reg × Tag)} (h : floatGroup i = some (d, os)) (s : State) :
    ∃ f : State → TVal, Machine.exec i s =
      coreStep i (get >>= fun t => propagating d (t.operands os) (some (f t))) s := by
  unfold floatGroup at h
  split at h <;> simp only [Option.some.injEq, Prod.mk.injEq, reduceCtorEq] at h <;> obtain ⟨rfl, rfl⟩ := h <;>
    exact ⟨_, rfl⟩

/-- The first operand of a form whose register has a property is the first checked one whose value has it. -/
theorem find_operands {p : Opd → Bool} {os : List (Nat × Reg × Tag)} {s : State} {o : Nat × Reg × Tag}
    (h : os.find? (fun o => p ⟨o.1, s.reg o.2.1, only o.2.2⟩) = some o) :
    (s.operands os).find? p = some ⟨o.1, s.reg o.2.1, only o.2.2⟩ := by
  rw [State.operands, List.find?_map]
  exact congrArg (Option.map _) h

theorem floatGroup_tagOrder {i : Instr} {d : Reg} {os : List (Nat × Reg × Tag)} {s s1 : State}
    (h : floatGroup i = some (d, os)) (hb : Begins i s s1) (o : Nat × Reg × Tag) :
    (os.find? (fun o => (s1.reg o.2.1).tag = .none) = some o →
      Machine.exec i s = .next (Aborted i s s1 (.trap 0x40 o.1 .none (s1.reg o.2.1).data))) ∧
    ((∀ o ∈ os, (s1.reg o.2.1).tag ≠ .none) → os.find? (fun o => (s1.reg o.2.1).tag = .poison) = some o →
      Machine.exec i s = .next (After s (s1.setReg d ⟨(s1.reg o.2.1).data, .poison⟩) none)) ∧
    ((∀ o ∈ os, IsValue (s1.reg o.2.1).tag) → os.find? (fun o => (s1.reg o.2.1).tag ≠ o.2.2) = some o →
      Machine.exec i s = .next (Aborted i s s1 (.trap 0x42 o.1 (s1.reg o.2.1).tag (s1.reg o.2.1).data))) := by
  obtain ⟨f, he⟩ := exec_floatGroup h s
  refine ⟨fun hf => ?_, fun hn hf => ?_, fun hv hf => ?_⟩
  · exact he.trans (coreStep_error hb ((get_bind _ s1).trans
      (propagating_tagNone (find_operands (p := fun o => o.v.tag = .none) hf))))
  · exact he.trans (coreStep_ok hb ((get_bind _ s1).trans
      (propagating_poison (List.forall_mem_map.mpr hn) (find_operands (p := fun o => o.v.tag = .poison) hf))))
  · have hm : os.find? (fun o => !only o.2.2 (s1.reg o.2.1).tag) = some o := by simpa [only] using hf
    exact he.trans (coreStep_error hb ((get_bind _ s1).trans
      (propagating_tagMismatch (List.forall_mem_map.mpr hv) (find_operands (p := fun o => !o.ok o.v.tag) hm))))

/-- Settles O7: the three groups, each by what an instruction that propagates POISON does. -/
theorem tagFaultAndPoisonOrder : Obligations.TagFaultAndPoisonOrder := by
  unfold Obligations.TagFaultAndPoisonOrder
  refine ⟨fun i d a b s s1 h hb => ?_, fun i d a r s s1 v h hb hv => immediateGroup_tagOrder h hb hv, ?_⟩
  · obtain ⟨n1, n2⟩ := integerGroup_none h hb
    obtain ⟨p1, p2⟩ := integerGroup_poison h hb
    exact ⟨n1, n2, p1, p2, fun ta tb ha hbt na pa nb pb hr => integerGroup_mismatch h hb ha hbt ⟨na, pa⟩ ⟨nb, pb⟩ hr⟩
  · intro i d os s s1 h hb tag data
    have ho := floatGroup_tagOrder h hb
    exact ⟨fun o => (ho o).1, fun hn o => (ho o).2.1 hn, fun hv o => (ho o).2.2 hv⟩

end Sys2Proof.Machine
end

section
/-! PROOFS. What the fetch of an instruction changes (R75, R293, R312 to R316), and the errors that its operands meet (R451). -/

namespace Sys2Proof.Machine

/-! ### Port requests of the memory access ports -/

theorem State.maLines_ma (s : State) (op : Nat) (ls : List Nat) (wd : List (Nat × Byte)) (wp : List Nat) :
    ∃ ma, s.maLines op ls wd wp = { s with ports := { s.ports with ma := ma } } := by
  cases ls
  · exact ⟨s.ports.ma, rfl⟩
  · exact ⟨_, rfl⟩

theorem State.writeBack_ma (s : State) (l : Nat) : ∃ ma, s.writeBack l = { s with ports := { s.ports with ma := ma } } :=
  s.maLines_ma 2 [l] _ _

/-! ### States that differ by fetches alone -/

/-- A state that differs from `s` only in what a fetch may change: the TLB, the caches, the count of performance, the count
of free choices and the requests on the memory access ports. -/
def Fetched (s t : State) : Prop :=
  ∃ tlb caches pmc free ma,
    t = { s with core := { s.core with tlb := tlb }, caches := caches, pmc := pmc, free := free, ports := { s.ports with ma := ma } }

section
variable {s t u : State}

theorem Fetched.refl (s : State) : Fetched s s := ⟨_, _, _, _, _, rfl⟩

theorem Fetched.trans (h : Fetched s t) (h' : Fetched t u) : Fetched s u := by
  obtain ⟨_, _, _, _, _, rfl⟩ := h
  obtain ⟨_, _, _, _, _, rfl⟩ := h'
  exact ⟨_, _, _, _, _, rfl⟩

theorem Fetched.of_ma (h : ∃ ma, t = { s with ports := { s.ports with ma := ma } }) : Fetched s t := by
  obtain ⟨_, rfl⟩ := h
  exact ⟨_, _, _, _, _, rfl⟩

theorem Fetched.sameOutside (h : Fetched s t) : SameOutside s t := by
  obtain ⟨_, _, _, _, _, rfl⟩ := h
  exact rfl

theorem Fetched.core (h : Fetched s t) : { t.core with tlb := s.core.tlb } = s.core := by
  obtain ⟨_, _, _, _, _, rfl⟩ := h
  exact rfl

theorem Fetched.stall (h : Fetched s t) (k : Nat) : t.stall k = s.stall k := by
  obtain ⟨_, _, _, _, _, rfl⟩ := h
  exact rfl

theorem Fetched.ctx (h : Fetched s t) (n : Nat) : t.ctx n = s.ctx n := by
  obtain ⟨_, _, _, _, _, rfl⟩ := h
  exact rfl

theorem Fetched.curStall (h : Fetched s t) : t.curStall = s.curStall := by
  obtain ⟨_, _, _, _, _, rfl⟩ := h
  exact rfl

theorem Fetched.curCtx (h : Fetched s t) : t.curCtx = s.curCtx := by
  obtain ⟨_, _, _, _, _, rfl⟩ := h
  exact rfl

theorem Fetched.mem (h : Fetched s t) : t.mem = s.mem := by
  obtain ⟨_, _, _, _, _, rfl⟩ := h
  exact rfl

end

theorem pmcAdd_fetched (s : State) (n k : Nat) : Fetched s (s.pmcAdd n k) := by
  unfold State.pmcAdd
  split <;> exact ⟨_, _, _, _, _, rfl⟩

theorem foldl_fetched {α : Type} {f : State → α → State} (h : ∀ s x, Fetched s (f s x)) (xs : List α) (s : State) :
    Fetched s (xs.foldl f s) := by
  induction xs generalizing s with
  | nil => exact Fetched.refl s
  | cons x xs ih => exact (h s x).trans (ih (f s x))

theorem putCaches_fetched (s : State) (c : Caches) (d : Option Nat) : Fetched s (s.putCaches c d) :=
  Fetched.trans (t := { s with caches := _ }) ⟨_, _, _, _, _, rfl⟩
    (foldl_fetched (fun s l => .of_ma (s.writeBack_ma l)) _ _)

theorem cacheAccess_fetched (s : State) (k : CacheId) (line : Nat) (w st : Bool) :
    Fetched s (s.cacheAccess k line w st).2 := by
  simp only [State.cacheAccess]
  split
  · exact (putCaches_fetched ..).trans ((Fetched.of_ma (State.maLines_ma ..)).trans (pmcAdd_fetched ..))
  · exact putCaches_fetched ..

/-! ### Translation -/

/-- Run in `s`, where `m` succeeds it leaves what fetches leave. -/
structure FetchesIn {α : Type} (s : State) (m : M α) : Prop where
  of_ok : ∀ x t, m s = .ok x t → Fetched s t

/-- A sequence succeeds only where both of its parts do. -/
theorem bind_eq_ok {α β : Type} {m : M α} {f : α → M β} {s u : State} {y : β} (h : (m >>= f) s = .ok y u) :
    ∃ x t, m s = .ok x t ∧ f x t = .ok y u := by
  cases hm : m s with
  | ok x t => exact ⟨x, t, rfl, (bind_of_ok hm).symm.trans h⟩
  | error e t => rw [bind_of_error hm] at h; cases h

section
variable {α β : Type} {s : State} {m : M α} {f : α → M β}

theorem fetchesIn_pure (x : α) : FetchesIn s (pure x : M α) := ⟨fun _ _ h => by cases h; exact Fetched.refl s⟩

theorem fetchesIn_throw (a : Abort) : FetchesIn s (throw a : M α) := ⟨fun _ _ h => by cases h⟩

theorem fetchesIn_trap (code : Nat) (v : Word) : FetchesIn s (trapM code v : M α) := ⟨fun _ _ h => by cases h⟩

theorem fetchesIn_set {t : State} (h : Fetched s t) : FetchesIn s (set t : M PUnit) := ⟨fun _ _ e => by cases e; exact h⟩

theorem fetchesIn_bind (hm : FetchesIn s m) (hf : ∀ x t, m s = .ok x t → FetchesIn t (f x)) : FetchesIn s (m >>= f) := by
  refine ⟨fun y u h => ?_⟩
  obtain ⟨x, t, h1, h2⟩ := bind_eq_ok h
  exact (hm.of_ok x t h1).trans ((hf x t h1).of_ok y u h2)

theorem fetchesIn_get {f : State → M β} (hf : FetchesIn s (f s)) : FetchesIn s (get >>= f) := ⟨fun y u h => hf.of_ok y u h⟩

/-- A check that throws where `c` holds. -/
theorem fetchesIn_check {c : Prop} [Decidable c] {n : M PUnit} {f : PUnit → M α} (hn : FetchesIn s (n >>= f))
    (hf : FetchesIn s (f ⟨⟩)) : FetchesIn s (if c then n >>= f else f ⟨⟩) := by
  split
  · exact hn
  · exact hf

theorem fetchesIn_trap_bind {f : PUnit → M β} (code : Nat) (v : Word) : FetchesIn s (trapM code v >>= f) :=
  ⟨fun _ _ h => by cases h⟩

end

theorem lookup_fetches (s : State) (x : XCtx) (kind : Kind) (va : Word) (c : Option Nat) :
    FetchesIn s (lookup x kind false va c) := by
  unfold lookup
  refine fetchesIn_get ?_
  dsimp only
  split
  · exact fetchesIn_pure _
  · exact fetchesIn_bind (fetchesIn_set ⟨_, _, _, _, _, rfl⟩) fun _ _ _ => fetchesIn_pure _
  · split
    · split
      · exact ⟨fun _ _ h => by cases h⟩
      · exact fetchesIn_trap ..
    · exact fetchesIn_bind (fetchesIn_set ⟨_, _, _, _, _, rfl⟩) fun _ _ _ => fetchesIn_pure _

theorem translate_fetches (s : State) (x : XCtx) (kind : Kind) (va : Word) (c : Option Nat) :
    FetchesIn s (translate x kind false va c) := by
  unfold translate
  refine fetchesIn_check (fetchesIn_trap_bind ..) (fetchesIn_bind (lookup_fetches ..) fun e t _ => ?_)
  refine fetchesIn_check (fetchesIn_trap_bind ..) (fetchesIn_check (fetchesIn_trap_bind ..)
    (fetchesIn_check (fetchesIn_trap_bind ..) (fetchesIn_get ?_)))
  exact fetchesIn_check (fetchesIn_trap_bind ..) (fetchesIn_pure _)

theorem translateCur_fetches (s : State) (kind : Kind) (va : Word) : FetchesIn s (translateCur kind false va) :=
  fetchesIn_get (translate_fetches ..)

/-! ### The fetch -/

/-- A read of MEMORY that delivers no poison changes what a fetch may change. -/
theorem memRead_fetched {s : State} {k : CacheId} {pa n : Nat} {st : Bool} {c : Option Nat}
    (h : (s.memRead k pa n st c).1.poison = false) :
    Fetched s (s.memRead k pa n st c).2 ∧ (s.memRead k pa n st c).1.portChunks = [] := by
  unfold State.memRead at h ⊢
  split at h
  · cases h
  · next hl =>
    rw [if_neg hl]
    have hb : (chunksOf pa n).filter s.mem.store.mark = [] := by simpa using h
    refine ⟨cacheAccess_fetched .., ?_⟩
    dsimp only
    rw [hb, List.map_nil, ite_self]

theorem fetchCheck_fetches (s : State) : FetchesIn s fetchCheck := by
  unfold fetchCheck
  refine fetchesIn_get (fetchesIn_bind (translateCur_fetches ..) fun p t _ => fetchesIn_get ⟨fun y u h => ?_⟩)
  generalize hr : t.memRead .l1i p.2 4 false t.curCtx = r at h
  dsimp only at h
  rw [set_bind] at h
  cases hp : r.1.poison with
  | true =>
    rw [if_pos hp] at h
    cases h
  | false =>
    obtain ⟨hf, hc⟩ := memRead_fetched (hr ▸ hp)
    rw [hr] at hf hc
    rw [if_neg (by simp [hp]), hc] at h
    cases h
    exact hf

/-- Settles O2: the fetch is followed by the check of legality, which changes nothing, and by the errors that are met. -/
theorem fetchChangesOnlyCachesAndTlb : Obligations.FetchChangesOnlyCachesAndTlb := by
  unfold Obligations.FetchChangesOnlyCachesAndTlb
  intro i s s1 h
  have hl := issued_legal h
  refine ⟨hl, ?_⟩
  unfold State.issued at h
  split at h
  case h_2 => cases h
  next t hi =>
    cases h
    unfold issueChecks at hi
    obtain ⟨_, s', hf, h2⟩ := bind_eq_ok hi
    have hs := (fetchCheck_fetches s).of_ok _ _ hf
    rw [if_neg (by simp [hl])] at h2
    cases h2
    refine ⟨s', hf, hs.sameOutside, hs.core, by dsimp only; rw [hs.curStall], fun hn => ?_⟩
    have hu : (s'.stall (s'.curStall.getD 31)).upset.filter (fun p => (regsRead i).contains p.1) = [] := by
      rw [hs.curStall, hs.stall]
      simpa [Sound, State.cur] using hn
    simp only [State.meetUpset, hu, List.foldl_nil]

end Sys2Proof.Machine
end

section
/-! PROOFS. The frame of the instructions that write one register (R42 to R72). -/

namespace Sys2Proof.Machine

/-! ### Errors met leave the dispatch as it is (R451) -/

section
variable (s : State)

theorem raiseEvent_disp (c k : Nat) : (s.raiseEvent c k).core.disp = s.core.disp := by
  simp only [State.raiseEvent]
  split <;> rfl

theorem stall_ctx_setCtx {s : State} {n : Nat} {e : Ctx} (h : e.stall = (s.ctx n).stall) (c : Nat) :
    ((s.setCtx n e).ctx c).stall = (s.ctx c).stall := by
  by_cases hc : c = n
  · rw [hc, State.ctx_setCtx, h]
  · rw [State.ctx_setCtx_other s e hc]

theorem stall_ctx_raiseEvent (n k c : Nat) : ((s.raiseEvent n k).ctx c).stall = (s.ctx c).stall := by
  simp only [State.raiseEvent]
  split
  · refine stall_ctx_setCtx ?_ c
    split <;> rfl
  · rfl

theorem raiseAlert_dispatch (n b : Nat) :
    (s.raiseAlert n b).core.disp = s.core.disp ∧ ∀ c, ((s.raiseAlert n b).ctx c).stall = (s.ctx c).stall := by
  unfold State.raiseAlert
  split
  · refine ⟨raiseEvent_disp _ _ _, fun c => (stall_ctx_raiseEvent _ _ _ c).trans ?_⟩
    exact stall_ctx_setCtx (s := s) (n := n) (e := { s.ctx n with alert := (s.ctx n).alert.putBit b true }) rfl c
  · exact ⟨rfl, fun _ => rfl⟩

/-- A record leaves what is dispatched as it is. -/
theorem record_dispatch (r : ErrRec) :
    (s.record r).core.disp = s.core.disp ∧ ∀ c, ((s.record r).ctx c).stall = (s.ctx c).stall := by
  simp only [State.ctx, record_core]
  split
  · exact ⟨rfl, fun _ => rfl⟩
  · exact raiseAlert_dispatch s _ 1

theorem meetUpset_dispatch (k : Nat) (rs : List Nat) :
    (s.meetUpset k rs).core.disp = s.core.disp ∧ ∀ c, ((s.meetUpset k rs).ctx c).stall = (s.ctx c).stall := by
  unfold State.meetUpset
  refine foldl_keeps (P := fun t : State => t.core.disp = s.core.disp ∧ ∀ c, (t.ctx c).stall = (s.ctx c).stall)
    (fun t p ht => ?_) _ s ⟨rfl, fun _ => rfl⟩
  obtain ⟨h1, h2⟩ := record_dispatch (t.modStall k fun t => { t with upset := t.upset.del p.1 })
    (.ecc p.2 0x102 4 1 (t.resident k))
  exact ⟨h1.trans ht.1, fun c => (h2 c).trans (ht.2 c)⟩

end

theorem curStall_eq_of_dispatch {s t : State} (h : t.core.disp = s.core.disp) (hc : ∀ c, (t.ctx c).stall = (s.ctx c).stall) :
    t.curStall = s.curStall := by
  simp only [State.curStall, h, hc]

/-! ### Retirement of an instruction that wrote one register -/

section
variable {s t : State} {k : Nat} {d : Reg}

theorem registerFrame_refl (s : State) (k : Nat) (d : Reg) : RegisterFrame s s k d :=
  ⟨rfl, rfl, fun _ _ => rfl, ⟨rfl, fun _ _ => rfl, .inl rfl⟩, fun _ => rfl, fun _ => rfl⟩

/-- A change of the pc, of register `d` and of the error that `d` holds, alone. -/
theorem registerFrame_of_setStall {u : Stall} (h : Stall.sameBut d u (s.stall k)) : RegisterFrame s (s.setStall k u) k d := by
  refine ⟨rfl, rfl, fun j hj => Tbl.get_set_other _ _ _ hj, ?_, fun _ => rfl, fun _ => rfl⟩
  rw [State.stall_setStall]
  exact h

theorem Stall.sameBut_setReg (u : Stall) (d : Reg) (v : TVal) : Stall.sameBut d (u.setReg d.toNat v) u := by
  unfold Stall.setReg
  split
  · exact ⟨rfl, fun _ _ => rfl, .inl rfl⟩
  · refine ⟨rfl, fun r hr => ?_, .inr rfl⟩
    simp only [Stall.reg, Tbl.get_set_other _ _ _ hr]

theorem registerFrame_setReg (hk : s.curStall = some k) (v : TVal) : RegisterFrame s (s.setReg d v) k d := by
  rw [State.setReg, State.modCur, hk]
  exact registerFrame_of_setStall (Stall.sameBut_setReg _ _ _)

theorem registerFrame_pmcAdd (h : RegisterFrame s t k d) (n m : Nat) : RegisterFrame s (t.pmcAdd n m) k d := by
  unfold State.pmcAdd
  split
  · exact h
  · exact h

theorem registerFrame_setPc (h : RegisterFrame s t k d) (pc : Word) :
    RegisterFrame s (t.modStall k fun u => { u with pc := pc }) k d := by
  obtain ⟨ho, hc, hs, ⟨hb, hr, hu⟩, hx, hm⟩ := h
  refine ⟨ho, hc, fun j hj => (Tbl.get_set_other _ _ _ hj).trans (hs j hj), ?_, hx, hm⟩
  rw [State.modStall, State.stall_setStall]
  exact ⟨hb, hr, hu⟩

theorem registerFrame_endWait (h : RegisterFrame s t k d) (n : Nat) :
    RegisterFrame s (t.modCtx n fun e => { e with waitAt := none }) k d := by
  obtain ⟨ho, hc, hs, hb, hx, hm⟩ := h
  refine ⟨ho, hc, hs, hb, fun c => ?_, hm⟩
  by_cases hn : c = n
  · subst hn
    rw [State.modCtx, State.ctx_setCtx]
    exact hx c
  · rw [State.modCtx, State.ctx_setCtx_other _ _ hn]
    exact hx c

theorem registerFrame_retire (h : RegisterFrame s t k d) (n : Option Nat) (pc : Word) :
    RegisterFrame s (t.retire k n pc) k d := by
  unfold State.retire
  split
  · exact registerFrame_setPc (registerFrame_pmcAdd h 1 1) pc
  · dsimp only
    split
    · exact registerFrame_endWait (registerFrame_setPc (registerFrame_pmcAdd h 1 1) pc) _
    · exact registerFrame_pmcAdd h 1 1

/-- The frame of an instruction holds from before its fetch. -/
theorem registerFrame_of_fetched {u : State} (hf : Fetched s u) (h : RegisterFrame u t k d) : RegisterFrame s t k d := by
  obtain ⟨ho, hc, hs, hb, hx, hm⟩ := h
  obtain ⟨tlb, caches, pmc, free, ma, rfl⟩ := hf
  refine ⟨?_, ?_, hs, hb, hx, hm⟩
  · have h1 := congrArg (fun x : State => { x with
      core := s.core, caches := s.caches, pmc := s.pmc, free := s.free, ports := { x.ports with ma := s.ports.ma } }) ho
    exact h1
  · have h1 := congrArg (fun x : Core => { x with tlb := s.core.tlb }) hc
    exact h1

end

/-! ### Instructions that write one register -/

/-- The meaning of an instruction leaves the state as it is, writes register `d`, or traps. -/
structure WritesOnly (d : Reg) (body : M (Option Word)) : Prop where
  run : ∀ s, (∃ npc t, body s = .ok npc t ∧ (t = s ∨ ∃ v, t = s.setReg d v)) ∨
    ∃ code f tag v, body s = .error (.trap code f tag v) s

/-- A check of operands succeeds or traps, and changes nothing. -/
def ChecksOnly (m : M Unit) : Prop := ∀ s, m s = .ok () s ∨ ∃ code f tag v, m s = .error (.trap code f tag v) s

theorem checkNone_checksOnly (os : List Opd) : ChecksOnly (checkNone os) := by
  unfold checkNone
  split
  · exact fun _ => .inr ⟨_, _, _, _, rfl⟩
  · exact fun _ => .inl rfl

theorem checkPoison_checksOnly (os : List Opd) : ChecksOnly (checkPoison os) := by
  unfold checkPoison
  split
  · exact fun _ => .inr ⟨_, _, _, _, rfl⟩
  · exact fun _ => .inl rfl

theorem checkAccepted_checksOnly (os : List Opd) : ChecksOnly (checkAccepted os) := by
  unfold checkAccepted
  split
  · exact fun _ => .inr ⟨_, _, _, _, rfl⟩
  · exact fun _ => .inl rfl

section
variable {d : Reg}

theorem checksOnly_bind {m : M Unit} {f : Unit → M Unit} (hm : ChecksOnly m) (hf : ChecksOnly (f ())) :
    ChecksOnly (m >>= f) := by
  intro s
  obtain h | ⟨code, fld, tag, v, h⟩ := hm s
  · rw [bind_of_ok h]
    exact hf s
  · exact .inr ⟨_, _, _, _, bind_of_error h⟩

theorem writesOnly_check {m : M Unit} {f : Unit → M (Option Word)} (hm : ChecksOnly m) (hf : WritesOnly d (f ())) :
    WritesOnly d (m >>= f) := by
  refine ⟨fun s => ?_⟩
  obtain h | ⟨code, fld, tag, v, h⟩ := hm s
  · rw [bind_of_ok h]
    exact hf.run s
  · exact .inr ⟨_, _, _, _, bind_of_error h⟩

theorem writesOnly_get {f : State → M (Option Word)} (hf : ∀ t, WritesOnly d (f t)) : WritesOnly d (get >>= f) :=
  ⟨fun s => (hf s).run s⟩

theorem writesOnly_pure (npc : Option Word) : WritesOnly d (pure npc) := ⟨fun s => .inl ⟨npc, s, rfl, .inl rfl⟩⟩

theorem writesOnly_modify (v : TVal) (npc : Option Word) :
    WritesOnly d (modify (fun s => s.setReg d v) >>= fun _ => pure npc) :=
  ⟨fun _ => .inl ⟨npc, _, rfl, .inr ⟨v, rfl⟩⟩⟩

/-- A write of a value that is read from the state. -/
theorem writesOnly_set (v : State → TVal) (npc : State → Option Word) :
    WritesOnly d (get >>= fun s => set (s.setReg d (v s)) >>= fun _ => pure (npc s)) :=
  ⟨fun s => .inl ⟨npc s, _, rfl, .inr ⟨v s, rfl⟩⟩⟩

theorem writesOnly_propagating (os : List Opd) (res : Option TVal) : WritesOnly d (propagating d os res) := by
  unfold propagating
  refine writesOnly_check (checkNone_checksOnly os) ?_
  split
  · exact writesOnly_modify _ _
  · refine writesOnly_check (checkAccepted_checksOnly os) ?_
    split
    · exact writesOnly_modify _ _
    · exact ⟨fun s => .inr ⟨_, _, _, _, rfl⟩⟩
    · exact writesOnly_pure _

theorem checkTags_checksOnly (os : List Opd) : ChecksOnly (checkTags os) :=
  checksOnly_bind (checkNone_checksOnly os) (checksOnly_bind (checkPoison_checksOnly os) (checkAccepted_checksOnly os))

theorem condition_run (field : Nat) (v : TVal) (s : State) :
    condition field v s = .ok (v.data ≠ 0) s ∨ ∃ code f tag x, condition field v s = .error (.trap code f tag x) s := by
  obtain h | ⟨code, fld, tag, x, h⟩ := checkTags_checksOnly [⟨field, v, intOrAddr⟩] s
  · exact .inl (bind_of_ok h)
  · exact .inr ⟨_, _, _, _, bind_of_error h⟩

theorem writesOnly_condMove (a b : Reg) (w : Bool) : WritesOnly d (condMove d a b w) := by
  refine ⟨fun s => ?_⟩
  unfold condMove
  rw [get_bind]
  obtain h | ⟨code, fld, tag, x, h⟩ := condition_run 3 (s.reg b) s
  · rw [bind_of_ok h]
    split
    · exact .inl ⟨_, _, rfl, .inr ⟨_, rfl⟩⟩
    · exact .inl ⟨_, _, rfl, .inl rfl⟩
  · exact .inr ⟨_, _, _, _, bind_of_error h⟩

theorem writesOnly_condBranch (a : Reg) (off : BitVec 20) (w : Bool → Bool) : WritesOnly d (condBranch a off w) := by
  refine ⟨fun s => ?_⟩
  unfold condBranch
  rw [get_bind]
  obtain h | ⟨code, fld, tag, x, h⟩ := condition_run 2 (s.reg a) s
  · rw [bind_of_ok h]
    exact .inl ⟨_, _, rfl, .inl rfl⟩
  · exact .inr ⟨_, _, _, _, bind_of_error h⟩

end

section
variable (d a b : Reg)

theorem writesOnly_binary (okA okB : Tag → Bool) (rule : TagRule) (f : Word → Word → Word) :
    WritesOnly d (binary d a b okA okB rule f) := writesOnly_get fun _ => writesOnly_propagating _ _

theorem writesOnly_withImm (imm : Word) (okA : Tag → Bool) (rule : TagRule) (f : Word → Word → Word) :
    WritesOnly d (withImm d a imm okA rule f) := writesOnly_get fun _ => writesOnly_propagating _ _

theorem writesOnly_unary (src dst : Tag) (f : Word → Word) : WritesOnly d (unary d a src dst f) :=
  writesOnly_get fun _ => writesOnly_propagating _ _

theorem writesOnly_binaryOf (src dst : Tag) (f : Word → Word → Word) : WritesOnly d (binaryOf d a b src dst f) :=
  writesOnly_get fun _ => writesOnly_propagating _ _

theorem writesOnly_ternaryOf (t : Tag) (f : Word → Word → Word → Word) : WritesOnly d (ternaryOf d a b t f) :=
  writesOnly_get fun _ => writesOnly_propagating _ _

end

/-- Every instruction that writes one register has a meaning that does no more. -/
theorem exec_registerOnly {i : Instr} {d : Reg} (h : registerOnly i = some d) (s : State) :
    ∃ body, Machine.exec i s = coreStep i body s ∧ WritesOnly d body := by
  cases i with
  | add | sub | and | or | xor | sll | srl | sra | mul | mulh | mulhu | div | divu | rem | remu | min | max | minu | maxu
  | ceq | cne | clt | cltu | cle | cleu =>
    cases h
    exact ⟨_, rfl, writesOnly_binary ..⟩
  | addi | andi | ori | xori | ceqi | clti | cltui | slli | srli | srai | orsh =>
    cases h
    exact ⟨_, rfl, writesOnly_withImm ..⟩
  | fsqrtD | fabsD | fnegD | fsqrtS | fabsS | fnegS | fcvtDI | fcvtDIu | fcvtID | fcvtIuD | fcvtSI | fcvtSIu | fcvtIS
  | fcvtIuS | fcvtDS | fcvtSD =>
    cases h
    exact ⟨_, rfl, writesOnly_unary ..⟩
  | faddD | fsubD | fmulD | fdivD | fminD | fmaxD | fceqD | fcltD | fcleD | fcunD
  | faddS | fsubS | fmulS | fdivS | fminS | fmaxS | fceqS | fcltS | fcleS | fcunS =>
    cases h
    exact ⟨_, rfl, writesOnly_binaryOf ..⟩
  | fmaddD | fmsubD | fnmaddD | fmaddS | fmsubS | fnmaddS =>
    cases h
    exact ⟨_, rfl, writesOnly_ternaryOf ..⟩
  | cmovnz | cmovz =>
    cases h
    exact ⟨_, rfl, writesOnly_condMove ..⟩
  | bz | bnz =>
    cases h
    exact ⟨_, rfl, writesOnly_condBranch ..⟩
  | fenceSt | ifence =>
    cases h
    exact ⟨_, rfl, writesOnly_pure _⟩
  | movi =>
    cases h
    exact ⟨_, rfl, writesOnly_modify _ _⟩
  | tagof d a b t =>
    cases h
    exact ⟨_, rfl, writesOnly_set (fun s => TVal.int (Word.ofNat (tagCode (s.reg a).tag))) fun _ => none⟩
  | mov d a b t =>
    cases h
    exact ⟨_, rfl, writesOnly_set (fun s => s.reg a) fun _ => none⟩
  | jal a off =>
    cases h
    exact ⟨_, rfl, writesOnly_set (fun s => ⟨s.cur.pc + 4, .vaddr⟩) fun s => some (branchTarget s.cur.pc off)⟩
  | retag d a b t =>
    cases h
    refine ⟨_, rfl, ⟨fun s => ?_⟩⟩
    rw [get_bind]
    obtain h | ⟨code, fld, tag, x, h⟩ := checkNone_checksOnly [⟨2, s.reg a, fun _ => true⟩] s
    · rw [bind_of_ok h]
      split
      · exact .inr ⟨_, _, _, _, rfl⟩
      · exact .inl ⟨_, _, rfl, .inr ⟨_, rfl⟩⟩
    · exact .inr ⟨_, _, _, _, bind_of_error h⟩
  | jalr d a imm =>
    cases h
    refine ⟨_, rfl, ⟨fun s => ?_⟩⟩
    rw [get_bind]
    obtain h | ⟨code, fld, tag, x, h⟩ := checkTags_checksOnly [⟨2, s.reg a, only .vaddr⟩] s
    · rw [bind_of_ok h]
      dsimp only
      split
      · exact .inr ⟨_, _, _, _, rfl⟩
      · exact .inl ⟨_, _, rfl, .inr ⟨_, rfl⟩⟩
    · exact .inr ⟨_, _, _, _, bind_of_error h⟩
  | _ => cases h

/-- What an instruction meets before its meaning leaves the dispatch as it is. -/
theorem issued_dispatch {i : Instr} {s s1 : State} (h : s.issued i = some s1) :
    s1.curStall = s.curStall ∧ s1.curCtx = s.curCtx := by
  obtain ⟨-, s', hf, -, -, rfl, -⟩ := fetchChangesOnlyCachesAndTlb i s s1 h
  have hF : Fetched s s' := (fetchCheck_fetches s).of_ok _ _ hf
  obtain ⟨hd, hs⟩ := meetUpset_dispatch s' (s.curStall.getD 31) (regsRead i)
  refine ⟨(curStall_eq_of_dispatch hd hs).trans hF.curStall, Eq.trans ?_ hF.curCtx⟩
  simp only [State.curCtx, hd]

/-- With no error that its operands meet, an instruction is issued in the state that its fetch leaves. -/
theorem issued_fetched {i : Instr} {s s1 : State} (h : s.issued i = some s1) (hs : Sound i s) : Fetched s s1 := by
  obtain ⟨-, s', hf, -, -, -, he⟩ := fetchChangesOnlyCachesAndTlb i s s1 h
  rw [he hs]
  exact (fetchCheck_fetches s).of_ok _ _ hf

/-- Settles O11: the meaning writes one register, and retirement changes the pc, the wait and a counter. -/
theorem registerInstructionFrame : Obligations.RegisterInstructionFrame := by
  unfold Obligations.RegisterInstructionFrame
  intro i d s s1 k hd hk hi
  obtain ⟨body, he, hw⟩ := exec_registerOnly hd s
  have hb : Begins i s s1 := ⟨by rw [hk]; rfl, hi⟩
  have hk1 : s1.curStall = some k := (issued_dispatch hi).1.trans hk
  obtain ⟨npc, t, hr, ht⟩ | ⟨code, f, tag, v, hr⟩ := hw.run s1
  · have hf : RegisterFrame s1 t k d := by
      obtain rfl | ⟨v, rfl⟩ := ht
      · exact registerFrame_refl ..
      · exact registerFrame_setReg hk1 v
    refine ⟨_, he.trans (coreStep_ok hb hr), .inl ?_⟩
    rw [After, hk]
    have hA := registerFrame_retire hf s.curCtx (npc.getD (s.cur.pc + 4))
    exact ⟨hA, fun hs => registerFrame_of_fetched (issued_fetched hi hs) hA⟩
  · exact ⟨_, he.trans (coreStep_error hb hr), .inr ⟨code, f, tag, v, rfl⟩⟩

end Sys2Proof.Machine
end

section
/-! PROOFS. System registers: checks, SWR, and the faults of privilege (R54 to R57, R81, R82, R260 to R262). -/

namespace Sys2Proof.Machine

section
variable {s : State}

/-- Operands of accepted tags, where a position may accept POISON, pass the checks. -/
theorem checkTags_of_ok {os : List Opd} (hn : ∀ o ∈ os, o.v.tag ≠ .none) (ho : ∀ o ∈ os, o.ok o.v.tag = true) :
    checkTags os s = .ok () s := by
  have hp : checkPoison os s = .ok () s := by
    have hf : os.find? (fun o => o.v.tag = .poison && !o.ok .poison) = none := by
      simpa using fun o hm ht => ht ▸ ho o hm
    simp only [checkPoison, hf]
    rfl
  unfold checkTags
  rw [bind_of_ok (checkNone_of_ne hn), bind_of_ok hp]
  exact checkAccepted_of_ok ho

theorem ne_none_of_swrAccepts {n : Nat} {t : Tag} (h : swrAccepts n t = true) : t ≠ .none := by
  have hs (u : Tag) (svc sys : Access) (hn : n ≠ 7) (hr : sysRegs n = some (u, svc, sys)) : u ≠ .none := by
    unfold sysRegs at hr
    split at hr <;> cases hr <;> simp_all
  rintro rfl
  cases hr : sysRegs n with
  | none => simp [swrAccepts, hr] at h
  | some r =>
    obtain ⟨u, svc, sys⟩ := r
    by_cases hn : n = 7
    · subst hn
      cases h
    · simp only [swrAccepts, hr, if_neg hn, only] at h
      exact hs u svc sys hn hr (of_decide_eq_true h).symm

theorem checkTags_swr {n : Nat} {v : TVal} (h : swrAccepts n v.tag = true) : checkTags [⟨2, v, swrAccepts n⟩] s = .ok () s :=
  checkTags_of_ok (by simpa using ne_none_of_swrAccepts h) (by simpa using h)

theorem checkSysReg_reserved {n : Nat} {w : Bool} (h : sysRegs n = none) :
    checkSysReg n w s = .error (.trap 0x44 0 .none (Word.ofNat n)) s := by
  simp only [checkSysReg, h]
  rfl

/-- The access that the mode permits to register `n` (R55). -/
theorem checkSysReg_mapped {n : Nat} {w : Bool} {tag : Tag} {svc sys acc : Access} (h : sysRegs n = some (tag, svc, sys))
    (ha : (if s.cur.sysMode then sys else svc) = acc) :
    checkSysReg n w s =
      if acc = .no || (w && acc = .ro) then .error (.trap 0x43 0 .none (Word.ofNat n)) s else .ok () s := by
  simp only [checkSysReg, h, get_bind, ha]
  split <;> rfl

/-- SWR with an operand of the register's tag, in system mode, writes a register of the stall. -/
theorem swr_stall {a : Reg} {n : BitVec 15} {s s1 : State} {tag : Tag} {svc : Access}
    (hb : Begins (.swr 0 a n) s s1) (hr : sysRegs n.toNat = some (tag, svc, .rw)) (hn : n.toNat < 0x40)
    (hm : s1.cur.sysMode = true) (ht : swrAccepts n.toNat (s1.reg a).tag = true) :
    Machine.exec (.swr 0 a n) s = .next (After s (s1.modCur fun t => t.sysWrite n.toNat (s1.reg a)) none) := by
  refine coreStep_ok hb ?_
  rw [get_bind, bind_of_ok (checkTags_swr ht), bind_of_ok ((checkSysReg_mapped hr (if_pos hm)).trans (if_neg (by decide))),
    if_pos hn]
  rfl

/-- SWR with an operand of the register's tag, in system mode, writes a register of the context state array. -/
theorem swr_context {a : Reg} {n : BitVec 15} {s s1 : State} {tag : Tag} {svc : Access} {c : Nat}
    (hb : Begins (.swr 0 a n) s s1) (hr : sysRegs n.toNat = some (tag, svc, .rw)) (hn : 0x40 ≤ n.toNat)
    (hm : s1.cur.sysMode = true) (ht : swrAccepts n.toNat (s1.reg a).tag = true) (hc : s1.curCtx = some c) :
    Machine.exec (.swr 0 a n) s = .next (After s
      (let t := s1.modCtx c fun e => e.sysWrite n.toNat (s1.reg a).data
       if n.toNat = 0x40 then t.trigger else t) none) := by
  refine coreStep_ok hb ?_
  rw [get_bind, bind_of_ok (checkTags_swr ht), bind_of_ok ((checkSysReg_mapped hr (if_pos hm)).trans (if_neg (by decide))),
    if_neg (by omega), get_bind, hc]
  dsimp only
  rw [set_bind]
  split <;> rfl

end

/-- Settles O16: SWR of a register of the stall, then of each register of the context state array. -/
theorem swrWritesRegisters : Obligations.SwrWritesRegisters := by
  unfold Obligations.SwrWritesRegisters
  refine ⟨fun a n s s1 v tag svc sys hb ha hr hn hm hs ht => ?_, fun a s s1 c w hc hm => ?_⟩
  · subst ha hs
    refine ⟨swr_stall hb hr hn hm ht, ?_⟩
    intro t
    refine ⟨?_, ?_, ?_, ?_, ?_, ?_, ?_, ?_, ?_, ?_, ?_, ?_, ?_, ?_⟩ <;> rintro rfl <;> rfl
  · have tagged {n : BitVec 15} {t : Tag} (hv : s1.reg a = ⟨w, t⟩) (h : swrAccepts n.toNat t = true) :
        swrAccepts n.toNat (s1.reg a).tag = true := by rw [hv]; exact h
    refine ⟨fun hb hv => ?_, fun hb hv => ?_, fun hb hv => ?_, fun hb hv => ?_⟩
    all_goals
      refine (swr_context hb rfl (by decide) hm (tagged hv (by decide)) hc).trans ?_
      rw [hv]
      rfl

theorem requireSystem_service {s : State} (i : Instr) (h : s.cur.sysMode = false) :
    requireSystem i s = .error (.trap 2 0 .none (insnWord i)) s := by
  unfold requireSystem
  rw [get_bind, h]
  rfl

/-- R274: the operands of the context group are checked before its privilege. -/
theorem contextOperands_service {s : State} (i : Instr) {a b : Reg} (h : s.cur.sysMode = false) (ha : (s.reg a).tag = .vaddr)
    (hb : (s.reg b).tag = .int) : contextOperands i a b s = .error (.trap 2 0 .none (insnWord i)) s := by
  unfold contextOperands
  rw [get_bind, bind_of_ok (checkPoison_of_ne (by simp [ha])), bind_of_ok (checkAccepted_of_ok (by simp [ha, hb, only])),
    bind_of_error (requireSystem_service i h)]

/-- Settles O18. -/
theorem systemRegisterAndPrivilegeFaults : Obligations.SystemRegisterAndPrivilegeFaults := by
  unfold Obligations.SystemRegisterAndPrivilegeFaults
  constructor
  · intro d a n s s1 tag svc sys trap
    refine ⟨fun hb hr => ?_, fun hb hr ht => ?_, fun hb hr hm hs => ?_, fun hb hr hm hs ht => ?_⟩
    · exact coreStep_error hb (bind_of_error (checkSysReg_reserved hr))
    · refine coreStep_error hb ?_
      rw [get_bind, bind_of_ok (checkTags_swr ht), bind_of_error (checkSysReg_reserved hr), Word.ofNat]
    · subst hs
      refine coreStep_error hb (bind_of_error ?_)
      exact (checkSysReg_mapped hr (by rw [hm])).trans (if_pos rfl)
    · refine coreStep_error hb ?_
      have hf : checkSysReg n.toNat true s1 = .error (.trap 0x43 0 .none (Word.ofNat n.toNat)) s1 := by
        refine (checkSysReg_mapped hr (by rw [hm])).trans (if_pos ?_)
        cases svc <;> simp_all
      rw [get_bind, bind_of_ok (checkTags_swr ht), bind_of_error hf, Word.ofNat]
  · intro s s1 a b hm priv
    exact ⟨fun hb => coreStep_error hb (bind_of_error (requireSystem_service _ hm)),
      fun hb => coreStep_error hb (bind_of_error (requireSystem_service _ hm)), fun ha hn =>
      ⟨fun hb => coreStep_error hb (bind_of_error (contextOperands_service _ hm ha hn)),
      fun hb => coreStep_error hb (bind_of_error (contextOperands_service _ hm ha hn)),
      fun hb => coreStep_error hb (bind_of_error (contextOperands_service _ hm ha hn)),
      fun hb => coreStep_error hb (bind_of_error (contextOperands_service _ hm ha hn))⟩⟩

end Sys2Proof.Machine
end

section
/-! PROOFS. Loads of the core (R47, R48, R73, R76, R77): what they read, and what they leave. -/

namespace Sys2Proof.Machine

/-! ### What the reads of an access leave: caches, requests, counters and error records -/

/-- A state that differs from `s` only in what the reads of an access and their error records may change. -/
def Accessed (s t : State) : Prop :=
  ∃ tlb ctxs due caches pmc free ma ras ipend,
    t = { s with core := { s.core with tlb := tlb, ctxs := ctxs, decideDue := due }, caches := caches, pmc := pmc, free := free,
                 ports := { s.ports with ma := ma }, ras := ras, groom := { s.groom with ipend := ipend } }

section
variable {s t u : State}

theorem Accessed.refl (s : State) : Accessed s s := ⟨_, _, _, _, _, _, _, _, _, rfl⟩

theorem Accessed.trans (h : Accessed s t) (h' : Accessed t u) : Accessed s u := by
  obtain ⟨_, _, _, _, _, _, _, _, _, rfl⟩ := h
  obtain ⟨_, _, _, _, _, _, _, _, _, rfl⟩ := h'
  exact ⟨_, _, _, _, _, _, _, _, _, rfl⟩

theorem Fetched.accessed (h : Fetched s t) : Accessed s t := by
  obtain ⟨_, _, _, _, _, rfl⟩ := h
  exact ⟨_, _, _, _, _, _, _, _, _, rfl⟩

theorem Accessed.mem (h : Accessed s t) : t.mem = s.mem := by
  obtain ⟨_, _, _, _, _, _, _, _, _, rfl⟩ := h
  exact rfl

theorem Accessed.buf (h : Accessed s t) : t.buf = s.buf := by
  obtain ⟨_, _, _, _, _, _, _, _, _, rfl⟩ := h
  exact rfl

theorem Accessed.stalls (h : Accessed s t) : t.core.stalls = s.core.stalls := by
  obtain ⟨_, _, _, _, _, _, _, _, _, rfl⟩ := h
  exact rfl

theorem Accessed.boot (h : Accessed s t) : t.boot = s.boot := by
  obtain ⟨_, _, _, _, _, _, _, _, _, rfl⟩ := h
  exact rfl

end

theorem raiseEvent_accessed (s : State) (c k : Nat) : Accessed s (s.raiseEvent c k) := by
  simp only [State.raiseEvent]
  split <;> exact ⟨_, _, _, _, _, _, _, _, _, rfl⟩

theorem raiseAlert_accessed (s : State) (c b : Nat) : Accessed s (s.raiseAlert c b) := by
  unfold State.raiseAlert
  split
  · exact Accessed.trans (t := s.modCtx c fun e => { e with alert := e.alert.putBit b true })
      ⟨_, _, _, _, _, _, _, _, _, rfl⟩ (raiseEvent_accessed _ c 6)
  · exact Accessed.refl s

theorem record_accessed (s : State) (r : ErrRec) : Accessed s (s.record r) := by
  simp only [State.record]
  split
  · split <;> exact ⟨_, _, _, _, _, _, _, _, _, rfl⟩
  · refine Accessed.trans ?_ (raiseAlert_accessed _ r.ctx.toNat 1)
    split <;> exact ⟨_, _, _, _, _, _, _, _, _, rfl⟩

theorem lostAccess_accessed (s : State) (pa : Nat) (c : Option Nat) : Accessed s (s.lostAccess pa c) :=
  ((Fetched.of_ma (State.maLines_ma ..)).trans (pmcAdd_fetched ..)).accessed.trans (record_accessed ..)

theorem memRead_accessed (s : State) (k : CacheId) (pa n : Nat) (st : Bool) (c : Option Nat) :
    Accessed s (s.memRead k pa n st c).2 := by
  unfold State.memRead
  split
  · exact lostAccess_accessed ..
  · exact (cacheAccess_fetched ..).accessed

theorem bufRead_accessed (s : State) (off n : Nat) (c : Option Nat) : Accessed s (s.bufRead off n c).2 := by
  unfold State.bufRead
  split
  · exact record_accessed ..
  · exact Accessed.refl s

theorem poisonIn_accessed (s : State) (src unit : Nat) (chunks : List Nat) (c : Option Nat) :
    Accessed s (s.poisonIn src unit chunks c) := by
  unfold State.poisonIn
  split
  · exact Accessed.refl s
  · exact record_accessed ..

theorem readParts_accessed (c : Option Nat) (ps : List (TlbEntry × Nat × Nat)) (s : State) :
    Accessed s (readParts c ps s).2 := by
  induction ps generalizing s with
  | nil => exact Accessed.refl s
  | cons p ps ih =>
    obtain ⟨e, pa, n⟩ := p
    have h1 : Accessed s (if s.attr pa = 2 then s.bufRead (s.bufOffset pa) n c else s.memRead .l1d pa n e.st c).2 := by
      split
      · exact bufRead_accessed ..
      · exact memRead_accessed ..
    exact h1.trans (ih _)

/-! ### Loads -/

theorem checkTags_vaddrOperand {s : State} {x : TVal} (h : x.tag = .vaddr) : checkTags [⟨2, x, only .vaddr⟩] s = .ok () s :=
  checkTags_of_accepted (by simp [Accepted, IsValue, h, only])

theorem deviceRefuses_iff (s : State) (va : Word) (pa n : Nat) : s.deviceRefuses va pa n = true ↔
    (va.toNat % n ≠ 0 ∨ s.inAperture pa = true ∧ (n < 4 ∨ only64 (apOff pa) = true ∧ n ≠ 8)) := by
  simp only [State.deviceRefuses, Bool.or_eq_true, Bool.and_eq_true, decide_eq_true_eq]

section
variable {i : Instr} {d a : Reg} {imm : BitVec 15} {f : LoadForm} {s s1 s2 : State} {x : Word}
  {ps : List (TlbEntry × Nat × Nat)}

/-- The meaning of a load whose parts are translated. -/
theorem loadInsn_translated (ha : s1.reg a = ⟨x, .vaddr⟩)
    (hp : translateParts 1 (x + imm.signExtend 64) (splitParts (x + imm.signExtend 64) f.n) s1 = .ok ps s2) :
    loadInsn d a imm f s1 =
      ((if s2.anyDevice ps then deviceLoad f (x + imm.signExtend 64) ((ps.map (·.2.1)).headD 0) else plainLoad f ps) >>=
        fun v => modify (fun s => s.setReg d v) >>= fun _ => pure none) s2 := by
  unfold loadInsn
  rw [get_bind, ha, bind_of_ok (checkTags_vaddrOperand rfl)]
  refine (bind_of_ok hp).trans ?_
  rw [get_bind]
  dsimp only
  split <;> rfl

theorem load_plain (he : Machine.exec i s = coreStep i (loadInsn d a imm f) s) (hb : Begins i s s1)
    (ha : s1.reg a = ⟨x, .vaddr⟩)
    (hp : translateParts 1 (x + imm.signExtend 64) (splitParts (x + imm.signExtend 64) f.n) s1 = .ok ps s2)
    (hd : s2.anyDevice ps = false) :
    ∃ s3, Machine.exec i s = .next (After s (s3.setReg d
        ⟨f.value (leNat (readParts s2.curCtx ps s2).1.bytes), if (readParts s2.curCtx ps s2).1.poison then .poison else f.tag⟩)
        none) ∧ Accessed s2 s3 := by
  have hr := loadInsn_translated (d := d) ha hp
  rw [if_neg (by simp [hd])] at hr
  refine ⟨_, he.trans (coreStep_ok hb hr), (readParts_accessed s2.curCtx ps s2).trans (poisonIn_accessed ..)⟩

theorem load_refused (he : Machine.exec i s = coreStep i (loadInsn d a imm f) s) (hb : Begins i s s1)
    (ha : s1.reg a = ⟨x, .vaddr⟩)
    (hp : translateParts 1 (x + imm.signExtend 64) (splitParts (x + imm.signExtend 64) f.n) s1 = .ok ps s2)
    (hd : s2.anyDevice ps = true)
    (hr : s2.deviceRefuses (x + imm.signExtend 64) ((ps.map (·.2.1)).headD 0) f.n = true) :
    Machine.exec i s = .next (Aborted i s s2 (.trap 6 0 .none (x + imm.signExtend 64))) := by
  refine he.trans (coreStep_error hb ((loadInsn_translated ha hp).trans ?_))
  rw [if_pos hd]
  refine bind_of_error ?_
  unfold deviceLoad
  rw [get_bind, if_pos hr]
  rfl

theorem load_aperture (he : Machine.exec i s = coreStep i (loadInsn d a imm f) s) (hb : Begins i s s1)
    (ha : s1.reg a = ⟨x, .vaddr⟩)
    (hp : translateParts 1 (x + imm.signExtend 64) (splitParts (x + imm.signExtend 64) f.n) s1 = .ok ps s2)
    (hd : s2.anyDevice ps = true)
    (hr : s2.deviceRefuses (x + imm.signExtend 64) ((ps.map (·.2.1)).headD 0) f.n = false)
    (hin : s2.inAperture ((ps.map (·.2.1)).headD 0) = true) :
    let pa := (ps.map (·.2.1)).headD 0
    let got := s2.apRead .core (apOff pa) (apLane pa f.n)
    Machine.exec i s = .next (After s (got.2.setReg d (got.1.elim ⟨0, .int⟩ fun w =>
      ⟨f.value (if apLane pa f.n = .hi then (w >>> 32).toNat else w.toNat), f.tag⟩)) none) := by
  dsimp only
  have hl := loadInsn_translated (d := d) ha hp
  rw [if_pos hd] at hl
  generalize (ps.map (·.2.1)).headD 0 = pa at hr hin hl ⊢
  refine he.trans (coreStep_ok hb (hl.trans (bind_of_ok (t := (s2.apRead .core (apOff pa) (apLane pa f.n)).2) ?_)))
  unfold deviceLoad
  rw [get_bind, if_neg (by simp [hr]), if_pos hin]
  generalize s2.apRead .core (apOff pa) (apLane pa f.n) = g
  obtain ⟨w, s3⟩ := g
  cases w <;> rfl

end

/-- Settles O12: every load by its form, on memory, on a refused device access, and on the aperture. -/
theorem loadResults : Obligations.LoadResults := by
  unfold Obligations.LoadResults
  intro d a imm s s1 s2 x ps va goes
  have all {i : Instr} (n : Nat) (signed : Bool) (tag : Tag)
      (he : Machine.exec i s = coreStep i (loadInsn d a imm ⟨n, signed, tag⟩) s) : goes i n signed tag := by
    intro hb ha hp ext g pa refused got
    refine ⟨fun hd => ?_, fun hd hr => ?_, fun hd hr hin => ?_⟩
    · obtain ⟨s3, h, hs⟩ := load_plain he hb ha hp hd
      exact ⟨s3, h, hs.mem, hs.buf, hs.stalls⟩
    · exact load_refused he hb ha hp hd ((deviceRefuses_iff ..).mpr hr)
    · have h := load_aperture he hb ha hp hd (Bool.eq_false_iff.mpr fun h => hr ((deviceRefuses_iff ..).mp h)) hin
      refine h.trans ?_
      dsimp only [got, pa]
      cases s2.apRead .core (apOff ((ps.map (·.2.1)).headD 0)) (apLane ((ps.map (·.2.1)).headD 0) n) with
      | mk w s3 => cases w <;> rfl
  exact ⟨all 1 true .int rfl, all 1 false .int rfl, all 2 true .int rfl, all 2 false .int rfl, all 4 true .int rfl,
    all 4 false .int rfl, all 8 false .int rfl, all 4 false .f32 rfl, all 8 false .f64 rfl, all 8 false .vaddr rfl,
    all 8 false .baddr rfl, all 8 false .shape rfl, all 8 false .sdesc rfl, all 8 false .wide rfl⟩

end Sys2Proof.Machine
end

section
/-! PROOFS. Stores of the core (R49, R50, R73, R76, R77): what they write, and the frame of memory and buffer memory. -/

namespace Sys2Proof.Machine

theorem checkTags_store {s : State} {v x : TVal} (hv : v.tag ≠ .none) (hx : x.tag = .vaddr) :
    checkTags [⟨1, v, fun t => t ≠ .none⟩, ⟨2, x, only .vaddr⟩] s = .ok () s :=
  checkTags_of_ok (by simp [hv, hx]) (by simp [hv, hx, only])

theorem toTack_iff (s : State) (ps : List (TlbEntry × Nat × Nat)) : s.toTack ps = true ↔
    ∃ p ∈ ps, s.inAperture p.2.1 = true ∧ 0x30000 ≤ p.2.1 % 2 ^ 24 ∧ p.2.1 % 2 ^ 24 < 0x40000 := by
  simp only [State.toTack, List.any_eq_true, Bool.and_eq_true, decide_eq_true_eq, and_assoc]

/-- The aperture is a device region. -/
theorem noDevice_toTack {s : State} {ps : List (TlbEntry × Nat × Nat)} (h : s.anyDevice ps = false) : s.toTack ps = false := by
  have hap (pa : Nat) (h : s.inAperture pa = true) : s.attr pa = 3 := if_pos (by simpa [State.inAperture] using h)
  refine Bool.eq_false_iff.mpr fun ht => ?_
  obtain ⟨p, hm, hin, -⟩ := (toTack_iff ..).mp ht
  have hany : s.anyDevice ps = true := List.any_eq_true.mpr ⟨p, hm, by simpa using hap _ hin⟩
  exact absurd (hany.symm.trans h) (by simp)

section
variable {i : Instr} {d a : Reg} {imm : BitVec 15} {n : Nat} {s s1 s2 : State} {x : Word} {v : TVal}
  {ps : List (TlbEntry × Nat × Nat)}

/-- The meaning of a store whose parts are translated. -/
theorem storeInsn_translated (ha : s1.reg a = ⟨x, .vaddr⟩) (hd : s1.reg d = v) (hv : v.tag ≠ .none)
    (hp : translateParts 2 (x + imm.signExtend 64) (splitParts (x + imm.signExtend 64) n) s1 = .ok ps s2) :
    storeInsn d a imm n s1 =
      if v.tag = .poison ∧ s2.toTack ps = true then .error (.trap 0x41 1 .poison v.data) s2
      else if s2.anyDevice ps then
        (deviceStore n (x + imm.signExtend 64) ((ps.map (·.2.1)).headD 0) v >>= fun _ => pure none) s2
      else .ok none (writeParts s2.curCtx (decide (v.tag = .poison)) ps (leBytes n v.data.toNat) s2) := by
  unfold storeInsn
  rw [get_bind, ha, hd, bind_of_ok (checkTags_store hv rfl)]
  refine (bind_of_ok hp).trans ?_
  rw [get_bind]
  by_cases ht : v.tag = .poison ∧ s2.toTack ps = true
  · rw [if_pos ht, if_pos (by simpa using ht)]
    rfl
  · rw [if_neg ht, if_neg (by simpa using ht)]
    refine (get_bind _ s2).trans ?_
    dsimp only
    split <;> rfl

theorem deviceStore_refused {va : Word} {pa : Nat} (hr : s2.deviceRefuses va pa n = true) :
    deviceStore n va pa v s2 = .error (.trap 6 0 .none va) s2 := by
  unfold deviceStore
  rw [get_bind, if_pos hr]
  rfl

theorem deviceStore_aperture {va : Word} {pa : Nat} (hr : s2.deviceRefuses va pa n = false) (hin : s2.inAperture pa = true) :
    deviceStore n va pa v s2 = .ok () (s2.apWrite .core (apOff pa) (apLane pa n)
      (if apLane pa n = .hi then v.data <<< 32 else v.data) (decide (v.tag = .poison))).2 := by
  unfold deviceStore
  rw [get_bind, if_neg (by simp [hr]), if_pos hin]
  rfl

end

/-- Settles O13: every store by its size, on memory, on the Tack window with POISON, on a refused device access, and on the
aperture. -/
theorem storeResults : Obligations.StoreResults := by
  unfold Obligations.StoreResults
  intro d a imm s s1 s2 x v ps va goes
  have all {i : Instr} (n : Nat) (he : Machine.exec i s = coreStep i (storeInsn d a imm n) s) : goes i n := by
    intro hb ha hd hv hp pa refused toTack w
    have hs := storeInsn_translated (d := d) ha hd hv hp
    refine ⟨fun hdev => ?_, fun hpo ht => ?_, fun hdev hnt hr => ?_, fun hdev hnt hr hin => ?_⟩
    · rw [if_neg (by simp [noDevice_toTack hdev]), if_neg (by simp [hdev])] at hs
      exact he.trans (coreStep_ok hb hs)
    · rw [if_pos ⟨hpo, (toTack_iff ..).mpr ht⟩] at hs
      exact he.trans (coreStep_error hb hs)
    · rw [if_neg (fun h => hnt ⟨h.1, (toTack_iff ..).mp h.2⟩), if_pos hdev,
        bind_of_error (deviceStore_refused ((deviceRefuses_iff ..).mpr hr))] at hs
      exact he.trans (coreStep_error hb hs)
    · rw [if_neg (fun h => hnt ⟨h.1, (toTack_iff ..).mp h.2⟩), if_pos hdev,
        bind_of_ok (deviceStore_aperture (Bool.eq_false_iff.mpr fun h => hr ((deviceRefuses_iff ..).mp h)) hin)] at hs
      exact he.trans (coreStep_ok hb hs)
  exact ⟨all 1 rfl, all 2 rfl, all 4 rfl, all 8 rfl⟩

/-! ### The frame of a store -/

theorem attr_congr {s t : State} (hb : t.boot = s.boot) (hc : t.cfg = s.cfg) (pa : Nat) : t.attr pa = s.attr pa := by
  simp only [State.attr, State.attrEntry, State.cfgAct, hb, hc]
  rfl

theorem bufOffset_congr {s t : State} (hc : t.cfg = s.cfg) (pa : Nat) : t.bufOffset pa = s.bufOffset pa := by
  simp only [State.bufOffset, State.attrEntry, State.cfgAct, hc]
  rfl

theorem Accessed.cfg {s t : State} (h : Accessed s t) : t.cfg = s.cfg := by
  obtain ⟨_, _, _, _, _, _, _, _, _, rfl⟩ := h
  exact rfl

/-- What a write of memory leaves of everything else. -/
theorem memWrite_frame (s : State) (pa : Nat) (bs : List Byte) (p st : Bool) (c : Option Nat) :
    (s.memWrite pa bs p st c).boot = s.boot ∧ (s.memWrite pa bs p st c).cfg = s.cfg ∧ (s.memWrite pa bs p st c).buf = s.buf ∧
    (s.memWrite pa bs p st c).mem =
      if s.mem.lost (pa / 128) then s.mem else { s.mem with store := s.mem.store.write pa bs p } := by
  unfold State.memWrite
  split
  · have h := lostAccess_accessed s pa c
    exact ⟨h.boot, h.cfg, h.buf, h.mem⟩
  · have h := (cacheAccess_fetched s .l1d (pa / 128) true st).accessed
    exact ⟨h.boot, h.cfg, h.buf, by rw [← h.mem]⟩

/-- What a write of buffer memory leaves of everything else, and its bytes. -/
theorem bufWrite_frame (s : State) (port off : Nat) (bs : List Byte) (p : Bool) (c : Option Nat) :
    (s.bufWrite port off bs p c).boot = s.boot ∧ (s.bufWrite port off bs p c).cfg = s.cfg ∧
    (s.bufWrite port off bs p c).mem = s.mem ∧
    ∀ x, x < off ∨ off + bs.length ≤ x → (s.bufWrite port off bs p c).buf.store.byte x = s.buf.store.byte x := by
  unfold State.bufWrite
  split
  · dsimp only
    refine ⟨(record_accessed ..).boot, (record_accessed ..).cfg, (record_accessed ..).mem, fun x _ => ?_⟩
    rw [(record_accessed ..).buf, Store.byte_putMarks]
  · exact ⟨rfl, rfl, rfl, fun x hx => s.buf.store.byte_write_outside off bs p x hx⟩

/-- The write of one part of a store. -/
def writePart (c : Option Nat) (poison : Bool) (p : TlbEntry × Nat × Nat) (bs : List Byte) (s : State) : State :=
  if s.attr p.2.1 = 2 then s.bufWrite 0 (s.bufOffset p.2.1) (bs.take p.2.2) poison c
  else s.memWrite p.2.1 (bs.take p.2.2) poison p.1.st c

theorem writeParts_cons (c : Option Nat) (poison : Bool) (p : TlbEntry × Nat × Nat) (ps : List (TlbEntry × Nat × Nat))
    (bs : List Byte) (s : State) :
    writeParts c poison (p :: ps) bs s = writeParts c poison ps (bs.drop p.2.2) (writePart c poison p bs s) := rfl

theorem writePart_frame (c : Option Nat) (poison : Bool) (p : TlbEntry × Nat × Nat) (bs : List Byte) (s : State) :
    (writePart c poison p bs s).boot = s.boot ∧ (writePart c poison p bs s).cfg = s.cfg ∧
    (∀ x, (s.attr p.2.1 ≠ 2 → x < p.2.1 ∨ p.2.1 + p.2.2 ≤ x) →
      (writePart c poison p bs s).mem.store.byte x = s.mem.store.byte x) ∧
    ∀ x, (s.attr p.2.1 = 2 → x < s.bufOffset p.2.1 ∨ s.bufOffset p.2.1 + p.2.2 ≤ x) →
      (writePart c poison p bs s).buf.store.byte x = s.buf.store.byte x := by
  have hl : (bs.take p.2.2).length ≤ p.2.2 := List.length_take_le ..
  unfold writePart
  split
  · next ha =>
    obtain ⟨hb, hc, hm, hx⟩ := bufWrite_frame s 0 (s.bufOffset p.2.1) (bs.take p.2.2) poison c
    refine ⟨hb, hc, fun x _ => by rw [hm], fun x ho => hx x ?_⟩
    have := ho ha
    omega
  · next ha =>
    obtain ⟨hb, hc, hu, hm⟩ := memWrite_frame s p.2.1 (bs.take p.2.2) poison p.1.st c
    refine ⟨hb, hc, fun x ho => ?_, fun x _ => by rw [hu]⟩
    have := ho ha
    rw [hm]
    split
    · rfl
    · exact s.mem.store.byte_write_outside _ _ _ x (by omega)

/-- Memory changes only at the bytes of the parts in memory, and buffer memory only at those of the parts that lie there. -/
theorem writeParts_frame (c : Option Nat) (poison : Bool) (ps : List (TlbEntry × Nat × Nat)) (bs : List Byte) (s : State) :
    (∀ x, (∀ p ∈ ps, s.attr p.2.1 ≠ 2 → x < p.2.1 ∨ p.2.1 + p.2.2 ≤ x) →
      (writeParts c poison ps bs s).mem.store.byte x = s.mem.store.byte x) ∧
    ∀ x, (∀ p ∈ ps, s.attr p.2.1 = 2 → x < s.bufOffset p.2.1 ∨ s.bufOffset p.2.1 + p.2.2 ≤ x) →
      (writeParts c poison ps bs s).buf.store.byte x = s.buf.store.byte x := by
  induction ps generalizing bs s with
  | nil => exact ⟨fun _ _ => rfl, fun _ _ => rfl⟩
  | cons p ps ih =>
    obtain ⟨hb, hc, hm, hu⟩ := writePart_frame c poison p bs s
    obtain ⟨im, iu⟩ := ih (bs.drop p.2.2) (writePart c poison p bs s)
    simp only [attr_congr hb hc, bufOffset_congr hc] at im iu
    rw [writeParts_cons]
    exact ⟨fun x ho => (im x fun q hq => ho q (List.mem_cons_of_mem _ hq)).trans (hm x (ho p List.mem_cons_self)),
      fun x ho => (iu x fun q hq => ho q (List.mem_cons_of_mem _ hq)).trans (hu x (ho p List.mem_cons_self))⟩

theorem translateParts_fetches (kind : Kind) (va : Word) (ps : List (Nat × Nat)) (s : State) :
    FetchesIn s (translateParts kind va ps) := by
  induction ps generalizing s with
  | nil => exact fetchesIn_pure _
  | cons p ps ih =>
    exact fetchesIn_bind (translateCur_fetches ..) fun _ t _ => fetchesIn_bind (ih t) fun _ _ _ => fetchesIn_pure _

/-- An instruction is issued with memory and buffer memory as they were. -/
theorem issued_memory {i : Instr} {s s1 : State} (h : s.issued i = some s1) : s1.mem = s.mem ∧ s1.buf = s.buf := by
  obtain ⟨-, s', hf, -, -, rfl, -⟩ := fetchChangesOnlyCachesAndTlb i s s1 h
  have hF := ((fetchCheck_fetches s).of_ok _ _ hf).accessed
  unfold State.meetUpset
  refine foldl_keeps (P := fun t : State => t.mem = s.mem ∧ t.buf = s.buf) (fun t p ht => ?_) _ s' ⟨hF.mem, hF.buf⟩
  have hr := record_accessed (t.modStall (s.curStall.getD 31) fun u => { u with upset := u.upset.del p.1 })
    (.ecc p.2 0x102 4 1 (t.resident (s.curStall.getD 31)))
  exact ⟨hr.mem.trans ht.1, hr.buf.trans ht.2⟩

theorem retire_memory (s : State) (k : Nat) (n : Option Nat) (pc : Word) :
    (s.retire k n pc).mem = s.mem ∧ (s.retire k n pc).buf = s.buf := by
  have hp := (pmcAdd_fetched s 1 1).accessed
  unfold State.retire
  split
  · exact ⟨hp.mem, hp.buf⟩
  · dsimp only
    split <;> exact ⟨hp.mem, hp.buf⟩

/-- Settles O60: what a store writes is what `writeParts` writes. -/
theorem storeFrame : Obligations.StoreFrame := by
  unfold Obligations.StoreFrame
  intro i n d a imm s s1 s2 ps hi hb ha hd va hp hdev
  have he : Machine.exec i s = coreStep i (storeInsn d a imm n) s := by
    obtain ⟨rfl, rfl⟩ | ⟨rfl, rfl⟩ | ⟨rfl, rfl⟩ | ⟨rfl, rfl⟩ := hi <;> rfl
  obtain ⟨hsm, hsb⟩ := issued_memory hb.2
  have hF := ((translateParts_fetches 2 va (splitParts va n) s1).of_ok _ _ hp).accessed
  have hs := storeInsn_translated (d := d) (n := n) (congrArg (TVal.mk _) ha) rfl hd hp
  have nt : ¬ ((s1.reg d).tag = .poison ∧ s2.toTack ps = true) := fun h => by
    rw [noDevice_toTack hdev] at h
    exact absurd h.2 (by simp)
  rw [if_neg nt, if_neg (by simp [hdev])] at hs
  refine ⟨_, he.trans (coreStep_ok hb hs), fun x hx => ?_, fun x hx => ?_, fun e pa hps ha1 hl => ?_⟩
  · rw [After, (retire_memory ..).1, (writeParts_frame ..).1 x hx, hF.mem, hsm]
  · rw [After, (retire_memory ..).2, (writeParts_frame ..).2 x hx, hF.buf, hsb]
  · have hm : (writeParts s2.curCtx (decide ((s1.reg d).tag = .poison)) ps (leBytes n (s1.reg d).data.toNat) s2).mem =
        { s2.mem with store := s2.mem.store.write pa (leBytes n (s1.reg d).data.toNat) (decide ((s1.reg d).tag = .poison)) } := by
      rw [hps, writeParts_cons, writePart, if_neg (by simp [ha1]), List.take_of_length_le (Nat.le_of_eq (leBytes_length ..))]
      exact (memWrite_frame ..).2.2.2.trans (if_neg (by simp [hl]))
    rw [After, (retire_memory ..).1, hm]
    exact (congrArg (Store.read _ pa) (leBytes_length ..).symm).trans (Store.read_write ..)

end Sys2Proof.Machine
end

section
/-! PROOFS. Decoding inverts encoding (R60 to R63, R394). -/

namespace Sys2Proof

/-! ### Fields side by side -/

section
variable {n₁ n₂ n₃ n₄ n₅ n₆ : Nat} (x₁ : BitVec n₁) (x₂ : BitVec n₂) (x₃ : BitVec n₃) (x₄ : BitVec n₄) (x₅ : BitVec n₅)
  (x₆ : BitVec n₆)

theorem append_high (k n : Nat) : (x₁ ++ x₂).extractLsb' (k + n₂) n = x₁.extractLsb' k n := by
  rw [BitVec.extractLsb'_append_eq_of_le (by omega), Nat.add_sub_cancel]

theorem append_low : (x₁ ++ x₂).extractLsb' 0 n₂ = x₂ := by
  rw [BitVec.extractLsb'_append_eq_of_add_le (by omega), BitVec.extractLsb'_eq_self]

theorem fields₂ : (x₁ ++ x₂).extractLsb' (0 + n₂) n₁ = x₁ ∧ (x₁ ++ x₂).extractLsb' 0 n₂ = x₂ := by
  simp only [append_high, append_low, BitVec.extractLsb'_eq_self, and_self]

theorem fields₃ : (x₁ ++ x₂ ++ x₃).extractLsb' (0 + n₂ + n₃) n₁ = x₁ ∧ (x₁ ++ x₂ ++ x₃).extractLsb' (0 + n₃) n₂ = x₂ ∧
    (x₁ ++ x₂ ++ x₃).extractLsb' 0 n₃ = x₃ := by
  simp only [append_high, append_low, BitVec.extractLsb'_eq_self, and_self]

theorem fields₄ : (x₁ ++ x₂ ++ x₃ ++ x₄).extractLsb' (0 + n₂ + n₃ + n₄) n₁ = x₁ ∧
    (x₁ ++ x₂ ++ x₃ ++ x₄).extractLsb' (0 + n₃ + n₄) n₂ = x₂ ∧ (x₁ ++ x₂ ++ x₃ ++ x₄).extractLsb' (0 + n₄) n₃ = x₃ ∧
    (x₁ ++ x₂ ++ x₃ ++ x₄).extractLsb' 0 n₄ = x₄ := by
  simp only [append_high, append_low, BitVec.extractLsb'_eq_self, and_self]

theorem fields₅ : (x₁ ++ x₂ ++ x₃ ++ x₄ ++ x₅).extractLsb' (0 + n₂ + n₃ + n₄ + n₅) n₁ = x₁ ∧
    (x₁ ++ x₂ ++ x₃ ++ x₄ ++ x₅).extractLsb' (0 + n₃ + n₄ + n₅) n₂ = x₂ ∧
    (x₁ ++ x₂ ++ x₃ ++ x₄ ++ x₅).extractLsb' (0 + n₄ + n₅) n₃ = x₃ ∧
    (x₁ ++ x₂ ++ x₃ ++ x₄ ++ x₅).extractLsb' (0 + n₅) n₄ = x₄ ∧ (x₁ ++ x₂ ++ x₃ ++ x₄ ++ x₅).extractLsb' 0 n₅ = x₅ := by
  simp only [append_high, append_low, BitVec.extractLsb'_eq_self, and_self]

theorem fields₆ : (x₁ ++ x₂ ++ x₃ ++ x₄ ++ x₅ ++ x₆).extractLsb' (0 + n₂ + n₃ + n₄ + n₅ + n₆) n₁ = x₁ ∧
    (x₁ ++ x₂ ++ x₃ ++ x₄ ++ x₅ ++ x₆).extractLsb' (0 + n₃ + n₄ + n₅ + n₆) n₂ = x₂ ∧
    (x₁ ++ x₂ ++ x₃ ++ x₄ ++ x₅ ++ x₆).extractLsb' (0 + n₄ + n₅ + n₆) n₃ = x₃ ∧
    (x₁ ++ x₂ ++ x₃ ++ x₄ ++ x₅ ++ x₆).extractLsb' (0 + n₅ + n₆) n₄ = x₄ ∧
    (x₁ ++ x₂ ++ x₃ ++ x₄ ++ x₅ ++ x₆).extractLsb' (0 + n₆) n₅ = x₅ ∧
    (x₁ ++ x₂ ++ x₃ ++ x₄ ++ x₅ ++ x₆).extractLsb' 0 n₆ = x₆ := by
  simp only [append_high, append_low, BitVec.extractLsb'_eq_self, and_self]

end

/-! ### The fields of each format (R60, R394) -/

section
variable (op : BitVec 7) (d a b : Reg) (fn : BitVec 10) (imm : BitVec 15) (off : BitVec 20) (tfn : BitVec 6) (fl : BitVec 4)

theorem fmtA_fields : (fmtA op d a b fn).extractLsb' 25 7 = op ∧ (fmtA op d a b fn).extractLsb' 20 5 = d ∧
    (fmtA op d a b fn).extractLsb' 15 5 = a ∧ (fmtA op d a b fn).extractLsb' 10 5 = b ∧
    (fmtA op d a b fn).extractLsb' 0 10 = fn := fields₅ op d a b fn

/-- A part of the function code of format A. -/
theorem fmtA_fn {k n : Nat} (h : k + n ≤ 10) : (fmtA op d a b fn).extractLsb' k n = fn.extractLsb' k n :=
  BitVec.extractLsb'_append_eq_of_add_le h

theorem fmtI_fields : (fmtI op d a imm).extractLsb' 25 7 = op ∧ (fmtI op d a imm).extractLsb' 20 5 = d ∧
    (fmtI op d a imm).extractLsb' 15 5 = a ∧ (fmtI op d a imm).extractLsb' 0 15 = imm := fields₄ op d a imm

theorem fmtB_fields : (fmtB op d off).extractLsb' 25 7 = op ∧ (fmtB op d off).extractLsb' 20 5 = d ∧
    (fmtB op d off).extractLsb' 0 20 = off := fields₃ op d off

theorem fmtT_fields : (fmtT op d a b tfn fl).extractLsb' 25 7 = op ∧ (fmtT op d a b tfn fl).extractLsb' 20 5 = d ∧
    (fmtT op d a b tfn fl).extractLsb' 15 5 = a ∧ (fmtT op d a b tfn fl).extractLsb' 10 5 = b ∧
    (fmtT op d a b tfn fl).extractLsb' 4 6 = tfn ∧ (fmtT op d a b tfn fl).extractLsb' 0 4 = fl := fields₆ op d a b tfn fl

end

section
variable (op : BitVec 6) (d a b : BitVec 4) (fn : BitVec 14) (imm : BitVec 18)

theorem fmtR_fields : (fmtR op d a b fn).extractLsb' 26 6 = op ∧ (fmtR op d a b fn).extractLsb' 22 4 = d ∧
    (fmtR op d a b fn).extractLsb' 18 4 = a ∧ (fmtR op d a b fn).extractLsb' 14 4 = b ∧
    (fmtR op d a b fn).extractLsb' 0 14 = fn := fields₅ op d a b fn

theorem fmtG_fields : (fmtG op d a imm).extractLsb' 26 6 = op ∧ (fmtG op d a imm).extractLsb' 22 4 = d ∧
    (fmtG op d a imm).extractLsb' 18 4 = a ∧ (fmtG op d a imm).extractLsb' 0 18 = imm := fields₄ op d a imm

end

/-! ### The core's words -/

section
variable (op : BitVec 7) (d a b : Reg)

/-- A function code that holds a rounding mode (R68, R71). -/
theorem fmtA_rounding (rm : Rm) (f : BitVec 6) :
    (fmtA op d a b ((0 : BitVec 2) ++ rm ++ f)).extractLsb' 8 2 = 0 ∧
    (fmtA op d a b ((0 : BitVec 2) ++ rm ++ f)).extractLsb' 6 2 = rm ∧
    (fmtA op d a b ((0 : BitVec 2) ++ rm ++ f)).extractLsb' 0 6 = f := by
  obtain ⟨h8, h6, h0⟩ := fields₃ (0 : BitVec 2) rm f
  rw [fmtA_fn (h := by decide), fmtA_fn (h := by decide), fmtA_fn (h := by decide)]
  exact ⟨h8, h6, h0⟩

/-- A function code that holds a tag code (R67). -/
theorem fmtA_tagCode (f : BitVec 6) (t : BitVec 4) :
    (fmtA op d a b (f ++ t)).extractLsb' 4 6 = f ∧ (fmtA op d a b (f ++ t)).extractLsb' 0 4 = t := by
  obtain ⟨h4, h0⟩ := fields₂ f t
  rw [fmtA_fn (h := by decide), fmtA_fn (h := by decide)]
  exact ⟨h4, h0⟩

/-- The immediate of the shift group: the kind beside the amount (R66). -/
theorem decodeShi_fields (hi : BitVec 7) (kind : BitVec 2) (sh : BitVec 6) : decodeShi d a (hi ++ kind ++ sh) =
    match kind.toNat with
    | 0 => some (.slli d a sh hi)
    | 1 => some (.srli d a sh hi)
    | 2 => some (.srai d a sh hi)
    | _ => none := by
  obtain ⟨h8, h6, h0⟩ := fields₃ hi kind sh
  simp only [Nat.zero_add, Nat.reduceAdd] at h8 h6
  simp only [decodeShi, h8, h6, h0] <;> rfl

end

/-- The flags of TDR: four bits, read back one by one (R161). -/
theorem getLsbD_bit4 (b3 b2 b1 b0 : Bool) : (bit4 b3 b2 b1 b0).getLsbD 0 = b0 ∧ (bit4 b3 b2 b1 b0).getLsbD 1 = b1 ∧
    (bit4 b3 b2 b1 b0).getLsbD 2 = b2 ∧ (bit4 b3 b2 b1 b0).getLsbD 3 = b3 := by
  revert b3 b2 b1 b0
  decide

/-- R60 to R63: the word of a legal core instruction spells it, but for the rows that an abandoned transfer has moved. -/
theorem decodeCore_coreWord {i : Instr} {w : Half} (h : coreWord i = some w) (hl : i.legal = true) :
    decodeCore w = some i.uncut := by
  unfold decodeCore
  cases i with
  | add | sub | and | or | xor | sll | srl | sra | mul | mulh | mulhu | div | divu | rem | remu | min | max | minu | maxu
  | ceq | cne | clt | cltu | cle | cleu | cmovnz | cmovz | fence | fenceSt | ifence | ssync | tret | wait | yieldOp | keysw
  | ctxsvL | ctxsvU | ctxldL | ctxldU | sarm | srearm | sstat | scancel | bdecl | brel | bqry =>
    obtain ⟨hop, hd, ha, hb, hfn⟩ := fmtA_fields _ _ _ _ _
    rw [← Option.some.inj h, hop, hd, ha, hb, hfn]
    rfl
  | faddD | fsubD | fmulD | fdivD | fsqrtD | fmaddD | fmsubD | fnmaddD | fminD | fmaxD | fabsD | fnegD | fceqD | fcltD
  | fcleD | fcunD | faddS | fsubS | fmulS | fdivS | fsqrtS | fmaddS | fmsubS | fnmaddS | fminS | fmaxS | fabsS | fnegS
  | fceqS | fcltS | fcleS | fcunS | fcvtDI | fcvtDIu | fcvtID | fcvtIuD | fcvtSI | fcvtSIu | fcvtIS | fcvtIuS | fcvtDS
  | fcvtSD =>
    obtain ⟨hop, hd, ha, hb, -⟩ := fmtA_fields _ _ _ _ _
    obtain ⟨hhi, hrm, hf⟩ := fmtA_rounding _ _ _ _ _ _
    rw [← Option.some.inj h, hop, hd, ha, hb, hhi, hrm, hf]
    rfl
  | tagof | retag | mov =>
    obtain ⟨hop, hd, ha, hb, -⟩ := fmtA_fields _ _ _ _ _
    obtain ⟨hf, ht⟩ := fmtA_tagCode _ _ _ _ _ _
    rw [← Option.some.inj h, hop, hd, ha, hb, hf, ht]
    rfl
  | addi | andi | ori | xori | ceqi | clti | cltui | movi | orsh | ldI8 | ldI8u | ldI16 | ldI16u | ldI32 | ldI32u | ldI
  | ldF32 | ldF64 | ldVa | ldBa | ldSh | ldSd | ldW | stI8 | stI16 | stI32 | stI | jalr | srd | swr =>
    obtain ⟨hop, hd, ha, hi⟩ := fmtI_fields _ _ _ _
    rw [← Option.some.inj h, hop, hd, ha, hi]
    rfl
  | slli | srli | srai =>
    obtain ⟨hop, hd, ha, hi⟩ := fmtI_fields _ _ _ _
    rw [← Option.some.inj h, hop, hd, ha, hi]
    exact decodeShi_fields ..
  | trap d a n w =>
    cases w with
    | none =>
      obtain ⟨hop, hd, ha, hi⟩ := fmtI_fields _ _ _ _
      rw [← Option.some.inj h, hop, hd, ha, hi]
      rfl
    | some w => simp [Instr.legal] at hl
  | bz | bnz | jal =>
    obtain ⟨hop, ha, ho⟩ := fmtB_fields _ _ _
    rw [← Option.some.inj h, hop, ha, ho]
    rfl
  | opaT | opaM | opkT | opkM | tld | tldScale | tst | tstScale | tzf | tzfRelease | taw | tchk | tsync | tewQ | tewR | tewD
  | trunLoad | trunGoAt | trunStat =>
    obtain ⟨hop, hd, ha, hb, ht, hf⟩ := fmtT_fields _ _ _ _ _ _
    rw [← Option.some.inj h, hop, hd, ha, hb, ht, hf]
    rfl
  | tdr sh l r df ac clr bias xr xc =>
    obtain ⟨hop, hd, ha, hb, ht, hf⟩ := fmtT_fields 0x67 sh l r (df ++ ac) (bit4 xc xr bias clr)
    obtain ⟨h0, h1, h2, h3⟩ := getLsbD_bit4 xc xr bias clr
    have hdf : (df ++ ac).extractLsb' 3 3 = df := (fields₂ df ac).1
    have hac : (df ++ ac).extractLsb' 0 3 = ac := (fields₂ df ac).2
    rw [← Option.some.inj h, hop, hd, ha, hb, ht, hf]
    show some (Instr.tdr sh l r _ _ _ _ _ _) = _
    rw [hdf, hac, h0, h1, h2, h3]
    rfl
  | tdw sh l r clr =>
    obtain ⟨hop, hd, ha, hb, ht, hf⟩ := fmtT_fields _ _ _ _ _ _
    rw [← Option.some.inj h, hop, hd, ha, hb, ht, hf]
    cases clr <;> rfl
  | trunGo sh l r g =>
    obtain ⟨hop, hd, ha, hb, ht, hf⟩ := fmtT_fields _ _ _ _ _ _
    rw [← Option.some.inj h, hop, hd, ha, hb, ht, hf]
    cases g <;> rfl
  | _ => cases h

/-! ### The Groom's words -/

theorem decodeGroomShi_fields (t kind : BitVec 2) (d a : BitVec 4) (hi : BitVec 11) (sh : BitVec 5) :
    decodeGroomShi t d a (hi ++ kind ++ sh) =
      match kind.toNat with
      | 0 => some (.gSlli t d a sh hi)
      | 1 => some (.gSrli t d a sh hi)
      | 2 => some (.gSrai t d a sh hi)
      | _ => none := by
  obtain ⟨h7, h5, h0⟩ := fields₃ hi kind sh
  simp only [Nat.zero_add, Nat.reduceAdd] at h7 h5
  simp only [decodeGroomShi, h7, h5, h0] <;> rfl

/-- R394: the word of a legal instruction of the Groom spells it, for the thread that executes it. -/
theorem decodeGroom_groomWord {i : Instr} {w : Half} (h : groomWord i = some w) (hl : i.legal = true) :
    ∃ t, decodeGroom t w = some i := by
  unfold decodeGroom
  cases i with
  | gAdd | gSub | gAnd | gOr | gXor | gSll | gSrl | gSra | gSlt | gSltu | gMul | gMulhu | gDiv | gDivu | gRem | gRemu
  | gIret | gWfi =>
    obtain ⟨hop, hd, ha, hb, hfn⟩ := fmtR_fields _ _ _ _ _
    refine ⟨‹BitVec 2›, ?_⟩
    rw [← Option.some.inj h, hop, hd, ha, hb, hfn]
    rfl
  | gAddi | gAndi | gOri | gXori | gSlti | gSltui | gLui | gLdw | gLdhu | gLdbu | gStw | gSth | gStb | gBz | gBnz | gJl
  | gJlr =>
    obtain ⟨hop, hd, ha, hi⟩ := fmtG_fields _ _ _ _
    refine ⟨‹BitVec 2›, ?_⟩
    rw [← Option.some.inj h, hop, hd, ha, hi]
    rfl
  | gSlli t | gSrli t | gSrai t =>
    obtain ⟨hop, hd, ha, hi⟩ := fmtG_fields _ _ _ _
    refine ⟨t, ?_⟩
    rw [← Option.some.inj h, hop, hd, ha, hi]
    exact decodeGroomShi_fields ..
  | gSync t d a b w =>
    cases w with
    | none =>
      obtain ⟨hop, hd, ha, hb, hfn⟩ := fmtR_fields _ _ _ _ _
      refine ⟨t, ?_⟩
      rw [← Option.some.inj h, hop, hd, ha, hb, hfn]
      rfl
    | some w => simp [Instr.legal] at hl
  | _ => cases h

/-- Settles O59: the fields of each format are read back, and the op and the function code select the instruction. -/
theorem decodeOfEncode : Obligations.DecodeOfEncode := by
  unfold Obligations.DecodeOfEncode
  exact ⟨fun _ _ => decodeCore_coreWord, fun _ _ => decodeGroom_groomWord⟩

end Sys2Proof
end

section
/-! PROOFS. Trap entry (R53, R58, R88 to R90, R132). -/

namespace Sys2Proof

theorem Word.bits_eq_div (w : Word) (h l : Nat) : w.bits h l = w.toNat / 2 ^ l % 2 ^ (h + 1 - l) := by
  rw [Word.bits, Nat.shiftRight_eq_div_pow]

namespace Machine

/-! ### The steps of an entry -/

theorem Fetched.unitRequest (s : State) (line o : Nat) (bs : List Byte) (p : Bool) : Fetched s (s.unitRequest line o bs p) := by
  unfold State.unitRequest
  split
  · exact Fetched.refl s
  · exact .of_ma (State.maLines_ma ..)

/-- A write of memory by a unit within one line that has a target. -/
theorem unitWrite_line {s : State} {pa : Nat} {bs : List Byte} {p : Bool} {c : Option Nat} (hf : pa % 128 + bs.length ≤ 128)
    (hn : s.mem.noTarget.get false (pa / 128) = false) (hw : windowSpace (pa / 128) = false) :
    ∃ t, Fetched s t ∧ s.unitWrite pa bs p c = { t with mem := { s.mem with store := s.mem.store.write pa bs p } } := by
  have hpa : (Word.ofNat pa).toNat % 128 = pa % 128 := by
    rw [Word.ofNat, BitVec.toNat_ofNat]
    omega
  have hF := Fetched.unitRequest s (pa / 128) (pa % 128) bs p
  refine ⟨_, hF, ?_⟩
  simp only [State.unitWrite, splitParts, hpa, if_neg (show ¬ 128 - pa % 128 < bs.length by omega), List.foldl_cons,
    List.foldl_nil, Nat.add_zero, List.drop_zero, List.take_length, hF.mem, hn, hw, Bool.false_eq_true, if_false]

/-- A store of memory that has a target. -/
theorem memWrite_there {s : State} {pa : Nat} {bs : List Byte} {p st : Bool} {c : Option Nat} (h : s.mem.lost (pa / 128) = false) :
    let t := s.memWrite pa bs p st c
    t.mem = { s.mem with store := s.mem.store.write pa bs p } ∧ t.core.stalls = s.core.stalls ∧ ∀ n, t.ctx n = s.ctx n := by
  have hF := cacheAccess_fetched s .l1d (pa / 128) true st
  simp only [State.memWrite, h, Bool.false_eq_true, if_false]
  exact ⟨by rw [hF.mem], hF.accessed.stalls, hF.ctx⟩

theorem ctx_withMem (s : State) (m : HostMem) (n : Nat) : ({ s with mem := m } : State).ctx n = s.ctx n := rfl

/-- What the move of the tile status record to the save area header leaves (R88, R132). -/
theorem recordToHeader_pinned {s : State} {n p : Nat} (hp : (s.ctx n).pin = some p) :
    (s.recordToHeader n).core.stalls = s.core.stalls ∧ (s.recordToHeader n).ctx n = { s.ctx n with recf := false } ∧
    (s.recordToHeader n).mem =
      { s.mem with store := s.mem.store.copyChunks ((s.ctx n).framePa + 0x30) (headerPa p) 13 } := by
  simp only [State.recordToHeader, hp, State.modCtx, State.ctx_setCtx, ctx_withMem, true_and]
  exact ⟨rfl, rfl⟩

/-- The same with the frame's FLAGS cleared (R90). -/
theorem recordMoved {s : State} {n p : Nat} (hp : (s.ctx n).pin = some p) (ha : (s.ctx n).framePa % 256 = 0)
    (hn : s.mem.noTarget.get false (((s.ctx n).framePa + 0x28) / 128) = false)
    (hw : windowSpace (((s.ctx n).framePa + 0x28) / 128) = false) :
    let t := (s.recordToHeader n).writeFlags n 0
    t.core.stalls = s.core.stalls ∧ (t.ctx n).recf = false ∧ t.mem = { s.mem with
      store := (s.mem.store.copyChunks ((s.ctx n).framePa + 0x30) (headerPa p) 13).write ((s.ctx n).framePa + 0x28)
        (leBytes 8 0) false } := by
  obtain ⟨hs, hc, hm⟩ := recordToHeader_pinned hp
  have hfr : ((s.recordToHeader n).ctx n).framePa = (s.ctx n).framePa := by rw [hc]
  unfold State.writeFlags
  rw [hfr]
  generalize s.recordToHeader n = r at hs hc hm ⊢
  obtain ⟨t, hF, he⟩ := unitWrite_line (s := r) (pa := (s.ctx n).framePa + 0x28) (bs := leBytes 8 0) (p := false) (c := some n)
    (by rw [leBytes_length]; omega) (by rw [hm]; exact hn) hw
  rw [he]
  refine ⟨hF.accessed.stalls.trans hs, ?_, by rw [hm]⟩
  exact (congrArg Ctx.recf ((hF.ctx n).trans hc))

/-! ### The entry -/

theorem abandonWait_dispatch (s : State) (n : Nat) : (s.abandonWait n).core.stalls = s.core.stalls ∧
    (s.abandonWait n).mem = s.mem ∧ ((s.abandonWait n).ctx n).recf = (s.ctx n).recf := by
  refine ⟨rfl, rfl, ?_⟩
  simp only [State.abandonWait, State.modCtx, State.ctx_setCtx]
  rfl

/-- The registers of the stall after an entry, in the numbers of R53 and R58. -/
theorem enterTrap_eq (u : Stall) (code f : Nat) (tag : Tag) (alert : Bool) (tval pc : Word) :
    u.enterTrap (causeWord code f tag alert) tval pc = { u with
      tsp := u.tsp - 256, epc := pc, tval := tval, pc := u.tvec,
      cause := BitVec.ofNat 64 (code + f * 2 ^ 16 + tagCode tag * 2 ^ 20 + alert.toNat * 2 ^ 63),
      status := BitVec.ofNat 64 (1 + u.status.toNat % 2 * 2 + u.status.toNat / 4 % 2 * 8) } := by
  simp only [Stall.enterTrap, causeWord, Word.ofNat, Word.bits_eq_div, Nat.pow_zero, Nat.div_one, Nat.reduceAdd, Nat.reduceSub,
    Nat.reducePow]

/-- The entry of a context whose frame is translated to memory that has a target, after the state `s2` that the move of a tile
status record leaves. -/
theorem trapEntry_eq {s s1 : State} {n k code f : Nat} {tag : Tag} {alert : Bool} {tval pc : Word} {e : TlbEntry} {pa : Nat}
    (ha : ((s.stall k).tsp - 256).toNat % 256 = 0)
    (ht : translate { (s.stall k).xctx with sys := true } 2 false ((s.stall k).tsp - 256) (some n) s = .ok (e, pa) s1)
    (hm : s1.attr pa = 1) :
    s.trapEntry n k code f tag alert tval pc =
      (((((if (s1.ctx n).recf then (s1.recordToHeader n).writeFlags n 0 else s1).memWrite pa
        (frameBytes (s.stall k) (s.statusWord (s.stall k) (some n))) false e.st (some n)).abandonWait n).modCtx n
          fun x => { x with framePa := pa, fpv := true }).modStall k fun t =>
            t.enterTrap (causeWord code f tag alert) tval pc) := by
  have hb : ((s.stall k).tsp - 256).bits 7 0 = 0 := ha
  simp only [State.trapEntry, hb, ne_eq, not_true_eq_false, if_false, ht, hm]

/-- Settles O19: the entry moves the tile status record, writes the frame, and changes the registers of the stall. -/
theorem trapEntrySavesAndVectors : Obligations.TrapEntrySavesAndVectors := by
  unfold Obligations.TrapEntrySavesAndVectors
  intro s s1 n k code f tag alert tval pc e pa old ha hrec ht hm hl t u
  have hF : Fetched s s1 := (translate_fetches ..).of_ok _ _ ht
  obtain ⟨s2, hs2, hst, hrf, hmem⟩ : ∃ s2, s2 = (if (s1.ctx n).recf then (s1.recordToHeader n).writeFlags n 0 else s1) ∧
      s2.core.stalls = s.core.stalls ∧ (s2.ctx n).recf = false ∧ s2.mem = { s.mem with store :=
        if (s.ctx n).recf then
          (s.mem.store.copyChunks (old + 0x30) (headerPa ((s.ctx n).pin.getD 0)) 13).write (old + 0x28) (leBytes 8 0) false
        else s.mem.store } := by
    refine ⟨_, rfl, ?_⟩
    rw [hF.ctx]
    cases hr : (s.ctx n).recf with
    | false => exact ⟨hF.accessed.stalls, (congrArg Ctx.recf (hF.ctx n)).trans hr, hF.mem⟩
    | true =>
      obtain ⟨hpin, h256, hn, hw⟩ := hrec hr
      obtain ⟨p, hp⟩ := Option.isSome_iff_exists.mp hpin
      have h := recordMoved (s := s1) (n := n) (p := p)
      rw [hF.ctx, hF.mem, hF.accessed.stalls] at h
      rw [hp]
      exact h hp h256 hn hw
  have hlost : s2.mem.lost (pa / 128) = false := by
    rw [hmem, ← hl, hF.mem]
    rfl
  have he : t = _ := trapEntry_eq ha ht hm
  rw [← hs2] at he
  obtain ⟨hXm, hXs, hXc⟩ := memWrite_there (s := s2) (pa := pa) (p := false) (st := e.st) (c := some n)
    (bs := frameBytes (s.stall k) (s.statusWord (s.stall k) (some n))) hlost
  generalize s2.memWrite pa (frameBytes (s.stall k) (s.statusWord (s.stall k) (some n))) false e.st (some n) = X
    at hXm hXs hXc he
  obtain ⟨hWs, hWm, hWr⟩ := abandonWait_dispatch X n
  have hstall (j : Nat) : ((X.abandonWait n).modCtx n fun x => { x with framePa := pa, fpv := true }).stall j = s.stall j :=
    congrArg (fun m => Tbl.get Stall.fresh m j) (hWs.trans (hXs.trans hst))
  have hctx : t.ctx n = { (X.abandonWait n).ctx n with framePa := pa, fpv := true } := by
    rw [he]
    exact State.ctx_setCtx ..
  refine ⟨?_, ?_, ?_, fun j hj => ?_, ?_, ?_⟩
  · rw [he, State.modStall, State.stall_setStall, hstall, enterTrap_eq]
  · rw [hctx]
  · rw [hctx]
  · rw [he]
    exact (Tbl.get_set_other _ _ _ hj).trans (hstall j)
  · rw [hctx]
    exact hWr.trans (hXc n ▸ hrf)
  · rw [he]
    show (X.abandonWait n).mem.store = _
    rw [hWm, hXm, hmem]

end Machine
end Sys2Proof
end

section
/-! PROOFS. Return from a trap (R91, R132). -/

namespace Sys2Proof.Machine

theorem requireSystem_system {s : State} (i : Instr) (h : s.cur.sysMode = true) : requireSystem i s = .ok () s := by
  unfold requireSystem
  rw [get_bind, h]
  rfl

/-- A read of memory that delivers no poison has a target, and its bytes are memory's. -/
theorem memRead_bytes {s : State} {k : CacheId} {pa n : Nat} {st : Bool} {c : Option Nat}
    (h : (s.memRead k pa n st c).1.poison = false) : (s.memRead k pa n st c).1.bytes = s.mem.store.read pa n := by
  unfold State.memRead at h ⊢
  split at h
  · cases h
  · next hl => rw [if_neg hl]

/-- A part of the bytes read. -/
theorem read_drop_take (m : Store) {a n i k : Nat} (h : i + k ≤ n) : ((m.read a n).drop i).take k = m.read (a + i) k := by
  refine List.ext_getElem (by simp [Store.read]; omega) fun j h1 h2 => ?_
  simp [Store.read, Nat.add_assoc]

/-- The registers of the stall after a return through a frame of doublewords `w` below 2^64, in the numbers of R58 and R91. -/
theorem leaveTrap_eq (u : Stall) (v : Nat → Word) (w : Nat → Nat) (hv : ∀ i < 5, v i = Word.ofNat (w i)) (hw : w 4 < 2 ^ 64) :
    u.leaveTrap v = { u with
      tsp := BitVec.ofNat 64 (w 0), epc := BitVec.ofNat 64 (w 1) &&& ~~~3,
      cause := BitVec.ofNat 64 (w 2) &&& 0x8000000000F7FFFF, tval := BitVec.ofNat 64 (w 3), pc := u.epc,
      status := BitVec.ofNat 64 (u.status.toNat / 2 % 2 + w 4 / 2 % 2 * 2 + u.status.toNat / 8 % 2 * 4 + w 4 / 8 % 2 * 8) } := by
  have h4 : (BitVec.ofNat 64 (w 4)).toNat = w 4 := Nat.mod_eq_of_lt hw
  simp only [Stall.leaveTrap, hv 0 (by decide), hv 1 (by decide), hv 2 (by decide), hv 3 (by decide), hv 4 (by decide),
    Word.bits_eq_div, h4, causeMask, Word.ofNat, Nat.reduceAdd, Nat.reduceSub, Nat.reducePow]

/-- The return of a context whose frame is read without a fault. -/
theorem trapReturn_run {s1 s2 : State} {n : Nat} {e : TlbEntry} {pa : Nat} (hn : s1.curCtx = some n)
    (ha : s1.cur.tsp.toNat % 256 = 0)
    (ht : translate { s1.cur.xctx with sys := true } 1 false s1.cur.tsp (some n) s1 = .ok (e, pa) s2)
    (hm : s2.attr pa = 1) (hp : (s2.memRead .l1d pa 48 e.st (some n)).1.poison = false) :
    let r := s2.memRead .l1d pa 48 e.st (some n)
    trapReturn s1 = .ok (some s1.cur.epc)
      (((if (r.2.ctx n).fpv && (r.2.ctx n).recf then r.2.recordToHeader n else r.2).modCtx n
        fun x => { x with fpv := false, recf := false }).modCur fun t =>
          t.leaveTrap fun i => Word.ofNat (leNat ((r.1.bytes.drop (8 * i)).take 8))) := by
  have hb : s1.cur.tsp.bits 7 0 = 0 := ha
  unfold trapReturn
  rw [get_bind, if_neg (by rw [hb]; decide)]
  simp only [hn, ht]
  rw [set_bind, if_neg (by simp [hm]), set_bind, if_neg (by simp [hp])]
  rfl

/-- The dispatch that a change of a context keeps, where the context keeps its stall. -/
theorem curStall_modCtx (s : State) (n : Nat) (f : Ctx → Ctx) (h : ∀ x : Ctx, (f x).stall = x.stall) :
    (s.modCtx n f).curStall = s.curStall :=
  curStall_eq_of_dispatch rfl fun c => stall_ctx_setCtx (h _) c

theorem curStall_modCur (s : State) (f : Stall → Stall) : (s.modCur f).curStall = s.curStall := rfl

theorem cur_eq_of_stalls {s t : State} (hk : t.curStall = s.curStall) (hs : t.core.stalls = s.core.stalls) : t.cur = s.cur := by
  simp only [State.cur, State.stall, hk, hs]

theorem recordToHeader_curStall (s : State) (n : Nat) : (s.recordToHeader n).curStall = s.curStall := by
  have hm (m : HostMem) : ({ s with mem := m } : State).curStall = s.curStall := rfl
  simp only [State.recordToHeader]
  split
  · exact (curStall_modCtx _ n (fun e => { e with recf := false }) fun _ => rfl).trans (hm _)
  · exact curStall_modCtx _ n (fun e => { e with recf := false }) fun _ => rfl

theorem recordToHeader_stalls (s : State) (n : Nat) : (s.recordToHeader n).core.stalls = s.core.stalls := by
  simp only [State.recordToHeader]
  split <;> rfl

/-- Settles O20: the return moves a tile status record that lies in a valid frame, and restores the registers from the frame. -/
theorem tretRestores : Obligations.TretRestores := by
  unfold Obligations.TretRestores
  intro s s1 s2 n e pa hb hsys hn ha ht hm hp u w
  obtain ⟨hF, -⟩ := memRead_fetched hp
  have hrun := trapReturn_run hn ha ht hm hp
  have hF1 : Fetched s1 (s2.memRead .l1d pa 48 e.st (some n)).2 := ((translate_fetches ..).of_ok _ _ ht).trans hF
  have hbytes := memRead_bytes hp
  dsimp only at hrun
  generalize s2.memRead .l1d pa 48 e.st (some n) = r at hrun hF1 hF hbytes
  obtain ⟨g, t⟩ := r
  dsimp only at hrun hF1 hF hbytes
  obtain ⟨y, hy⟩ : ∃ y, y = if (t.ctx n).fpv && (t.ctx n).recf then t.recordToHeader n else t := ⟨_, rfl⟩
  rw [← hy] at hrun
  have hstalls : y.core.stalls = s1.core.stalls := by
    rw [hy, apply_ite (fun x : State => x.core.stalls), recordToHeader_stalls, ite_self, hF1.accessed.stalls]
  have hcur : y.curStall = s1.curStall := by
    rw [hy, apply_ite State.curStall, recordToHeader_curStall, ite_self, hF1.curStall]
  have hmem : y.mem = match (s1.ctx n).pin with
      | some p => if (s1.ctx n).fpv ∧ (s1.ctx n).recf then
          { s2.mem with store := s2.mem.store.copyChunks ((s1.ctx n).framePa + 0x30) (headerPa p) 13 } else s2.mem
      | none => s2.mem := by
    rw [hy, hF1.ctx, ← hF.mem]
    cases hpin : (s1.ctx n).pin with
    | none =>
      have hx : (t.recordToHeader n).mem = t.mem := by
        simp only [State.recordToHeader, hF1.ctx, hpin]
        rfl
      split
      · exact hx
      · rfl
    | some p =>
      have hx := (recordToHeader_pinned (s := t) (n := n) (p := p) (by rw [hF1.ctx, hpin])).2.2
      rw [hF1.ctx] at hx
      by_cases hc : (s1.ctx n).fpv = true ∧ (s1.ctx n).recf = true
      · simp only [hc, and_self, Bool.and_self, if_true, hx]
      · rw [if_neg (by simpa using hc)]
        exact (if_neg hc).symm
  have hz : (y.modCtx n fun x => { x with fpv := false, recf := false }).curStall = s1.curStall :=
    (curStall_modCtx y n (fun x => { x with fpv := false, recf := false }) fun _ => rfl).trans hcur
  refine ⟨_, coreStep_ok hb ((bind_of_ok (requireSystem_system _ hsys)).trans hrun), ?_, ?_, hmem,
    hz.trans (issued_dispatch hb.2).1, ?_⟩
  · exact congrArg Ctx.fpv (State.ctx_setCtx ..)
  · exact congrArg Ctx.recf (State.ctx_setCtx ..)
  · rw [State.cur_modCur, cur_eq_of_stalls hz hstalls]
    have hw : w 4 < 2 ^ 64 := by
      have h := leNat_lt (s2.mem.store.read (pa + 8 * 4) 8)
      simp only [Store.read, List.length_map, List.length_range] at h
      exact h
    refine leaveTrap_eq _ _ w (fun i hi => ?_) hw
    rw [hbytes, read_drop_take _ (by omega)]

end Sys2Proof.Machine
end

section
/-! PROOFS. The context group (R274, R275). -/

namespace Sys2Proof.Machine

theorem loadableCtx_free {s : State} {c : Nat} (h : (s.ctx c).started = true) (hn : (s.ctx c).stall = none) :
    loadableCtx c s = .ok () s := by
  unfold loadableCtx
  rw [get_bind, if_neg (by simp [h, hn])]
  rfl

/-- Settles O22: each instruction's meaning, on operands that pass its checks. -/
theorem contextGroupMovesStalls : Obligations.ContextGroupMovesStalls := by
  unfold Obligations.ContextGroupMovesStalls
  intro a b s s1 s2 va v c ps h ar ready
  refine ⟨?_, ?_, ?_, ?_⟩
  · rintro ⟨hb, ho, hp⟩ hs
    refine coreStep_ok hb ((bind_of_ok ho).trans ((bind_of_ok hs).trans ((bind_of_ok hp).trans ?_)))
    rfl
  · rintro ⟨hb, ho, hp⟩ hs hl
    refine coreStep_ok hb ((bind_of_ok ho).trans ((bind_of_ok hs).trans ?_))
    rw [get_bind, if_neg (by simp [hl])]
    exact (bind_of_ok hp).trans rfl
  · rintro ⟨hb, ho, hp⟩ hs har hbad hhalf hc s3 hst hn
    refine coreStep_ok hb ((bind_of_ok ho).trans ((bind_of_ok hs).trans ((bind_of_ok hp).trans ?_)))
    have hr : readAreaParts ps s2 = (ar, s3) := Prod.ext har rfl
    clear_value s3
    rw [get_bind, hr]
    dsimp only
    rw [set_bind, if_neg (by simp [hbad]), if_neg (by simp [hhalf]), hc]
    exact (bind_of_ok (loadableCtx_free hst hn)).trans rfl
  · rintro ⟨hb, ho, hp⟩ hs hl har hbad hhalf hc s3 hst hn
    refine coreStep_ok hb ((bind_of_ok ho).trans ((bind_of_ok hs).trans ?_))
    rw [hl]
    refine (bind_of_ok hp).trans ?_
    have hr : readAreaParts ps s2 = (ar, s3) := Prod.ext har rfl
    clear_value s3
    rw [get_bind, hr]
    dsimp only
    rw [set_bind, if_neg (by simp [hbad]), if_neg (by simp [hhalf, hc])]
    exact (bind_of_ok (loadableCtx_free hst hn)).trans rfl

end Sys2Proof.Machine
end

section
/-! PROOFS. The step of a Groom instruction, and its branches, jumps, SYNC, WFI and IRET (R394, R396, R400 to R408). -/

namespace Sys2Proof.Machine

/-! ### The step of an instruction that begins -/

section
variable {t : BitVec 2} {s s1 s2 : State} {h : GThread} {body : State → GThread → GOut}

theorem groomStep_begins (legal : Bool) (hb : GBegins t s s1 h) : groomStep t legal body s =
    .next (if legal then (body s1 h).apply t.toNat h.pc s1 else s1.groomFault t.toNat 1 none) := by
  obtain ⟨hl, hc, hf, h1, h2⟩ := hb
  exact groomStep_next s hl hc hf h1 h2

/-- The Groom has not been restarted, nor halted, since `s1`. -/
def GroomSame (s1 s2 : State) : Prop := s2.ras.restarts = s1.ras.restarts ∧ s2.groom.halted = s1.groom.halted

theorem gRestarted_of_same (hs : GroomSame s1 s2) : gRestarted s1 s2 = false := by
  simp [gRestarted, hs.1, hs.2]

theorem groomStep_done (hb : GBegins t s s1 h) (hs : GroomSame s1 s2) (hr : body s1 h = .done s2) :
    groomStep t true body s = .next (GAfter t h s2 none) := by
  rw [groomStep_begins true hb, if_pos rfl, hr, GOut.apply, gRestarted_of_same hs]
  rfl

theorem groomStep_jump {npc : Half} (hb : GBegins t s s1 h) (hs : GroomSame s1 s2) (hr : body s1 h = .jump s2 npc) :
    groomStep t true body s = .next (GAfter t h s2 (some npc)) := by
  rw [groomStep_begins true hb, if_pos rfl, hr, GOut.apply, gRestarted_of_same hs]
  rfl

theorem groomStep_hold (hb : GBegins t s s1 h) (hr : body s1 h = .hold s2) : groomStep t true body s = .next (Held s1 s2) := by
  rw [groomStep_begins true hb, if_pos rfl, hr]
  rfl

theorem groomStep_fault {code : Nat} {addr : Option Half} (hb : GBegins t s s1 h) (hr : body s1 h = .fault code addr) :
    groomStep t true body s = .next (s1.groomFault t.toNat code addr) := by
  rw [groomStep_begins true hb, if_pos rfl, hr]
  rfl

end

/-! ### Operations that neither restart nor halt the Groom -/

section
variable {s s1 s2 s3 : State}

theorem GroomSame.refl (s : State) : GroomSame s s := ⟨rfl, rfl⟩

theorem GroomSame.trans (h : GroomSame s1 s2) (h' : GroomSame s2 s3) : GroomSame s1 s3 :=
  ⟨h'.1.trans h.1, h'.2.trans h.2⟩

theorem GroomSame.of_eq (hr : s2.ras = s1.ras) (hh : s2.groom.halted = s1.groom.halted) : GroomSame s1 s2 :=
  ⟨congrArg Ras.restarts hr, hh⟩

theorem foldl_halted {α : Type} {f : State → α → State} (hf : ∀ s x, (f s x).groom.halted = s.groom.halted) (xs : List α)
    (s : State) : (xs.foldl f s).groom.halted = s.groom.halted :=
  foldl_keeps (P := fun u : State => u.groom.halted = s.groom.halted) (fun u x hu => (hf u x).trans hu) xs s rfl

theorem gWrite_same (s : State) (t d : Nat) (v : Half) (k : Nat) : GroomSame s (s.gWrite t d v k) := by
  unfold State.gWrite
  split <;> exact ⟨rfl, rfl⟩

theorem gRunBits_halted (s : State) (v : Half) : (s.gRunBits v).groom.halted = s.groom.halted := by
  refine foldl_halted (fun u i => ?_) _ s
  dsimp only
  split
  · rfl
  · split <;> rfl

theorem gExtCfg_halted (s : State) (v : Half) : (s.gExtCfg v).groom.halted = s.groom.halted := by
  simp only [State.gExtCfg]
  split <;> split <;> rfl

theorem gThreaded_halted (s : State) : s.gThreaded.groom.halted = s.groom.halted := by
  refine foldl_halted (fun u i => ?_) (List.range 3) (s.modGthread 0 GThread.settleAll)
  dsimp only
  split <;> rfl

theorem gComplete_halted (s : State) (off : Nat) (v : Half) : (s.gComplete off v).groom.halted = s.groom.halted := by
  simp only [State.gComplete, apply_ite (fun x : State => x.groom.halted), gRunBits_halted, gExtCfg_halted, gThreaded_halted,
    State.modGthread, State.setGthread, ite_self]

theorem gSync_same (s : State) (t : Nat) : GroomSame s (s.gSync t) :=
  .of_eq (State.gSync_ras s t) (by
    simp only [State.gSync]
    refine (foldl_halted (fun u k => ?_) _ _).trans rfl
    exact foldl_halted (fun u (e : Nat × Half) => gComplete_halted u e.1 e.2) _ u)

theorem gUnstack_same (s : State) (t a : Nat) : GroomSame s (s.gUnstack t a).1 := ⟨rfl, rfl⟩

theorem gChainTo_same (s : State) (t n : Nat) : GroomSame s (s.gChainTo t n).1 := by
  simp only [State.gChainTo]
  split <;> split <;> exact ⟨rfl, rfl⟩

end

/-! ### Registers of a thread -/

/-- The thread that completes with a taken branch. -/
theorem gthread_GAfter_jump (t : BitVec 2) (h : GThread) (s : State) (npc : Half) :
    (GAfter t h s (some npc)).gthread t.toNat = { s.gthread t.toNat with pc := npc, queue := [] } := by
  simp only [GAfter, State.gAdvance]
  split <;> exact State.gthread_setGthread ..

/-- What IRET restores from the frame at `a` (R405). -/
theorem gthread_gUnstack (s : State) (t a : Nat) :
    let u := (s.gUnstack t a).1.gthread t
    let w := fun i => s.gWord (a + 4 * i)
    u.level = (w 7).toNat % 32 ∧ u.ie = (w 7).getLsbD 5 ∧ u.reg 0 = w 0 ∧ u.reg 1 = w 1 ∧ u.reg 2 = w 2 ∧ u.reg 3 = w 3 ∧
    u.reg 13 = w 4 ∧ u.reg 14 = w 5 ∧ u.reg 15 = BitVec.ofNat 32 (a + 32) := by
  have hg : (s.gUnstack t a).1.gthread t = _ := State.gthread_setGthread ..
  rw [hg]
  refine ⟨rfl, rfl, ?_, ?_, ?_, ?_, ?_, ?_, ?_⟩ <;>
    simp [GThread.reg, GThread.setReg, Tbl.get_set_other]

/-- A branch that is taken where register a is zero, or where it is not. -/
theorem groomStep_branch {t : BitVec 2} {s s1 : State} {h : GThread} (a : BitVec 4) (imm : BitVec 18) (zero : Bool)
    (hb : GBegins t s s1 h) : groomStep t true (gBranch a imm zero) s =
      .next (GAfter t h s1 (if (h.reg a.toNat = 0) = (zero = true) then some (gTarget h.pc imm) else none)) := by
  by_cases hx : (h.reg a.toNat = 0) = (zero = true)
  · rw [if_pos hx]
    exact groomStep_jump hb (.refl s1) (if_pos hx)
  · rw [if_neg hx]
    exact groomStep_done hb (.refl s1) (if_neg hx)

section
variable {t : BitVec 2} {s s1 : State} {h : GThread}

theorem iret_badFrame (hb : GBegins t s s1 h) (hf : h.frameThere = false) : Machine.exec (.gIret t 0 0 0) s =
    .next (Held s1 ((s1.modGthread t.toNat fun u => { u with causeCode := 6 }).gMachineCheck t.toNat)) :=
  groomStep_hold hb (if_pos (by simp [hf]))

/-- The state in which IRET reads its frame: the pending writes are completed and every result is written. -/
def iretState (t : Nat) (s1 : State) : State := (s1.gSync t).modGthread t GThread.settleAll

theorem iretState_same (t : Nat) (s1 : State) : GroomSame s1 (iretState t s1) := (gSync_same s1 t).trans ⟨rfl, rfl⟩

theorem iret_denied {x : Nat} (hb : GBegins t s s1 h) (hf : h.frameThere = true)
    (hd : h.frameDenied false (h.reg 15).toNat = some x) :
    Machine.exec (.gIret t 0 0 0) s = .next (s1.groomFault t.toNat 4 (some (BitVec.ofNat 32 x))) := by
  refine groomStep_fault hb ?_
  simp only [gIretBody, hf, hd]
  rfl

theorem iret_frameBad {e : Ecc} (hb : GBegins t s s1 h) (hf : h.frameThere = true)
    (hd : h.frameDenied false (h.reg 15).toNat = none) (he : (iretState t.toNat s1).gFrameBad (h.reg 15).toNat = some e) :
    Machine.exec (.gIret t 0 0 0) s = .next (Held s1 (s1.gBadMet t.toNat e)) := by
  refine groomStep_hold hb ?_
  simp only [iretState] at he
  simp only [gIretBody, hf, hd, he]
  rfl

/-- R404: the state in which IRET chooses what comes next: a machine check handler has ended. -/
def iretEnded (t : Nat) (sp : Half) (s2 : State) : State :=
  if s2.gEndsMc t sp then { s2 with groom := { s2.groom with inMc := false } } else s2

theorem iretEnded_same (t : Nat) (sp : Half) (s2 : State) : GroomSame s2 (iretEnded t sp s2) := by
  unfold iretEnded
  split <;> exact ⟨rfl, rfl⟩

theorem gWord_iretEnded (t : Nat) (sp : Half) (s2 : State) (a : Nat) : (iretEnded t sp s2).gWord a = s2.gWord a := by
  unfold iretEnded
  split <;> rfl

theorem gPrio_iretEnded (t : Nat) (sp : Half) (s2 : State) (n : Nat) : (iretEnded t sp s2).gPrio n = s2.gPrio n := by
  unfold iretEnded
  split <;> rfl

theorem gthread_iretEnded (t : Nat) (sp : Half) (s2 : State) (n : Nat) : (iretEnded t sp s2).gthread n = s2.gthread n := by
  unfold iretEnded
  split <;> rfl

/-- The source that IRET enters in place of the context that it would restore. -/
def iretNext (t : Nat) (sp : Half) (s2 : State) : Option Nat :=
  (iretEnded t sp s2).gNext t ((s2.gWord (sp.toNat + 28)).toNat % 32) ((s2.gWord (sp.toNat + 28)).getLsbD 5)

section
variable (hb : GBegins t s s1 h) (hf : h.frameThere = true) (hd : h.frameDenied false (h.reg 15).toNat = none)
  (he : (iretState t.toNat s1).gFrameBad (h.reg 15).toNat = none)
include hb hf hd he

theorem iret_restarts (hm : (iretState t.toNat s1).gEndsMc t.toNat (h.reg 15) = true)
    (hp : (iretState t.toNat s1).groom.ipend.bit 33 = true) :
    Machine.exec (.gIret t 0 0 0) s = .next (Held s1 ((iretState t.toNat s1).groomRestart 2 t.toNat)) := by
  refine groomStep_hold hb ?_
  simp only [iretState] at he hm hp
  simp only [gIretBody, hf, hd, he, hm, hp]
  rfl

variable (hm : (iretState t.toNat s1).gEndsMc t.toNat (h.reg 15) = false ∨ (iretState t.toNat s1).groom.ipend.bit 33 = false)
include hm

omit hb in
/-- The meaning of IRET whose frame is read and which does not restart the Groom. -/
theorem gIretBody_next : gIretBody t.toNat s1 h =
    match iretNext t.toNat (h.reg 15) (iretState t.toNat s1) with
    | some n =>
      match (iretState t.toNat s1).gVectorBad t.toNat n with
      | some s3 => .hold s3
      | none => .jump ((iretEnded t.toNat (h.reg 15) (iretState t.toNat s1)).gChainTo t.toNat n).1
          ((iretEnded t.toNat (h.reg 15) (iretState t.toNat s1)).gChainTo t.toNat n).2
    | none => .jump ((iretEnded t.toNat (h.reg 15) (iretState t.toNat s1)).gUnstack t.toNat (h.reg 15).toNat).1
        ((iretEnded t.toNat (h.reg 15) (iretState t.toNat s1)).gUnstack t.toNat (h.reg 15).toNat).2 := by
  have hc : ((iretState t.toNat s1).gEndsMc t.toNat (h.reg 15) && (iretState t.toNat s1).groom.ipend.bit 33) = false := by
    obtain h0 | h0 := hm
    · rw [h0, Bool.false_and]
    · rw [h0, Bool.and_false]
  simp only [iretNext, iretEnded]
  simp only [iretState] at he hc ⊢
  simp only [gIretBody, hf, hd, he, hc]
  rfl

theorem iret_unstacks (hn : iretNext t.toNat (h.reg 15) (iretState t.toNat s1) = none) :
    Machine.exec (.gIret t 0 0 0) s = .next (GAfter t h
      ((iretEnded t.toNat (h.reg 15) (iretState t.toNat s1)).gUnstack t.toNat (h.reg 15).toNat).1
      (some ((iretEnded t.toNat (h.reg 15) (iretState t.toNat s1)).gUnstack t.toNat (h.reg 15).toNat).2)) := by
  refine groomStep_jump hb ?_ ?_
  · exact (iretState_same ..).trans ((iretEnded_same ..).trans (gUnstack_same ..))
  · rw [gIretBody_next hf hd he hm, hn]

theorem iret_chains {n : Nat} (hn : iretNext t.toNat (h.reg 15) (iretState t.toNat s1) = some n)
    (hv : (iretState t.toNat s1).gVectorBad t.toNat n = none) :
    Machine.exec (.gIret t 0 0 0) s = .next (GAfter t h
      ((iretEnded t.toNat (h.reg 15) (iretState t.toNat s1)).gChainTo t.toNat n).1
      (some ((iretEnded t.toNat (h.reg 15) (iretState t.toNat s1)).gChainTo t.toNat n).2)) := by
  refine groomStep_jump hb ?_ ?_
  · exact (iretState_same ..).trans ((iretEnded_same ..).trans (gChainTo_same ..))
  · simp only [gIretBody_next hf hd he hm, hn, hv]

theorem iret_vectorBad {n : Nat} {r : State} (hn : iretNext t.toNat (h.reg 15) (iretState t.toNat s1) = some n)
    (hv : (iretState t.toNat s1).gVectorBad t.toNat n = some r) :
    Machine.exec (.gIret t 0 0 0) s = .next (Held s1 r) := by
  refine groomStep_hold hb ?_
  simp only [gIretBody_next hf hd he hm, hn, hv]

end

end

/-- The thread that a chained IRET leaves (R402, R405). -/
theorem gthread_gChainTo (s : State) (t n : Nat) :
    let u := (s.gChainTo t n).1.gthread t
    u.causeSrc = n ∧ u.level = s.gPrio n ∧ u.reg 15 = (s.gthread t).reg 15 ∧
    (s.gChainTo t n).2 = s.gWord ((s.gthread t).vbase.toNat + 4 * n) := by
  have hu : (s.gChainTo t n).1.gthread t =
      { s.gthread t with level := s.gPrio n, causeSrc := n, entered := some n, queue := [] } := by
    simp only [State.gChainTo]
    split <;> split <;> exact Tbl.get_set_same ..
  have hpc : (s.gChainTo t n).2 = s.gWord ((s.gthread t).vbase.toNat + 4 * n) := by
    simp only [State.gChainTo]
    split <;> rfl
  rw [hu]
  exact ⟨rfl, rfl, rfl, hpc⟩

/-- Settles O53: branches and jumps, SYNC and a word without a row, WFI, and IRET by what its frame holds. -/
theorem groomControlFlow : Obligations.GroomControlFlow := by
  unfold Obligations.GroomControlFlow
  intro t d a b imm word s s1 h hb x target jump
  refine ⟨?_, ?_, groomStep_jump hb (gWrite_same ..) rfl, fun hj => ?_, fun hj => ?_, groomStep_done hb (gSync_same ..) rfl,
    fun hs => ?_, groomStep_done hb ⟨rfl, rfl⟩ rfl, iret_badFrame hb, ?_⟩
  · refine (groomStep_branch a imm true hb).trans ?_
    simp only [eq_iff_iff, iff_true]
    rfl
  · refine (groomStep_branch a imm false hb).trans ?_
    simp only [eq_iff_iff, Bool.false_eq_true, iff_false]
    rfl
  · exact groomStep_jump hb (gWrite_same ..) (if_neg (not_not_intro hj))
  · exact groomStep_fault hb (if_pos hj)
  · show (if !(Instr.gSync t d a b (some word)).spells then _ else groomStep t _ _ s) = _
    rw [if_neg (by simp [hs]), groomStep_begins _ hb, if_neg (by simp)]
  · intro s2 f w ends s3 next hf
    refine ⟨fun x => iret_denied hb hf, fun hd => ⟨fun e => iret_frameBad hb hf hd, fun he => iret_restarts hb hf hd he,
      fun he hm hn => ⟨_, iret_unstacks hb hf hd he hm hn, ?_⟩, fun n he hm hn hv => ⟨_, iret_chains hb hf hd he hm hn hv, ?_⟩,
      fun n r he hm hn => iret_vectorBad hb hf hd he hm hn⟩⟩
    · have hu := gthread_gUnstack (iretEnded t.toNat f s2) t.toNat f.toNat
      simp only [gWord_iretEnded] at hu
      rw [gthread_GAfter_jump]
      exact ⟨gWord_iretEnded .., hu⟩
    · obtain ⟨hsrc, hlv, h15, hpc⟩ := gthread_gChainTo (iretEnded t.toNat f s2) t.toNat n
      rw [gWord_iretEnded, gthread_iretEnded] at hpc
      rw [gPrio_iretEnded] at hlv
      rw [gthread_iretEnded] at h15
      rw [gthread_GAfter_jump]
      exact ⟨hpc, hsrc, hlv, h15⟩

end Sys2Proof.Machine
end

section
/-! PROOFS. The loads and stores of the Groom by region (R387 to R392, R399). -/

namespace Sys2Proof.Machine

/-! ### Reads and writes of the Groom within one line of memory -/

section
variable {s : State} {pa n : Nat} {c : Option Nat}

theorem splitParts_line (hf : pa % 128 + n ≤ 128) : splitParts (Word.ofNat pa) n = [(0, n)] := by
  have hpa : (Word.ofNat pa).toNat % 128 = pa % 128 := by
    rw [Word.ofNat, BitVec.toNat_ofNat]
    omega
  simp only [splitParts, hpa, if_neg (show ¬ 128 - pa % 128 < n by omega)]

theorem unitRead_there (hf : pa % 128 + n ≤ 128) (hl : s.mem.lost (pa / 128) = false) :
    s.unitRead pa n c = (s.mem.store.read pa n, s.mem.store.poisoned pa n, s.readRequests [pa / 128]) := by
  simp [State.unitRead, splitParts_line hf, hl]

theorem unitRead_lost (hf : pa % 128 + n ≤ 128) (hl : s.mem.lost (pa / 128) = true) :
    s.unitRead pa n c = (List.replicate n 0, true, (s.readRequests [pa / 128]).noTargetRecord pa c) := by
  simp [State.unitRead, splitParts_line hf, hl]

theorem readRequests_same (s : State) (ls : List Nat) : GroomSame s (s.readRequests ls) := by
  rw [State.readRequests_ports]
  exact .refl s

theorem noTargetRecord_same (s : State) (pa : Nat) (c : Option Nat) : GroomSame s (s.noTargetRecord pa c) := by
  unfold State.noTargetRecord GroomSame
  rw [record_ras, record_groom]
  split <;> exact ⟨rfl, rfl⟩

theorem modGthread_same (s : State) (t : Nat) (f : GThread → GThread) : GroomSame s (s.modGthread t f) := ⟨rfl, rfl⟩

theorem gStore_same (s : State) (a n v : Nat) : GroomSame s (s.gStore a n v) := by
  unfold State.gStore
  dsimp only
  split
  · split <;> exact ⟨rfl, rfl⟩
  · split <;> exact ⟨rfl, rfl⟩
  · exact .refl s

theorem gAdvance_mem (s : State) (b : Bool) : (s.gAdvance b).mem = s.mem := by
  unfold State.gAdvance
  split <;> rfl

theorem gAdvance_gthread (s : State) (b : Bool) (t : Nat) : (s.gAdvance b).gthread t = s.gthread t := by
  unfold State.gAdvance
  split <;> rfl

theorem GAfter_mem (t : BitVec 2) (h : GThread) (s : State) (npc : Option Half) : (GAfter t h s npc).mem = s.mem :=
  gAdvance_mem ..

theorem gthread_GAfter_gHold (t : BitVec 2) (h : GThread) (s : State) (dest : Option (Nat × Half)) :
    ((GAfter t h (s.gHold t.toNat dest) none).gthread t.toNat).held = some ⟨dest⟩ := by
  rw [GAfter, gAdvance_gthread, State.modGthread, State.gthread_setGthread, State.gHold, State.modGthread,
    State.gthread_setGthread]

theorem leNat_zeros (n : Nat) : leNat (List.replicate n 0) = 0 := by
  induction n with
  | zero => rfl
  | succ n ih => rw [List.replicate_succ, leNat, ih]; rfl

end

/-- An access of the window of 1, 2 or 4 bytes, which is aligned, lies in one line. -/
theorem xwin_line {n x va : Nat} (hn : n = 1 ∨ n = 2 ∨ n = 4) (ha : va % n = 0) (hr : gRegion va = .window) :
    (x * 2 ^ 28 + (va - 0x80000000)) % 128 + n ≤ 128 := by
  have h8 : 0x80000000 ≤ va := by
    revert hr
    unfold gRegion
    repeat' split
    all_goals simp_all
  obtain rfl | rfl | rfl := hn <;> omega

theorem dataFault_aligned {h : GThread} {w : Bool} {va n : Nat} {x : Half} (hf : h.dataFault w va n x = none) : va % n = 0 := by
  refine Decidable.byContradiction fun hm => ?_
  rw [GThread.dataFault, if_pos hm] at hf
  cases hf

theorem dataFault_misaligned (h : GThread) (w : Bool) (va n : Nat) (x : Half) : va % n = 0 ∨ h.dataFault w va n x = some 2 :=
  (Decidable.em (va % n = 0)).imp_right fun hm => if_pos hm

/-! ### The body of a load and of a store -/

section
variable {t : BitVec 2} {d a : BitVec 4} {imm : BitVec 18} {n va off pa : Nat} {s : State} {h : GThread}

/-- R387, R399: a load, by its fault and its region. -/
theorem gLoad_eq (hva : (h.reg a.toNat + gSext imm).toNat = va) (hoff : va - 0x40000000 = off) : gLoad t d a imm n s h =
    match h.dataFault false va n 0 with
    | some code => .fault code (some (BitVec.ofNat 32 va))
    | none =>
      match gRegion va with
      | .control =>
        match s.gctlRead off with
        | some v => .done (s.gWrite t.toNat d.toNat v 2)
        | none => .fault 3 (some (BitVec.ofNat 32 va))
      | .aperture => gApLoad t.toNat d.toNat va s
      | .window => gWinLoad t.toNat d.toNat va n s
      | _ =>
        match s.gBad va with
        | some e => .hold (s.gBadMet t.toNat e)
        | none => .done (s.gWrite t.toNat d.toNat (BitVec.ofNat 32 (s.gRead va n)) 2) := by
  obtain ⟨gctlRead, hctl⟩ : ∃ f, f = State.gctlRead := ⟨_, rfl⟩
  generalize hf : gLoad t d a imm n = f
  delta gLoad at hf
  rw [← hctl] at hf ⊢
  subst hf
  dsimp -zeta -iota -proj only
  rw [hva]
  dsimp only
  simp only [hoff] <;> rfl

/-- R387, R399: a store, by its fault and its region. -/
theorem gStoreInsn_eq (hva : (h.reg a.toNat + gSext imm).toNat = va) (hoff : va - 0x40000000 = off) : gStoreInsn t d a imm n s h =
    match h.dataFault true va n (h.reg d.toNat) with
    | some code => .fault code (some (BitVec.ofNat 32 va))
    | none =>
      match gRegion va with
      | .control =>
        match s.gctlWrite t.toNat off (s.extValue h off (h.reg d.toNat)) with
        | some s1 => .done s1
        | none => .fault 3 (some (BitVec.ofNat 32 va))
      | .aperture => gApStore t.toNat va (h.reg d.toNat) s
      | .window => .done ((s.unitWrite (s.xwinPa va) (leBytes n (h.reg d.toNat).toNat) false none).gHold t.toNat none)
      | _ => .done (s.gStore va n (h.reg d.toNat).toNat) := by
  obtain ⟨gctlWrite, hctl⟩ : ∃ f, f = State.gctlWrite := ⟨_, rfl⟩
  generalize hf : gStoreInsn t d a imm n = f
  delta gStoreInsn at hf
  rw [← hctl] at hf ⊢
  subst hf
  dsimp -zeta -iota -proj only
  rw [hva]
  dsimp only
  simp only [hoff] <;> rfl

/-- R392: a load through the window. -/
theorem gWinLoad_eq {tn dn : Nat} (hpa : s.xwinPa va = pa) : gWinLoad tn dn va n s =
    let r := s.unitRead pa n none
    if r.2.1 && !s.mem.lost (pa / 128) then .faulted (r.2.2.groomFault tn 5 (some (BitVec.ofNat 32 va)))
    else .done (r.2.2.gHold tn (some (dn, BitVec.ofNat 32 (leNat r.1)))) := by
  generalize hf : gWinLoad tn dn va n = f
  delta gWinLoad at hf
  generalize hx : State.xwinPa = xwinPa at hf hpa
  subst hf
  dsimp -zeta -iota -proj only
  rw [hpa]

variable {s1 s2 : State} (hva : (h.reg a.toNat + gSext imm).toNat = va)
include hva

/-! ### Loads -/

section
variable (hb : GBegins t s s1 h)
include hb

theorem groomLoad_fault {code : Nat} (hf : h.dataFault false va n 0 = some code) :
    groomStep t true (gLoad t d a imm n) s = .next (s1.groomFault t.toNat code (some (BitVec.ofNat 32 va))) :=
  groomStep_fault hb (by rw [gLoad_eq hva rfl, hf])

theorem groomStore_fault {code : Nat} (hf : h.dataFault true va n (h.reg d.toNat) = some code) :
    groomStep t true (gStoreInsn t d a imm n) s = .next (s1.groomFault t.toNat code (some (BitVec.ofNat 32 va))) :=
  groomStep_fault hb (by rw [gStoreInsn_eq hva rfl, hf])

section
variable (hf : h.dataFault false va n 0 = none)
include hf

theorem groomLoad_memory (hr : gRegion va = .rom ∨ gRegion va = .iram ∨ gRegion va = .dram) (hg : s1.gBad va = none) :
    groomStep t true (gLoad t d a imm n) s =
      .next (GAfter t h (s1.gWrite t.toNat d.toNat (BitVec.ofNat 32 (s1.gRead va n)) 2) none) := by
  refine groomStep_done hb (gWrite_same ..) ?_
  rw [gLoad_eq hva rfl, hf]
  obtain hr | hr | hr := hr <;> rw [hr] <;> dsimp only <;> rw [hg]

theorem groomLoad_badMemory (hr : gRegion va = .rom ∨ gRegion va = .iram ∨ gRegion va = .dram) {e : Ecc}
    (hg : s1.gBad va = some e) : groomStep t true (gLoad t d a imm n) s = .next (Held s1 (s1.gBadMet t.toNat e)) := by
  refine groomStep_hold hb ?_
  rw [gLoad_eq hva rfl, hf]
  obtain hr | hr | hr := hr <;> rw [hr] <;> dsimp only <;> rw [hg]

theorem groomLoad_control (hr : gRegion va = .control) (hoff : va - 0x40000000 = off) {v : Half}
    (hv : s1.gctlRead off = some v) :
    groomStep t true (gLoad t d a imm n) s = .next (GAfter t h (s1.gWrite t.toNat d.toNat v 2) none) := by
  refine groomStep_done hb (gWrite_same ..) ?_
  rw [gLoad_eq hva hoff, hf, hr]
  dsimp only
  rw [hv]

theorem groomLoad_aperture (hr : gRegion va = .aperture) {w : Word}
    (hw : s1.apRead (.groom t) (gApOff va) (gApLane va) = (some w, s2)) (hs : GroomSame s1 s2) :
    groomStep t true (gLoad t d a imm n) s = .next (GAfter t h
      (s2.gHold t.toNat (some (d.toNat, BitVec.ofNat 32 (if va % 8 = 4 then w.bits 63 32 else w.bits 31 0)))) none) := by
  have hv : (if gApLane va = .hi then (w >>> 32).truncate 32 else w.truncate 32) =
      BitVec.ofNat 32 (if va % 8 = 4 then w.bits 63 32 else w.bits 31 0) := by
    by_cases h4 : va % 8 = 4
    · rw [gApLane, if_pos h4, if_pos h4, if_pos rfl]
      apply BitVec.eq_of_toNat_eq
      simp [Word.bits_eq_div, Nat.shiftRight_eq_div_pow]
    · rw [gApLane, if_neg h4, if_neg h4, if_neg (by decide)]
      apply BitVec.eq_of_toNat_eq
      simp [Word.bits_eq_div]
  refine groomStep_done hb (hs.trans (modGthread_same ..)) ?_
  rw [gLoad_eq hva rfl, hf, hr]
  dsimp only [gApLoad]
  rw [BitVec.ofNat_toNat, BitVec.setWidth_eq, hw]
  dsimp only
  rw [hv]

end

section
variable (hn : n = 1 ∨ n = 2 ∨ n = 4) (hf : h.dataFault false va n 0 = none) (hr : gRegion va = .window)
  (hpa : s1.xwinPa va = pa)
include hn hf hr hpa

omit hb in
theorem gLoad_window_there (hl : s1.mem.lost (pa / 128) = false) : gLoad t d a imm n s1 h =
    if s1.mem.store.poisoned (pa) n then
      .faulted ((s1.readRequests [pa / 128]).groomFault t.toNat 5 (some (BitVec.ofNat 32 va)))
    else .done ((s1.readRequests [pa / 128]).gHold t.toNat
      (some (d.toNat, BitVec.ofNat 32 (leNat (s1.mem.store.read (pa) n))))) := by
  rw [gLoad_eq hva rfl, hf, hr]
  dsimp only
  rw [gWinLoad_eq hpa, unitRead_there (hpa ▸ xwin_line hn (dataFault_aligned hf) hr) hl]
  dsimp only
  rw [hl, Bool.not_false, Bool.and_true]

theorem groomLoad_window (hl : s1.mem.lost (pa / 128) = false)
    (hp : s1.mem.store.poisoned (pa) n = false) : groomStep t true (gLoad t d a imm n) s =
      .next (GAfter t h ((s1.readRequests [pa / 128]).gHold t.toNat
        (some (d.toNat, BitVec.ofNat 32 (leNat (s1.mem.store.read (pa) n))))) none) := by
  refine groomStep_done hb ((readRequests_same ..).trans (modGthread_same ..)) ?_
  rw [gLoad_window_there hva hn hf hr hpa hl, hp, if_neg Bool.false_ne_true]

theorem groomLoad_window_poisoned (hl : s1.mem.lost (pa / 128) = false)
    (hp : s1.mem.store.poisoned (pa) n = true) : groomStep t true (gLoad t d a imm n) s =
      .next ((s1.readRequests [pa / 128]).groomFault t.toNat 5 (some (BitVec.ofNat 32 va))) := by
  rw [groomStep_begins _ hb, if_pos rfl, gLoad_window_there hva hn hf hr hpa hl, hp, if_pos rfl]
  rfl

theorem groomLoad_window_lost (hl : s1.mem.lost (pa / 128) = true) : groomStep t true (gLoad t d a imm n) s =
    .next (GAfter t h (((s1.readRequests [pa / 128]).noTargetRecord (pa) none).gHold t.toNat
      (some (d.toNat, 0))) none) := by
  refine groomStep_done hb ((readRequests_same ..).trans ((noTargetRecord_same ..).trans (modGthread_same ..))) ?_
  rw [gLoad_eq hva rfl, hf, hr]
  dsimp only
  rw [gWinLoad_eq hpa, unitRead_lost (hpa ▸ xwin_line hn (dataFault_aligned hf) hr) hl]
  dsimp only
  rw [hl, leNat_zeros]
  rfl

end

/-! ### Stores -/

section
variable (hf : h.dataFault true va n (h.reg d.toNat) = none)
include hf

theorem groomStore_memory (hr : gRegion va = .iram ∨ gRegion va = .dram) : groomStep t true (gStoreInsn t d a imm n) s =
    .next (GAfter t h (s1.gStore va n (h.reg d.toNat).toNat) none) := by
  refine groomStep_done hb (gStore_same ..) ?_
  rw [gStoreInsn_eq hva rfl, hf]
  obtain hr | hr := hr <;> rw [hr]

theorem groomStore_control (hr : gRegion va = .control) (hoff : va - 0x40000000 = off)
    (hw : s1.gctlWrite t.toNat off (s1.extValue h off (h.reg d.toNat)) = some s2)
    (hs : GroomSame s1 s2) : groomStep t true (gStoreInsn t d a imm n) s = .next (GAfter t h s2 none) := by
  refine groomStep_done hb hs ?_
  rw [gStoreInsn_eq hva hoff, hf, hr]
  dsimp only
  rw [hw]

theorem groomStore_aperture (hr : gRegion va = .aperture)
    (hw : s1.apWrite (.groom t) (gApOff va) (gApLane va)
      (BitVec.ofNat 64 (if va % 8 = 4 then (h.reg d.toNat).toNat * 2 ^ 32 else (h.reg d.toNat).toNat)) false = (true, s2))
    (hs : GroomSame s1 s2) :
    groomStep t true (gStoreInsn t d a imm n) s = .next (GAfter t h (s2.gHold t.toNat none) none) := by
  have hl : (if gApLane va = .hi then Word.ofNat ((h.reg d.toNat).toNat * 2 ^ 32) else Word.ofNat (h.reg d.toNat).toNat) =
      BitVec.ofNat 64 (if va % 8 = 4 then (h.reg d.toNat).toNat * 2 ^ 32 else (h.reg d.toNat).toNat) := by
    by_cases h4 : va % 8 = 4
    · rw [gApLane, if_pos h4, if_pos h4, if_pos rfl]; rfl
    · rw [gApLane, if_neg h4, if_neg h4, if_neg (by decide)]; rfl
  refine groomStep_done hb (hs.trans (modGthread_same ..)) ?_
  rw [gStoreInsn_eq hva rfl, hf, hr]
  dsimp only [gApStore]
  rw [hl, BitVec.ofNat_toNat, BitVec.setWidth_eq, hw]
  dsimp only
  rw [gRestarted_of_same hs]
  rfl

theorem groomStore_window (hn : n = 1 ∨ n = 2 ∨ n = 4) (hr : gRegion va = .window) (hpa : s1.xwinPa va = pa)
    (hl : s1.mem.lost (pa / 128) = false) :
    ∃ r : State, groomStep t true (gStoreInsn t d a imm n) s = .next r ∧ (r.gthread t.toNat).held = some ⟨none⟩ ∧
      r.mem.store.read pa n = leBytes n (h.reg d.toNat).toNat := by
  obtain ⟨hn1, hw⟩ := Bool.or_eq_false_iff.mp hl
  obtain ⟨u, hF, hu⟩ := unitWrite_line (s := s1) (pa := pa) (bs := leBytes n (h.reg d.toNat).toNat) (p := false)
    (c := none) (by rw [leBytes_length]; exact hpa ▸ xwin_line hn (dataFault_aligned hf) hr) hn1 hw
  have hs : GroomSame s1 (s1.unitWrite pa (leBytes n (h.reg d.toNat).toNat) false none) := by
    rw [hu]
    obtain ⟨_, _, _, _, _, rfl⟩ := hF
    exact .refl s1
  refine ⟨_, groomStep_done (s2 := (s1.unitWrite pa (leBytes n (h.reg d.toNat).toNat) false none).gHold t.toNat none)
    hb (hs.trans (modGthread_same ..)) (by rw [gStoreInsn_eq hva rfl, hf, hr, ← hpa]), gthread_GAfter_gHold .., ?_⟩
  have := Store.read_write s1.mem.store pa (leBytes n (h.reg d.toNat).toNat) false
  rw [leBytes_length] at this
  rw [hu, GAfter_mem]
  exact this

end

end

end

/-- Settles O52: the loads and stores of the Groom, by the region of the address. -/
theorem groomLoadsAndStores : Obligations.GroomLoadsAndStores := by
  unfold Obligations.GroomLoadsAndStores
  intro t d a imm s s1 s2 h v w hb va x pa same load store
  have hload : ∀ i n, n = 1 ∨ n = 2 ∨ n = 4 → Machine.exec i s = groomStep t true (gLoad t d a imm n) s → load i n := by
    intro i n hn hi
    simp only [load, hi]
    exact ⟨dataFault_misaligned .., fun code => groomLoad_fault rfl hb,
      fun hf hr => ⟨groomLoad_memory rfl hb hf hr, fun e => groomLoad_badMemory rfl hb hf hr⟩, fun hf hr => groomLoad_window rfl hb hn hf hr rfl,
      fun hf hr => groomLoad_window_lost rfl hb hn hf hr rfl, fun hf hr => groomLoad_window_poisoned rfl hb hn hf hr rfl⟩
  have hstore : ∀ i n, n = 1 ∨ n = 2 ∨ n = 4 → Machine.exec i s = groomStep t true (gStoreInsn t d a imm n) s → store i n := by
    intro i n hn hi
    simp only [store, hi]
    exact ⟨dataFault_misaligned .., fun code => groomStore_fault rfl hb, groomStore_memory rfl hb,
      fun hf hr => groomStore_window rfl hb hf hn hr rfl⟩
  exact ⟨hload _ 4 (by simp) rfl, hload _ 2 (by simp) rfl, hload _ 1 (by simp) rfl,
    hstore _ 4 (by simp) rfl, hstore _ 2 (by simp) rfl, hstore _ 1 (by simp) rfl,
    fun hf hr => groomLoad_control rfl hb hf hr rfl, fun hf hr => groomStore_control rfl hb hf hr rfl,
    fun hf hr hw => groomLoad_aperture rfl hb hf hr hw, fun hf hr => groomStore_aperture rfl hb hf hr⟩

end Sys2Proof.Machine
end

section
/-! PROOFS. Accesses of the aperture by their requesters (R17, R391, R508, R513), the Tack window of the Groom and the writes of
the Tack store (R470 to R478, R486). -/

namespace Sys2Proof.Machine

/-! ### Register accesses that reach the aperture -/

section
variable {s r : State} {who : Requester} {o : Nat} {ln : Lanes} {v : TVal}

theorem eventStep_live {f : State → State} (hl : s.live = true) (ok : Bool) :
    eventStep ok f s = .next (if ok then f s else s) := by
  rw [eventStep, hl, Bool.true_and]

theorem canAsk_of_accesses (ha : Accesses s who) : s.canAsk who = true := by
  cases who <;> simp_all [Accesses, State.canAsk]

/-- A thread of the Groom that can issue and runs no extension makes its access (R391, R415). -/
theorem groomAccess_open {t a : Nat} {write : Bool} {x : Half} {f : State → Option State} (hi : s.gCanIssue t = true)
    (he : (s.gthread t).ext = false) : s.groomAccess t write a x f = (f s).getD (s.groomFault t 3 (some (BitVec.ofNat 32 a))) := by
  simp only [State.groomAccess, hi, he, Bool.not_true, Bool.false_and, Bool.false_eq_true, if_false]
  cases f s <;> rfl

theorem apWrite_accepted (hf : formRefused who o ln = false) {w : Word} {p : Bool} :
    s.apWrite who o ln w p = s.apWriteAny who (o / 8 * 8) ln w p := by
  rw [State.apWrite, hf, if_neg Bool.false_ne_true]

/-- R17: a write that the aperture accepts. -/
theorem apWriteCmd_written (ha : Accesses s who) (hc : who = .core → tackPoison o v = false)
    (hf : formRefused who o ln = false) (hw : s.apWriteAny who (o / 8 * 8) ln v.data (decide (v.tag = .poison)) = (true, r))
    (hr : fromGroom who = true → gRestarted s r = false) : apWriteCmd who o ln v s = .next (Written who r) := by
  rw [apWriteCmd, eventStep_live ha.1, canAsk_of_accesses ha, if_pos rfl]
  cases who with
  | core => simp only [State.apWriteBy, hc rfl, hf, apWrite_accepted hf, hw, Bool.false_eq_true, if_false, Written, State.answer]
  | regp c => simp only [State.apWriteBy, apWrite_accepted hf, hw, Written]
  | groom t =>
    obtain ⟨-, hi, he⟩ := ha
    simp only [State.apWriteBy, groomAccess_open hi he, apWrite_accepted hf, hw, hr rfl, Written, Bool.not_true,
      Bool.false_eq_true, if_false, Option.getD_some]
  | ijtag => exact absurd ha.2 not_false

end

/-! ### The Tack window of the Groom (R472, R473) -/

section
variable {s : State} {t : BitVec 2} {n : BitVec 9} {v : Half} {w : Word} {p : Bool} {ln : Lanes}

theorem formRefused_half {who : Requester} {o : Nat} (h8 : o % 8 = 0) (hl : ln = .lo ∨ ln = .hi) (h64 : only64 o = false)
    (hc : who ≠ .regp 3) : formRefused who o ln = false := by
  have hd : o / 8 * 8 = o := by omega
  obtain rfl | rfl := hl <;> simpa [formRefused, h8, hd, h64] using hc

theorem tackWindow_not64 (o : Nat) (h : o < 0x40000) : only64 o = false := by
  simp [only64]
  omega

/-- The Tack window holds a register at every offset below 0x31000. -/
theorem apWriteAny_tackRegister :
    s.apWriteAny (.groom t) (0x30000 + 8 * n.toNat) ln w p = (true, s.tackPut t.toNat (0x30000 + 8 * n.toNat) ln w) := by
  have hn := n.isLt
  rw [State.apWriteAny, if_neg (by simp), if_neg (by omega), if_neg (by omega), if_pos (by omega)]
  simp only [State.tackWord, if_pos (show 0x30000 + 8 * n.toNat < 0x31000 by omega)]
  rfl

theorem tackPut_register_low : s.tackPut t.toNat (0x30000 + 8 * n.toNat) .lo w =
    State.tkLow (if (s.tack.staging.get (512, 0) t.toNat).1 = n.toNat then s else s.tkDiscard t.toNat) t.toNat n.toNat
      (w.truncate 32) := by
  have hn := n.isLt
  simp only [State.tackPut, if_pos (show 0x30000 + 8 * n.toNat < 0x31000 by omega),
    show (0x30000 + 8 * n.toNat - 0x30000) / 8 = n.toNat by omega]

theorem tackPut_register_high : s.tackPut t.toNat (0x30000 + 8 * n.toNat) .hi w =
    State.tkHigh (if (s.tack.staging.get (512, 0) t.toNat).1 = n.toNat then s else s.tkDiscard t.toNat) t.toNat n.toNat
      ((w >>> 32).truncate 32) := by
  have hn := n.isLt
  simp only [State.tackPut, if_pos (show 0x30000 + 8 * n.toNat < 0x31000 by omega),
    show (0x30000 + 8 * n.toNat - 0x30000) / 8 = n.toNat by omega]

/-- The halves of a 64-bit value that lane hi carries. -/
theorem half_of_high (v : Half) : BitVec.truncate 32 ((v.zeroExtend 64 <<< 32 : Word) >>> 32) = v := by
  apply BitVec.eq_of_toNat_eq
  have := v.isLt
  simp [BitVec.toNat_shiftLeft, Nat.shiftLeft_eq, Nat.shiftRight_eq_div_pow]
  omega

theorem Tbl.del_del {α : Type} (t : Tbl α) (k : Nat) : (t.del k).del k = t.del k := by
  induction t with
  | nil => rfl
  | cons e t ih =>
    obtain ⟨j, x⟩ := e
    by_cases h : k = j <;> simp [Tbl.del, h]
    · exact h ▸ ih
    · exact ih

end

/-! ### Writes that reach the Tack store (R474, R475, R478) -/

section
variable {k : Tack} {t : Nat} {w : TkWrite}

/-- R474: the status of a write that is refused on arrival. -/
def tkRefusal (k : Tack) (t n : Nat) (x : Word) : Option Nat :=
  (k.refusal n x).or (if k.mergeable n = false ∧ k.levelAt t n < 256 then some 1 else none)

theorem tkRefusal_eq (k : Tack) (t n : Nat) (x : Word) : tkRefusal k t n x =
    if k.ready = false then some 2 else if k.sealedNow then some 6 else if k.devFail then some 5
    else if tkClass n = 0 then some 3 else if n = 2 ∧ x < k.rollbackNext then some 4
    else if k.mergeable n = false ∧ k.levelAt t n < 256 then some 1 else none := by
  simp only [tkRefusal, Tack.refusal, Bool.not_eq_true']
  repeat' split
  all_goals rfl

theorem tkRefusal_lt {n : Nat} {x : Word} {e : Nat} (h : tkRefusal k t n x = some e) : 0 < e ∧ e < 7 := by
  rw [tkRefusal_eq] at h
  repeat' split at h
  all_goals simp at h <;> omega

theorem refusal_of_tkRefusal_none {n : Nat} {x : Word} (h : tkRefusal k t n x = none) :
    k.refusal n x = none ∧ (k.mergeable n = true ∨ 256 ≤ k.levelAt t n) := by
  obtain ⟨hr, hi⟩ := Option.or_eq_none_iff.mp h
  refine ⟨hr, ?_⟩
  refine Decidable.byContradiction fun hn => ?_
  obtain ⟨hm, hl⟩ := not_or.mp hn
  rw [if_pos ⟨Bool.eq_false_iff.mpr hm, Nat.lt_of_not_le hl⟩] at hi
  cases hi

theorem accept_refused {e : Nat} (h : tkRefusal k t w.reg w.value = some e) : k.accept t w = (some ⟨e, w.reg, w.srcs⟩, k) := by
  unfold Tack.accept
  unfold tkRefusal at h
  cases hr : k.refusal w.reg w.value with
  | some c =>
    rw [hr, Option.some_or] at h
    cases h
    rfl
  | none =>
    rw [hr, Option.none_or] at h
    split at h
    · next hm =>
      cases h
      simp only [hm.1, Bool.false_eq_true, if_false, if_pos hm.2]
    · cases h

theorem accept_merged (h : tkRefusal k t w.reg w.value = none) (hm : k.mergeable w.reg = true) :
    k.accept t w = (none, { k with queue := k.queue.take 1 ++ mergeWrite w.reg w.value w.srcs (k.queue.drop 1) }) := by
  simp only [Tack.accept, (refusal_of_tkRefusal_none h).1, hm, if_true]

theorem accept_queued (h : tkRefusal k t w.reg w.value = none) (hm : k.mergeable w.reg = false) :
    k.accept t w = (none, { k.setLevel t w.reg (k.levelAt t w.reg - 256) with queue := k.queue ++ [w] }) := by
  obtain ⟨hr, hl⟩ := refusal_of_tkRefusal_none h
  have hlt : ¬ k.levelAt t w.reg < 256 := by simp_all
  simp only [Tack.accept, hr, hm, Bool.false_eq_true, if_false, if_neg hlt]

/-- A write is refused with a status that is not 0, and no write changes a committed value. -/
theorem write_keeps (w0 : TkWrite) : (∀ e ∈ (k.write t w0).1, e.code ≠ 0 ∧ e.srcs = w0.srcs) ∧
    ∀ j, (k.write t w0).2.read j = k.read j := by
  unfold Tack.write
  dsimp only
  generalize hw : { w0 with value := w0.value &&& tkMask w0.reg } = w
  have hs : w.srcs = w0.srcs := hw ▸ rfl
  split
  · exact ⟨by simp, fun j => rfl⟩
  · cases h : tkRefusal k t w.reg w.value with
    | some e =>
      rw [accept_refused h]
      exact ⟨by simp [hs, Nat.ne_of_gt (tkRefusal_lt h).1], fun j => rfl⟩
    | none =>
      cases hm : k.mergeable w.reg with
      | true => rw [accept_merged h hm]; exact ⟨by simp, fun j => rfl⟩
      | false => rw [accept_queued h hm]; exact ⟨by simp, fun j => rfl⟩

/-- R478: the level of a register that has just been set. -/
theorem levelAt_setLevel {n : Nat} (q : List TkWrite) (h : 256 ≤ k.levelAt t n) :
    Tack.levelAt { k.setLevel t n (k.levelAt t n - 256) with queue := q } t n + 256 = k.levelAt t n := by
  have hd : k.levelAt t n ≤ tkDepth (tkClass n) := Nat.min_le_left ..
  have hs : Tack.levelAt { k.setLevel t n (k.levelAt t n - 256) with queue := q } t n =
      min (tkDepth (tkClass n)) (k.levelAt t n - 256) := by
    simp [Tack.levelAt, Tack.setLevel]
  rw [hs]
  omega

end

/-! ### A write by a thread of the Groom -/

section
variable {s : State} {t n : Nat} {x : Word}

theorem tackNotify_groom {es : List TkEnd} (h : ∀ e ∈ es, e.code ≠ 0 ∧ e.srcs = [.groom t]) : s.tackNotify es = s := by
  induction es with
  | nil => rfl
  | cons e es ih =>
    obtain ⟨⟨hc, hs⟩, ht⟩ := List.forall_mem_cons.mp h
    rw [State.tackNotify, List.foldl_cons, State.tackNotifyEnd, hs, if_neg hc]
    exact ih ht

theorem tackWrite_groom (s : State) (n : Nat) (x : Word) (t : Nat) :
    s.tackWrite n x (.groom t) = (s.tackRaw n x (.groom t)).2 := by
  have hk := (write_keeps (k := s.tack) (t := s.tclkNow) ⟨n, x, [.groom t]⟩).1
  rw [State.tackWrite]
  dsimp only [State.tackRaw]
  exact tackNotify_groom (fun e he => hk e (Option.mem_toList.mp he))

end

end Sys2Proof.Machine
end

section
/-! PROOFS. The commands of the Tack store: writes by the Groom's threads, commits and sealing (R470 to R478, R486). -/

namespace Sys2Proof.Machine

theorem Word.bit_putBit (w : Word) (b : Bool) {i n : Nat} (hi : i < 64) : (w.putBit n b).bit i = if i = n then b else w.bit i := by
  rw [Word.putBit, Word.bit, Word.getLsbD_putBits _ _ hi]
  by_cases h : i = n
  · subst h
    cases b <;> simp
  · rw [if_neg (by omega), if_neg h, Word.bit]

/-! ### A write of a Tack register by a thread -/

section
variable {s : State} {t n : Nat} {x : Word}

theorem tkEnds_halted (s : State) (es : List TkEnd) : (s.tkEnds es).groom.halted = s.groom.halted := by
  unfold State.tkEnds
  refine foldl_halted (fun u e => ?_) es s
  rfl

theorem tkHoldThread_tack (s : State) (t : Nat) : (s.tkHoldThread t).tack = s.tack := by
  unfold State.tkHoldThread
  split <;> rfl

theorem tkHoldThread_groom (s : State) (t : Nat) :
    (s.tkHoldThread t).groom.halted = s.groom.halted ∧ (s.tkHoldThread t).groom.ipend = s.groom.ipend := by
  unfold State.tkHoldThread
  split <;> exact ⟨rfl, rfl⟩

/-- What the write of both halves of a register by a thread leaves, before the thread is held for its response. -/
def tkPut (s : State) (t n : Nat) (x : Word) : State := ((s.tkDiscard t).tackWrite n x (.groom t)).tkHoldThread t

theorem tkPut_same (s : State) (t n : Nat) (x : Word) : GroomSame s (tkPut s t n x) := by
  refine .of_eq (by simp [tkPut]) ?_
  rw [tkPut, (tkHoldThread_groom ..).1, tackWrite_groom]
  dsimp only [State.tackRaw]
  exact tkEnds_halted ..

/-- The write of both halves of a register by a thread, by what the store answers. -/
theorem tkPut_of_write {e : Option TkEnd} {k : Tack}
    (h : (s.tkDiscard t).tack.write s.tclkNow ⟨n, x, [.groom t]⟩ = (e, k)) :
    tkPut s t n x = (((s.tkDiscard t).setTack k).tkEnds e.toList).tkHoldThread t := by
  have hc : (s.tkDiscard t).tclkNow = s.tclkNow := rfl
  rw [tkPut, tackWrite_groom, State.tackRaw, hc, h]

theorem tkPut_queued {k : Tack} (h : (s.tkDiscard t).tack.write s.tclkNow ⟨n, x, [.groom t]⟩ = (none, k)) :
    (tkPut s t n x).tack = k := by
  rw [tkPut_of_write h, tkHoldThread_tack]
  rfl

theorem tkPut_refused {e : TkEnd} {k : Tack} (h : (s.tkDiscard t).tack.write s.tclkNow ⟨n, x, [.groom t]⟩ = (some e, k)) :
    (tkPut s t n x).tack = { k with wcode := BitVec.ofNat 8 e.code, wreg := e.reg } ∧
    (tkPut s t n x).groom.ipend = s.groom.ipend.putBit 37 true := by
  rw [tkPut_of_write h, tkHoldThread_tack, (tkHoldThread_groom ..).2]
  exact ⟨rfl, rfl⟩

theorem tkPut_read (s : State) (t n : Nat) (x : Word) (j : Nat) : (tkPut s t n x).tack.read j = s.tack.read j := by
  have hk := (write_keeps (k := (s.tkDiscard t).tack) (t := s.tclkNow) ⟨n, x, [.groom t]⟩).2 j
  generalize hw : (s.tkDiscard t).tack.write s.tclkNow ⟨n, x, [.groom t]⟩ = r at hk
  obtain ⟨e, k⟩ := r
  cases e with
  | none => rw [tkPut_queued hw]; exact hk
  | some e => rw [(tkPut_refused hw).1]; exact hk

theorem write_of_room {k : Tack} {t : Nat} {w : TkWrite} (h : k.queue.length < 8) :
    k.write t w = k.accept t { w with value := w.value &&& tkMask w.reg } := if_neg (by omega)

end

/-- R475: the queue that a merge leaves. -/
theorem merged_queue {q : List TkWrite} {n : Nat} {x : Word} {srcs : List TkSrc} (h : q.drop 1 ≠ []) :
    (q.take 1 ++ mergeWrite n x srcs (q.drop 1)).length = q.length ∧
    ((q.take 1 ++ mergeWrite n x srcs (q.drop 1)).drop 1).all (fun u => u.reg ≠ n || u.value = x) = true := by
  cases q with
  | nil => exact absurd rfl h
  | cons w ws =>
    refine ⟨by simp [mergeWrite], ?_⟩
    simp only [List.take_succ_cons, List.take_zero, List.drop_succ_cons, List.drop_zero, List.singleton_append, mergeWrite,
      List.all_map, List.all_eq_true, Function.comp_apply]
    intro u _
    split <;> simp_all

/-! ### The commit at the front of the queue (R476) -/

section
variable {k : Tack} {t : Nat} {w : TkWrite} {ws : List TkWrite} {failA failB : Nat}

theorem devWrite_device (k : Tack) (a : Nat) (bs : List Byte) : ∃ d, k.devWrite a bs = { k with device := d } := ⟨_, rfl⟩

/-- R476: what the tries of a copy leave: they end well where fewer fail than are made. -/
theorem program_eq (copy n seq : Nat) (v : Word) (level fails left slot : Nat) (k : Tack) : ∃ sl dev bad cnt,
    Tack.program copy n seq v level fails left slot k =
      (decide (fails < left), sl, { k with device := dev, bad := bad, badSlots := cnt }) := by
  induction left generalizing fails slot k with
  | zero => cases fails <;> exact ⟨_, _, _, _, rfl⟩
  | succ left ih =>
    cases fails with
    | zero => exact ⟨_, _, _, _, rfl⟩
    | succ f =>
      obtain ⟨d, hd⟩ := devWrite_device k (slotAddr copy n slot) (List.replicate 32 0)
      rw [Tack.program, hd]
      split
      · rw [decide_eq_false (by omega)]
        exact ⟨_, _, _, _, rfl⟩
      · obtain ⟨sl, dev, bad, cnt, hp⟩ := ih f _ _
        refine ⟨sl, dev, bad, cnt, hp.trans ?_⟩
        rw [decide_eq_decide.mpr (Nat.add_lt_add_iff_right (k := 1)).symm]

theorem commitHead_written (hA : failA < 3) : ∃ sl dev bad cnt seqs slots, k.commitHead t w failA failB =
    (0, sl, { k with device := dev, bad := bad, badSlots := cnt, single := k.single || !decide (failB < 3),
                     value := k.value.set w.reg w.value, lastSeq := seqs, nextSlot := slots }) := by
  unfold Tack.commitHead
  dsimp only
  obtain ⟨sl, dev, bad, cnt, hp⟩ := program_eq 0 w.reg (k.lastSeq.get 0 w.reg + 1) w.value (k.recordLevel t w.reg) failA 3
    (k.goodSlot 0 w.reg (k.nextSlot.get 1 w.reg)) k
  rw [hp, decide_eq_true hA]
  dsimp only
  generalize hk1 : ({ k with device := dev, bad := bad, badSlots := cnt } : Tack) = k1
  obtain ⟨slB, devB, badB, cntB, hB⟩ := program_eq 1 w.reg (k.lastSeq.get 0 w.reg + 1) w.value (k.recordLevel t w.reg) failB 3
    (k1.goodSlot 1 w.reg sl) k1
  rw [hB, ← hk1]
  exact ⟨_, _, _, _, _, _, rfl⟩

theorem commitHead_failed (hA : 3 ≤ failA) : ∃ sl dev bad cnt, k.commitHead t w failA failB =
    (5, sl, { k with device := dev, bad := bad, badSlots := cnt, devFail := true }) := by
  unfold Tack.commitHead
  dsimp only
  obtain ⟨sl, dev, bad, cnt, hp⟩ := program_eq 0 w.reg (k.lastSeq.get 0 w.reg + 1) w.value (k.recordLevel t w.reg) failA 3
    (k.goodSlot 0 w.reg (k.nextSlot.get 1 w.reg)) k
  rw [hp, decide_eq_false (by omega)]
  exact ⟨_, _, _, _, rfl⟩

theorem drainHeld_nil (t n : Nat) {k : Tack} (h : k.heldW = []) : Tack.drainHeld t n k = ([], k) := by
  cases n with
  | zero => rfl
  | succ n => rw [Tack.drainHeld, h]

theorem drainHeld_refused {t n e : Nat} {k : Tack} {u : TkWrite} (h : k.heldW = [u]) (hq : k.queue.length < 8)
    (he : tkRefusal k t u.reg u.value = some e) :
    Tack.drainHeld t (n + 1) k = ([⟨e, u.reg, u.srcs⟩], { k with heldW := [] }) := by
  have ha : Tack.accept { k with heldW := [] } t u = (some ⟨e, u.reg, u.srcs⟩, { k with heldW := [] }) := accept_refused he
  rw [Tack.drainHeld, h]
  dsimp only
  rw [if_neg (by omega), ha]
  dsimp only
  rw [drainHeld_nil t n rfl]
  rfl

end

/-! ### What the end of a commit leaves -/

section
variable {s : State} {t : Nat} {w : TkWrite} {ws : List TkWrite} {failA failB : Nat} {es : List TkEnd} {k : Tack}

theorem viewReg_cfg (s : State) (n : Nat) : ∃ c, s.viewReg n = { s with cfg := c } := by
  unfold State.viewReg
  dsimp only
  repeat' split
  all_goals exact ⟨_, rfl⟩

theorem viewReg_powerLimit (s : State) : (s.viewReg 3).cfg.stg 0x40 0 = Word.ofNat ((s.tack.read 3).bits 18 0) := by
  rw [State.viewReg, if_pos rfl, Cfg.stg, Tbl.get_set_same]

theorem tkEnds_cons (s : State) (e : TkEnd) (es : List TkEnd) : s.tkEnds (e :: es) =
    (({ s with tack := { s.tack with wcode := BitVec.ofNat 8 e.code, wreg := e.reg } } : State).pendGroom 37).tkEnds es := rfl

theorem tackNotify_written {n : Nat} (h : ∀ e ∈ es, e.code ≠ 0 ∧ e.srcs = [.groom t]) :
    s.tackNotify (⟨0, n, [.groom t]⟩ :: es) = s.viewReg n := by
  rw [State.tackNotify, List.foldl_cons]
  exact tackNotify_groom h

/-- R475, R476: a commit whose record was written, by what the store answers. -/
theorem tackCommit_written (hq : s.tack.queue = w :: ws) (hs : w.srcs = [.groom t])
    (hc : s.tack.commit s.tclkNow failA failB = (⟨0, w.reg, w.srcs⟩ :: es, none, k))
    (he : ∀ e ∈ es, e.code ≠ 0 ∧ e.srcs = [.groom t]) :
    s.tackCommit failA failB = ((s.setTack k).tkEnds (⟨0, w.reg, w.srcs⟩ :: es)).viewReg w.reg := by
  have hh : (s.setTack k).historyAdded w (s.tack.read w.reg) = s.setTack k := by
    simp [State.historyAdded, hs]
  rw [State.tackCommit, hc, hq]
  dsimp only [List.head?_cons]
  rw [hh, hs]
  exact tackNotify_written he

theorem exec_tackCommit {a b : BitVec 2} (hl : s.live = true) (hq : s.tack.queue = w :: ws) :
    Machine.exec (.tackCommit a b) s = .next (s.tackCommit a.toNat b.toNat) := by
  have he : Machine.exec (.tackCommit a b) s =
      eventStep (!s.tack.queue.isEmpty) (fun s => s.tackCommit a.toNat b.toNat) s := rfl
  rw [he, eventStep_live hl, hq]
  rfl

end

/-! ### The obligation -/

section
variable {s : State} {t : BitVec 2} {n : BitVec 9} {v : Half}

theorem exec_tkRegWriteLow (ha : Accesses s (.groom t)) : Machine.exec (.tkRegWriteLow t n v) s =
    .next (State.gHold (State.tkLow (if (s.tack.staging.get (512, 0) t.toNat).1 = n.toNat then s else s.tkDiscard t.toNat) t.toNat
      n.toNat v) t.toNat none) := by
  have hn := n.isLt
  refine apWriteCmd_written (r := State.tkLow _ _ _ _) ha (by simp) (formRefused_half (by omega) (.inl rfl)
    (tackWindow_not64 _ (by omega)) (by simp)) ?_ (fun _ => gRestarted_of_same ?_)
  · rw [show (0x30000 + 8 * n.toNat) / 8 * 8 = 0x30000 + 8 * n.toNat by omega, apWriteAny_tackRegister, tackPut_register_low]
    simp only [BitVec.truncate_eq_setWidth, BitVec.setWidth_setWidth_of_le _ (show 32 ≤ 64 by omega), BitVec.setWidth_eq]
  · split <;> exact ⟨rfl, rfl⟩

theorem exec_tkRegWriteHigh (ha : Accesses s (.groom t)) : Machine.exec (.tkRegWriteHigh t n v) s =
    .next (State.gHold (tkPut s t.toNat n.toNat (BitVec.ofNat 64 ((if (s.tack.staging.get (512, 0) t.toNat).1 = n.toNat then
      (s.tack.staging.get (512, 0) t.toNat).2.toNat else (s.tack.read n.toNat).bits 31 0) + v.toNat * 2 ^ 32))) t.toNat none) := by
  have hn := n.isLt
  refine apWriteCmd_written ha (by simp) (formRefused_half (by omega) (.inr rfl)
    (tackWindow_not64 _ (by omega)) (by simp)) ?_ (fun _ => gRestarted_of_same (tkPut_same ..))
  rw [show (0x30000 + 8 * n.toNat) / 8 * 8 = 0x30000 + 8 * n.toNat by omega, apWriteAny_tackRegister, tackPut_register_high,
    half_of_high]
  split
  · next h => simp only [State.tkHigh, h, if_true]; rfl
  · next h =>
    have h0 : (s.tkDiscard t.toNat).tack.staging.get (512, 0) t.toNat = (512, 0) := Tbl.get_del_same ..
    have hd : (s.tkDiscard t.toNat).tkDiscard t.toNat = s.tkDiscard t.toNat := by
      simp only [State.tkDiscard, Tbl.del_del]
    simp only [State.tkHigh, h0, hd, if_neg (show ¬ 512 = n.toNat by omega)]
    rfl

/-- R474, R475, R478: what a write leaves where the queue has room, and where it has none. -/
theorem tkPut_outcome (s : State) (t n : Nat) (v : Word) :
    let k := s.tack
    let x := v &&& tkMask n
    let r := tkPut s t n v
    (k.queue.length < 8 → ∀ e, tkRefusal k s.tclkNow n x = some e → r.tack.wcode.toNat = e ∧ r.tack.wreg = n ∧
      r.groom.ipend.bit 37 = true ∧ r.tack.queue = k.queue ∧ r.tack.level = k.level ∧ r.tack.stamp = k.stamp) ∧
    (k.queue.length < 8 → tkRefusal k s.tclkNow n x = none → k.mergeable n = true → r.tack.level = k.level ∧
      r.tack.stamp = k.stamp ∧ r.tack.queue.length = k.queue.length ∧
      (r.tack.queue.drop 1).all (fun u => u.reg ≠ n || u.value = x) = true) ∧
    (k.queue.length < 8 → tkRefusal k s.tclkNow n x = none → k.mergeable n = false →
      r.tack.levelAt s.tclkNow n + 256 = k.levelAt s.tclkNow n ∧ r.tack.queue = k.queue ++ [⟨n, x, [.groom t]⟩]) ∧
    (8 ≤ k.queue.length → r.tack.queue = k.queue ∧ r.tack.level = k.level ∧ r.tkHolds t = true ∧
      r.tack.heldW = k.heldW ++ [⟨n, x, [.groom t]⟩]) := by
  intro k x r
  have hroom : k.queue.length < 8 → (s.tkDiscard t).tack.write s.tclkNow ⟨n, v, [.groom t]⟩ =
      (s.tkDiscard t).tack.accept s.tclkNow ⟨n, x, [.groom t]⟩ := fun h => write_of_room h
  refine ⟨fun hq e he => ?_, fun hq he hm => ?_, fun hq he hm => ?_, fun hq => ?_⟩
  · obtain ⟨hr, hp⟩ := tkPut_refused ((hroom hq).trans (accept_refused (k := (s.tkDiscard t).tack) he))
    have hlt := tkRefusal_lt he
    refine ⟨?_, by rw [hr], ?_, by rw [hr]; rfl, by rw [hr]; rfl, by rw [hr]; rfl⟩
    · rw [hr]
      dsimp only
      rw [BitVec.toNat_ofNat, Nat.mod_eq_of_lt (by omega)]
    · rw [hp, Word.bit_putBit _ _ (by omega), if_pos rfl]
  · have hr := tkPut_queued ((hroom hq).trans (accept_merged (k := (s.tkDiscard t).tack) he hm))
    simp only [r, hr]
    refine ⟨rfl, rfl, merged_queue fun h0 => ?_⟩
    simp [Tack.mergeable, show s.tack.queue.drop 1 = [] from h0, k] at hm
  · have hr := tkPut_queued ((hroom hq).trans (accept_queued (k := (s.tkDiscard t).tack) he hm))
    simp only [r, hr]
    exact ⟨levelAt_setLevel (k := (s.tkDiscard t).tack) _ ((refusal_of_tkRefusal_none he).2.resolve_left (by simp [hm])), rfl⟩
  · have hr := tkPut_queued (s := s) (t := t) (n := n) (x := v) (if_pos hq)
    simp only [State.tkHolds, r, hr]
    exact ⟨rfl, rfl, by simp, rfl⟩

end

/-! ### The commits -/

section
variable {s : State} {t : Nat} {w : TkWrite} {ws : List TkWrite} {failA failB : BitVec 2}

theorem read_of_value {k k' : Tack} (hr : k'.ready = k.ready) (hv : k'.value = k.value) (m : Nat) : k'.read m = k.read m := by
  rw [Tack.read, Tack.read, hr, hv]

theorem read_committed {k k' : Tack} {n : Nat} {v : Word} (hr : k'.ready = true) (hv : k'.value = k.value.set n v)
    (hn : tkClass n ≠ 0) : k'.read n = v := by
  simp [Tack.read, hr, hv, hn]

theorem read_uncommitted {k k' : Tack} {n m : Nat} {v : Word} (hr : k'.ready = k.ready) (hv : k'.value = k.value.set n v)
    (hm : m ≠ n) : k'.read m = k.read m := by
  rw [Tack.read, Tack.read, hr, hv, Tbl.get_set_other _ _ _ hm]

/-- R476: the store once the record of the front write is written. -/
structure CommitWritten (k k1 : Tack) (w : TkWrite) (ws : List TkWrite) (failB : Nat) : Prop where
  heldW : k1.heldW = k.heldW
  queue : k1.queue = ws
  ready : k1.ready = k.ready
  sealedNow : k1.sealedNow = k.sealedNow
  value : k1.value = k.value.set w.reg w.value
  single : k1.single = (k.single || !decide (failB < 3))

theorem commit_written {k : Tack} {c fA fB : Nat} (hq : k.queue = w :: ws) (hA : fA < 3) : ∃ k1, CommitWritten k k1 w ws fB ∧
    k.commit c fA fB = (⟨0, w.reg, w.srcs⟩ :: (Tack.drainHeld c 512 k1).1, none, (Tack.drainHeld c 512 k1).2) := by
  obtain ⟨sl, dev, bad, cnt, seqs, slots, hc⟩ := commitHead_written (k := k) (t := c) (w := w) (failB := fB) hA
  rw [Tack.commit, hq]
  dsimp only
  rw [hc]
  dsimp only
  rw [if_neg (by decide)]
  refine ⟨_, ?_, rfl⟩
  exact ⟨rfl, rfl, rfl, rfl, rfl, rfl⟩

theorem commit_failed {k : Tack} {c fA fB : Nat} (hq : k.queue = w :: ws) (hA : 3 ≤ fA) (hh : k.heldW = []) : ∃ a k1,
    k.commit c fA fB = ([⟨5, w.reg, w.srcs⟩], some a, k1) ∧ k1.queue = ws ∧ k1.ready = k.ready ∧ k1.value = k.value ∧
    k1.devFail = true := by
  obtain ⟨sl, dev, bad, cnt, hc⟩ := commitHead_failed (k := k) (t := c) (w := w) (failB := fB) hA
  rw [Tack.commit, hq]
  dsimp only
  rw [hc]
  dsimp only
  rw [drainHeld_nil _ _ (by exact hh)]
  exact ⟨_, _, rfl, rfl, rfl, rfl, rfl⟩

section
variable (hl : s.live = true) (hq : s.tack.queue = w :: ws) (hs : w.srcs = [.groom t])
include hl hq hs

/-- R475, R476: the front write is committed, and no write was held. -/
theorem exec_tackCommit_alone (hA : failA.toNat < 3) (hh : s.tack.heldW = []) : ∃ k1,
    CommitWritten s.tack k1 w ws failB.toNat ∧ Machine.exec (.tackCommit failA failB) s =
      .next ((({ s.setTack k1 with tack := { k1 with wcode := 0, wreg := w.reg } } : State).pendGroom 37).viewReg w.reg) := by
  obtain ⟨k1, h1, hc⟩ := commit_written (c := s.tclkNow) (fB := failB.toNat) hq hA
  rw [drainHeld_nil _ _ (h1.heldW.trans hh)] at hc
  refine ⟨k1, h1, ?_⟩
  rw [exec_tackCommit hl hq, tackCommit_written hq hs hc (by simp)]
  rfl

/-- R475, R486: the front write is committed, and the write that was held is refused. -/
theorem exec_tackCommit_refuses {u : TkWrite} {e : Nat} (hA : failA.toNat < 3) (hh : s.tack.heldW = [u])
    (hw : ws.length < 8) (hu : u.srcs = [.groom t])
    (he : ∀ k1, CommitWritten s.tack k1 w ws failB.toNat → tkRefusal k1 s.tclkNow u.reg u.value = some e) : ∃ k1,
    CommitWritten s.tack k1 w ws failB.toNat ∧ ∃ r, Machine.exec (.tackCommit failA failB) s = .next r ∧
      r.tack = { k1 with heldW := [], wcode := BitVec.ofNat 8 e, wreg := u.reg } := by
  obtain ⟨k1, h1, hc⟩ := commit_written (c := s.tclkNow) (fB := failB.toNat) hq hA
  have hd := drainHeld_refused (n := 511) (h1.heldW.trans hh) (h1.queue ▸ hw) (he k1 h1)
  rw [hd] at hc
  refine ⟨k1, h1, _, exec_tackCommit hl hq, ?_⟩
  rw [tackCommit_written hq hs hc (by simp [hu, Nat.ne_of_gt (tkRefusal_lt (he k1 h1)).1])]
  obtain ⟨c, hv⟩ := viewReg_cfg ((s.setTack { k1 with heldW := [] }).tkEnds [⟨0, w.reg, w.srcs⟩, ⟨e, u.reg, u.srcs⟩]) w.reg
  rw [hv]
  rfl

/-- R476: the tries of copy A fail, and no write was held. -/
theorem exec_tackCommit_failed (hA : 3 ≤ failA.toNat) (hh : s.tack.heldW = []) : ∃ (k1 : Tack) (r : State),
    Machine.exec (.tackCommit failA failB) s = .next r ∧ r.tack = { k1 with wcode := 5, wreg := w.reg } ∧
    k1.queue = ws ∧ k1.ready = s.tack.ready ∧ k1.value = s.tack.value ∧ k1.devFail = true := by
  obtain ⟨a, k1, hc, h1⟩ := commit_failed (c := s.tclkNow) (fB := failB.toNat) hq hA hh
  refine ⟨k1, _, exec_tackCommit hl hq, ?_, h1⟩
  rw [State.tackCommit, hc, hq]
  dsimp only [List.head?_cons]
  rw [if_neg (by simp), tackNotify_groom (t := t) (by simp [hs])]
  obtain ⟨_, _, _, _, _, _, _, _, _, hrec⟩ :=
    record_accessed (s.setTack k1) { ErrRec.mk0 0x102 0xF 8 none with addr := Word.ofNat a }
  rw [hrec]
  rfl

end

end

/-- Settles O49: writes of a register by halves, their refusals, merge, budget and queue, the commit of the front write, and
sealing. -/
theorem tackStoreCommands : Obligations.TackStoreCommands := by
  unfold Obligations.TackStoreCommands
  intro s t n v w ws hl put accepts
  have hn := n.isLt
  refine ⟨fun ha => ⟨_, exec_tkRegWriteLow ha, Tbl.get_set_same .., ?_⟩, fun lo ha hst => ?_, fun ha hst => ?_, fun lo ha hst => ?_,
    fun hq hh hs hr hc => ?_, fun u hq hw hh hs hu hr hc hx => ?_, fun hq hh hs hr hc => ⟨?_, ?_⟩, fun ha => ?_, fun hp hd => ?_⟩
  · split <;> rfl
  · rw [exec_tkRegWriteHigh ha, hst, if_pos rfl]
    rfl
  · rw [exec_tkRegWriteHigh ha, if_neg hst]
    rfl
  · intro k x later level code
    have hx : Machine.exec (.tkRegWriteHigh t n v) s = .next (State.gHold (tkPut s t.toNat n.toNat
        (BitVec.ofNat 64 (lo.toNat + v.toNat * 2 ^ 32))) t.toNat none) := by
      rw [exec_tkRegWriteHigh ha, hst, if_pos rfl]
    have hcode : code = tkRefusal k s.tclkNow n.toNat x := (tkRefusal_eq ..).symm
    obtain ⟨hrefused, hmerged, hqueued, hheld⟩ := tkPut_outcome s t.toNat n.toNat (BitVec.ofNat 64 (lo.toNat + v.toNat * 2 ^ 32))
    rw [hcode]
    exact ⟨_, hx, tkPut_read _ _ _ _, hrefused, hmerged, hqueued, hheld⟩
  · obtain ⟨k1, h1, hx⟩ := exec_tackCommit_alone (failA := 0) (failB := 0) hl hq hs (by decide) hh
    obtain ⟨c, hv⟩ := viewReg_cfg (({ s.setTack k1 with tack := { k1 with wcode := 0, wreg := w.reg } } : State).pendGroom 37) w.reg
    refine ⟨_, hx, ?_⟩
    refine ⟨by rw [hv]; exact h1.queue, by rw [hv]; exact read_committed (h1.ready.trans hr) h1.value hc,
      fun m hm => by rw [hv]; exact read_uncommitted h1.ready h1.value hm, by rw [hv]; rfl, by rw [hv]; rfl, fun h3 => ?_⟩
    rw [h3, viewReg_powerLimit, ← h3]
    exact congrArg (fun x : Word => Word.ofNat (x.bits 18 0)) (read_committed (h1.ready.trans hr) h1.value hc)
  · obtain ⟨k1, h1, r, hx', ht⟩ := exec_tackCommit_refuses (failA := 0) (failB := 0) (e := 6) hl hq hs (by decide) hh hw hu
      (fun k1 h1 => by rw [tkRefusal_eq, h1.ready, h1.sealedNow, hr, hx]; rfl)
    refine ⟨r, hx', ?_⟩
    rw [ht]
    exact ⟨h1.queue, rfl, read_committed (h1.ready.trans hr) h1.value hc, rfl, rfl⟩
  · obtain ⟨k1, r, hx, ht, hq1, hr1, hv1, hf1⟩ := exec_tackCommit_failed (failA := 3) (failB := 0) hl hq hs (by decide) hh
    refine ⟨r, hx, ?_⟩
    rw [ht]
    exact ⟨hq1, read_of_value hr1 hv1, hf1, rfl, rfl⟩
  · obtain ⟨k1, h1, hx⟩ := exec_tackCommit_alone (failA := 0) (failB := 3) hl hq hs (by decide) hh
    obtain ⟨c, hv⟩ := viewReg_cfg (({ s.setTack k1 with tack := { k1 with wcode := 0, wreg := w.reg } } : State).pendGroom 37) w.reg
    refine ⟨_, hx, ?_⟩
    rw [hv]
    exact ⟨h1.queue, read_committed (h1.ready.trans hr) h1.value hc, h1.single.trans (by simp), rfl⟩
  · refine ⟨(s.tkDiscard t.toNat).tkSealNow, ?_, rfl, rfl⟩
    exact apWriteCmd_written ha (by simp) (formRefused_half (by decide) (.inl rfl) (tackWindow_not64 _ (by decide)) (by simp))
      rfl (fun _ => gRestarted_of_same ⟨rfl, rfl⟩)
  · have he : Machine.exec .tackAutoSeal s =
        eventStep (s.power.pfail && decide (s.power.pfAt + usec 800 ≤ s.now)) State.tkSealNow s := rfl
    have hu : s.power.pfAt + usec 800 ≤ s.now := by
      unfold usec
      omega
    rw [he, eventStep_live hl, hp, decide_eq_true hu]
    rfl

end Sys2Proof.Machine
end

section
/-! PROOFS. A step, an illegal word and TRAP (R61, R83, R87), and the results of the integer group, the immediate forms and the
moves (R42, R64 to R67). -/

namespace Sys2Proof.Machine

/-- Settles O1: the front command runs on the queue's rest, and an empty queue idles. -/
theorem stepRunsTheFrontCommand : Obligations.StepRunsTheFrontCommand := by
  unfold Obligations.StepRunsTheFrontCommand
  refine ⟨fun c q s => rfl, fun s hs => ?_⟩
  simp only [Machine.step, hs]

/-! ### Words that are not legal (R61) -/

/-- Every instruction with a word of the core is a core instruction, where a word that no row spells stands for itself. -/
theorem exec_coreWord {i : Instr} (hw : (coreWord i).isSome = true) (hs : i.spells = true) (s : State) :
    ∃ body, Machine.exec i s = coreStep i body s := by
  cases i with
  | add | sub | and | or | xor | sll | srl | sra | mul | mulh | mulhu | div | divu | rem | remu | min | max | minu | maxu
  | ceq | cne | clt | cltu | cle | cleu | cmovnz | cmovz | fence | fenceSt | ifence | ssync | tret | wait | yieldOp | keysw
  | ctxsvL | ctxsvU | ctxldL | ctxldU | sarm | srearm | sstat | scancel | bdecl | brel | bqry
  | faddD | fsubD | fmulD | fdivD | fsqrtD | fmaddD | fmsubD | fnmaddD | fminD | fmaxD | fabsD | fnegD | fceqD | fcltD
  | fcleD | fcunD | faddS | fsubS | fmulS | fdivS | fsqrtS | fmaddS | fmsubS | fnmaddS | fminS | fmaxS | fabsS | fnegS
  | fceqS | fcltS | fcleS | fcunS | fcvtDI | fcvtDIu | fcvtID | fcvtIuD | fcvtSI | fcvtSIu | fcvtIS | fcvtIuS | fcvtDS
  | fcvtSD | tagof | retag | mov | addi | andi | ori | xori | ceqi | clti | cltui | movi | orsh | ldI8 | ldI8u | ldI16
  | ldI16u | ldI32 | ldI32u | ldI | ldF32 | ldF64 | ldVa | ldBa | ldSh | ldSd | ldW | stI8 | stI16 | stI32 | stI | jalr
  | srd | swr | slli | srli | srai | bz | bnz | jal | opaT | opaM | opkT | opkM | tld | tldScale | tst | tstScale | tzf
  | tzfRelease | tdr | tdw | taw | tchk | tsync | tewQ | tewR | tewD | trunLoad | trunGo | trunGoAt | trunStat =>
    exact ⟨_, rfl⟩
  | trap d a imm w =>
    exact ⟨trapM 4 (imm.zeroExtend 64), if_pos hs⟩
  | _ => cases hw

theorem coreStep_illegal {i : Instr} {body : M (Option Word)} {s s1 : State} {k n : Nat} (hk : s.curStall = some k)
    (hn : s.curCtx = some n) (hl : i.legal = false) (hf : fetchCheck s = .ok () s1) :
    coreStep i body s = .next (s1.trapEntry n k 1 0 .none false (insnWord i) s.cur.pc) := by
  have hc : issueChecks i s = .error (.trap 1 0 .none (insnWord i)) s1 := by
    unfold issueChecks
    rw [bind_of_ok hf, hl]
    rfl
  unfold coreStep State.runInsn
  simp only [hk, hc, hn]
  rfl

/-- Settles O3: an illegal word takes ILLEGAL_INSN after its fetch, and TRAP takes its trap. -/
theorem illegalWordAndTrapEnter : Obligations.IllegalWordAndTrapEnter := by
  unfold Obligations.IllegalWordAndTrapEnter
  refine ⟨fun i s s1 k n hs hw hk hn hl hf => ?_, fun w hw => ⟨?_, rfl, ?_⟩, fun imm s s1 n k hb hn1 hk hn => ⟨?_, fun d a => ⟨rfl, ?_⟩⟩⟩
  · obtain ⟨body, he⟩ := exec_coreWord hw hs s
    rw [he]
    exact coreStep_illegal hk hn hl hf
  · simp [Instr.spells, hw]
  · simp [insnWord, coreWord, Word.ofNat, BitVec.zeroExtend]
  · have he := coreStep_error (s2 := s1) (a := .trap 4 0 .none (imm.zeroExtend 64)) hb
      (body := trapM 4 (imm.zeroExtend 64)) rfl
    refine he.trans ?_
    simp only [Aborted, State.abort, hk, hn, Option.getD_some, if_true]
  · simp [Instr.legal]

/-! ### Results of the integer group -/

/-- A row of R42 names tags of values alone. -/
def TagRule.Values (rule : TagRule) : Prop := ∀ t u v, rule t u = some v → IsValue t ∧ IsValue u

/-- `Values` is a check over the ten tags. -/
theorem values_of_tags {rule : TagRule} (h : (allTags.all fun t => allTags.all fun u =>
    (rule t u).isNone || (t ≠ .none && t ≠ .poison && u ≠ .none && u ≠ .poison)) = true) : rule.Values := by
  intro t u v hv
  have ht := List.all_eq_true.mp (List.all_eq_true.mp h t (mem_allTags t)) u (mem_allTags u)
  rw [hv, Option.isNone_some, Bool.false_or] at ht
  simp only [Bool.and_eq_true, decide_eq_true_eq] at ht
  obtain ⟨⟨⟨h1, h2⟩, h3⟩, h4⟩ := ht
  exact ⟨⟨h1, h2⟩, h3, h4⟩

theorem values_ruleInt : ruleInt.Values := values_of_tags (by decide)

theorem values_ruleAdd : ruleAdd.Values := values_of_tags (by decide)

theorem values_ruleSub : ruleSub.Values := values_of_tags (by decide)

theorem values_ruleAnd : ruleAnd.Values := values_of_tags (by decide)

theorem values_ruleCmp : ruleCmp.Values := values_of_tags (by decide)

section
variable {rule : TagRule} {okA okB : Tag → Bool} {f : Word → Word → Word} {i : Instr} {d a b : Reg} {s s1 : State} {x y : Word}
  {ta tb t : Tag}

/-- A register form on a pair of tags that a row of its rule accepts. -/
theorem exec_binary_of_row (hp : rule.Positions okA okB) (hv : rule.Values)
    (he : Machine.exec i s = coreStep i (binary d a b okA okB rule f) s) (ha : s1.reg a = ⟨x, ta⟩) (hb : s1.reg b = ⟨y, tb⟩)
    {w : Word} (hw : f x y = w) (hbeg : Begins i s s1) (hr : rule ta tb = some t) :
    Machine.exec i s = .next (After s (s1.setReg d ⟨w, t⟩) none) := by
  obtain ⟨⟨na, pa⟩, nb, pb⟩ := hv ta tb t hr
  have hne : rule ta tb ≠ none := by simp [hr]
  rw [he, ← hw]
  exact coreStep_ok hbeg (binary_ok ha hb hr ⟨na, pa, (hp.1 ta).mpr ⟨tb, hne⟩⟩ ⟨nb, pb, (hp.2 tb).mpr ⟨ta, hne⟩⟩)

/-- An immediate form on a tag that, with INT, a row of its rule accepts. -/
theorem exec_withImm_of_row (hp : rule.Positions okA okB) (hv : rule.Values) {imm : Word}
    (he : Machine.exec i s = coreStep i (withImm d a imm okA rule f) s) (ha : s1.reg a = ⟨x, ta⟩)
    {w : Word} (hw : f x imm = w) (hbeg : Begins i s s1) (hr : rule ta .int = some t) :
    Machine.exec i s = .next (After s (s1.setReg d ⟨w, t⟩) none) := by
  obtain ⟨hva, -⟩ := hv ta .int t hr
  have hok : okA ta = true := (hp.1 ta).mpr ⟨.int, by simp [hr]⟩
  rw [he, ← hw]
  refine coreStep_ok hbeg ?_
  rw [withImm, get_bind, ha, hr]
  exact propagating_of_accepted (by simp [Accepted, hva, hok])

end

theorem ofBool_beq (x y : Word) : Word.ofBool (x == y) = if x = y then 1 else 0 := by
  by_cases h : x = y <;> simp [Word.ofBool, h]

theorem ofBool_bne (x y : Word) : Word.ofBool (x != y) = if x = y then 0 else 1 := by
  by_cases h : x = y <;> simp [Word.ofBool, h]

theorem ofBool_decide (p : Prop) [Decidable p] : Word.ofBool (decide p) = if p then 1 else 0 := by
  by_cases h : p <;> simp [Word.ofBool, h]

/-- Settles O4: each register form of the integer group by its row of R42. -/
theorem integerGroupResults : Obligations.IntegerGroupResults := by
  unfold Obligations.IntegerGroupResults
  intro d a b s s1 x y ta tb t ha hb goes
  have int {i : Instr} {f : Word → Word → Word} {w : Word} (he : Machine.exec i s = coreStep i (intOp d a b f) s) (hw : f x y = w) :
      goes i ruleInt w := exec_binary_of_row positions_ruleInt values_ruleInt he ha hb hw
  have cmp {i : Instr} {f : Word → Word → Word} {w : Word} (he : Machine.exec i s = coreStep i (cmpOp d a b f) s) (hw : f x y = w) :
      goes i ruleCmp w := exec_binary_of_row positions_ruleCmp values_ruleCmp he ha hb hw
  exact ⟨exec_binary_of_row positions_ruleAdd values_ruleAdd rfl ha hb rfl,
    exec_binary_of_row positions_ruleSub values_ruleSub rfl ha hb rfl,
    exec_binary_of_row positions_ruleAnd values_ruleAnd rfl ha hb rfl,
    int rfl rfl, int rfl rfl, int rfl rfl, int rfl rfl, int rfl rfl, int rfl rfl, int rfl rfl, int rfl rfl, int rfl rfl,
    int rfl rfl, int rfl rfl, int rfl rfl, int rfl rfl, int rfl rfl, int rfl rfl, int rfl rfl,
    cmp rfl (ofBool_beq x y), cmp rfl (ofBool_bne x y), cmp rfl (ofBool_decide _), cmp rfl (ofBool_decide _),
    cmp rfl (ofBool_decide _), cmp rfl (ofBool_decide _)⟩

theorem shift_amount (sh : BitVec 6) : (sh.zeroExtend 64).toNat % 64 = sh.toNat := by
  have := sh.isLt
  simp only [BitVec.zeroExtend, BitVec.toNat_setWidth]
  omega

/-- Settles O5: each immediate form, whose immediate counts as an INT operand. -/
theorem immediateFormResults : Obligations.ImmediateFormResults := by
  unfold Obligations.ImmediateFormResults
  intro d a imm sh s s1 x ta t ha goes m
  have int {i : Instr} {f : Word → Word → Word} {n w : Word} (he : Machine.exec i s = coreStep i (intImm d a n f) s)
      (hw : f x n = w) : goes i ruleInt w := exec_withImm_of_row positions_ruleInt values_ruleInt he ha hw
  have cmp {i : Instr} {f : Word → Word → Word} {n w : Word} (he : Machine.exec i s = coreStep i (cmpImm d a n f) s)
      (hw : f x n = w) : goes i ruleCmp w := exec_withImm_of_row positions_ruleCmp values_ruleCmp he ha hw
  exact ⟨exec_withImm_of_row positions_ruleAdd values_ruleAdd rfl ha rfl,
    exec_withImm_of_row positions_ruleAnd values_ruleAnd rfl ha rfl, int rfl rfl, int rfl rfl,
    int rfl (by rw [sllW, shift_amount]), int rfl (by rw [srlW, shift_amount]), int rfl (by rw [sraW, shift_amount]),
    cmp rfl (ofBool_beq x m), cmp rfl (ofBool_decide _), cmp rfl (ofBool_decide _), int rfl rfl,
    fun hb => coreStep_ok hb rfl⟩

/-! ### TAGOF, RETAG, MOV and the conditional moves -/

theorem retaggable_iff (c : BitVec 4) : retaggable c = true ↔ 1 ≤ c.toNat ∧ c.toNat ≤ 8 ∨ c = 15 := by
  simp [retaggable]

theorem condMove_of_intOrAddr {d a b : Reg} {s : State} (when : Bool) (h : intOrAddr (s.reg b).tag = true) :
    condMove d a b when s = .ok none (if decide ((s.reg b).data ≠ 0) = when then s.setReg d (s.reg a) else s) := by
  unfold condMove
  rw [get_bind, bind_of_ok (condition_of_intOrAddr h)]
  split <;> rfl

/-- Settles O6: TAGOF, RETAG, MOV and the conditional moves. -/
theorem tagAndMoveResults : Obligations.TagAndMoveResults := by
  unfold Obligations.TagAndMoveResults
  intro d a b c s s1 v hv
  subst hv
  have retag_ne (hn : (s1.reg a).tag ≠ .none) : checkNone [⟨2, s1.reg a, fun _ => true⟩] s1 = .ok () s1 :=
    checkNone_of_ne (by simpa using hn)
  refine ⟨fun hb => coreStep_ok hb rfl, fun hb hn hc => coreStep_ok hb ?_, fun hb hn hc => coreStep_error hb ?_,
    fun hb hn => coreStep_error hb ?_, fun hb => coreStep_ok hb rfl, fun hb h => ?_, fun hb h => ?_⟩
  · rw [get_bind]
    refine (bind_of_ok (retag_ne hn)).trans ?_
    rw [(retaggable_iff c).mpr hc]
    rfl
  · rw [get_bind]
    refine (bind_of_ok (retag_ne hn)).trans ?_
    rw [Bool.eq_false_iff.mpr fun h => hc ((retaggable_iff c).mp h)]
    rfl
  · rw [get_bind]
    refine (bind_of_error (checkNone_of_head hn)).trans ?_
    simp only [Opd.fault, hn]
  · refine (coreStep_ok hb (condMove_of_intOrAddr true h)).trans ?_
    simp only [decide_eq_true_eq]
  · refine (coreStep_ok hb (condMove_of_intOrAddr false h)).trans ?_
    simp only [decide_eq_false_iff_not, ne_eq, Decidable.not_not]

end Sys2Proof.Machine
end

section
/-! PROOFS. Conversions: saturation and NaNs (R69, R71). -/

namespace Sys2Proof.Machine

section
variable {f : FFmt} {w e K : Nat}

/-- A number whose exponent is at least `K`, and not a NaN, is an infinity or at least 2^K, where the format's fraction has no
more than `K` bits. -/
theorem decode_large (he : w / 2 ^ f.mb % 2 ^ f.eb = e) (hK : f.bias + K ≤ e) (hm : f.mb ≤ K) (h0 : 0 < K)
    (hn : f.decode w ≠ .nan) : f.decode w = .inf (w.testBit (f.eb + f.mb)) ∨
      ∃ m q : Nat, f.decode w = .fin (w.testBit (f.eb + f.mb)) m q ∧ 2 ^ K ≤ m * 2 ^ q := by
  simp only [FFmt.decode, he] at hn ⊢
  by_cases hi : e = 2 ^ f.eb - 1
  · simp only [if_pos hi] at hn ⊢
    left
    by_cases hz : w % 2 ^ f.mb = 0
    · rw [if_pos hz]
    · exact absurd (if_neg hz) hn
  · right
    refine ⟨2 ^ f.mb + w % 2 ^ f.mb, e - f.bias - f.mb, ?_, ?_⟩
    · rw [if_neg hi, if_neg (by omega)]
      congr 1
      omega
    · calc 2 ^ K ≤ 2 ^ (f.mb + (e - f.bias - f.mb)) := Nat.pow_le_pow_right (by omega) (by omega)
        _ = 2 ^ f.mb * 2 ^ (e - f.bias - f.mb) := Nat.pow_add ..
        _ ≤ _ := Nat.mul_le_mul_right _ (Nat.le_add_right ..)

end

theorem roundInt_integer (rm : RMode) (neg : Bool) (m q : Nat) :
    roundInt rm neg m q = if neg then -((m * 2 ^ q : Nat) : Int) else (m * 2 ^ q : Nat) := by
  simp [roundInt]

theorem roundInt_negative (rm : RMode) (m : Nat) (e : Int) : roundInt rm true m e ≤ 0 := by
  simp only [roundInt, if_true]
  omega

section
variable {rm : RMode} {v : FVal} {neg : Bool} {lo hi : Int} {K : Nat}

/-- R71: a value of 2^K or more saturates at bounds that it reaches. -/
theorem fToInt_saturates (hv : v = .inf neg ∨ ∃ m q : Nat, v = .fin neg m q ∧ 2 ^ K ≤ m * 2 ^ q) (hl : lo ≤ hi) :
    (neg = false → hi ≤ 2 ^ K → fToInt rm lo hi v = hi) ∧ (neg = true → -(2 ^ K) ≤ lo → fToInt rm lo hi v = lo) := by
  obtain rfl | ⟨m, q, rfl, hm⟩ := hv
  · constructor <;> rintro rfl - <;> simp [fToInt]
  · have hm' : (2 : Int) ^ K ≤ (m * 2 ^ q : Nat) := by exact_mod_cast hm
    constructor <;> rintro rfl h <;> simp only [fToInt, roundInt_integer, if_true, Bool.false_eq_true, if_false] <;> omega

theorem fToInt_negative (hv : v = .inf true ∨ ∃ m e, v = .fin true m e) (h0 : 0 ≤ hi) : fToInt rm 0 hi v = 0 := by
  obtain rfl | ⟨m, e, rfl⟩ := hv
  · rfl
  · have := roundInt_negative rm m e
    simp only [fToInt]
    omega

end

theorem decode_negative {f : FFmt} {w : Nat} (hs : w.testBit (f.eb + f.mb) = true) (hn : f.decode w ≠ .nan) :
    f.decode w = .inf true ∨ ∃ m e, f.decode w = .fin true m e := by
  simp only [FFmt.decode, hs] at hn ⊢
  by_cases he : w / 2 ^ f.mb % 2 ^ f.eb = 2 ^ f.eb - 1
  · rw [if_pos he] at hn ⊢
    by_cases hm : w % 2 ^ f.mb = 0
    · exact .inl (if_pos hm)
    · exact absurd (if_neg hm) hn
  · rw [if_neg he]
    by_cases h0 : w / 2 ^ f.mb % 2 ^ f.eb = 0
    · exact .inr ⟨_, _, if_pos h0⟩
    · exact .inr ⟨_, _, if_neg h0⟩

/-- R71: what the conversions to integer of a format answer at their bounds. -/
theorem toInt_bounds {f : FFmt} (rm : Rm) {x : Word} {nan neg : Prop} {e : Nat} (hm : f.mb ≤ 63)
    (hnan : f.read x = .nan ↔ nan) (hneg : (x.toNat % 2 ^ (1 + f.eb + f.mb)).testBit (f.eb + f.mb) = true ↔ neg)
    (he : x.toNat % 2 ^ (1 + f.eb + f.mb) / 2 ^ f.mb % 2 ^ f.eb = e) :
    (nan → f.toSigned rm x = 0 ∧ f.toUnsigned rm x = 0) ∧
    (¬ nan → f.bias + 63 ≤ e → ¬ neg → f.toSigned rm x = 0x7FFFFFFFFFFFFFFF) ∧
    (¬ nan → f.bias + 63 ≤ e → neg → f.toSigned rm x = 0x8000000000000000) ∧
    (¬ nan → f.bias + 64 ≤ e → ¬ neg → f.toUnsigned rm x = 0xFFFFFFFFFFFFFFFF) ∧ (¬ nan → neg → f.toUnsigned rm x = 0) := by
  unfold FFmt.toSigned FFmt.toUnsigned
  rw [← hnan, ← hneg]
  unfold FFmt.read
  refine ⟨fun h => by rw [h]; exact ⟨rfl, rfl⟩, fun h hb hs => ?_, fun h hb hs => ?_, fun h hb hs => ?_, fun h hs => ?_⟩
  · rw [(fToInt_saturates (decode_large he hb hm (by decide) h) (by decide)).1 (Bool.eq_false_iff.mpr hs) (by decide)]
    rfl
  · rw [(fToInt_saturates (decode_large he hb hm (by decide) h) (by decide)).2 hs (by decide)]
    rfl
  · rw [(fToInt_saturates (decode_large he hb (by omega) (by decide) h) (by decide)).1 (Bool.eq_false_iff.mpr hs) (by decide)]
    rfl
  · rw [fToInt_negative (decode_negative hs h) (by decide)]
    rfl

/-- Settles O9: each conversion on its source tag, saturation at both ends, and NaNs. -/
theorem conversionResults : Obligations.ConversionResults := by
  unfold Obligations.ConversionResults
  refine ⟨fun d a rm s s1 x => ?_, fun rm x => ?_⟩
  · intro goes
    have conv {i : Instr} {src dst : Tag} {f : Word → Word} (he : Machine.exec i s = coreStep i (unary d a src dst f) s)
        (hs : IsValue src) : goes i src (f x) dst := fun hb ha => exec_unary he hs ha hb
    have int : IsValue .int := by simp [IsValue]
    exact ⟨conv rfl int, conv rfl int, conv rfl isValue_f64, conv rfl isValue_f64, conv rfl int, conv rfl int,
      conv rfl isValue_f32, conv rfl isValue_f32, conv (f := fun x => fmtD.res .rne (fmtS.read x)) rfl isValue_f32,
      conv (f := fun x => fmtS.res (.ofBits rm) (fmtD.read x)) rfl isValue_f64⟩
  · intro toInt nanD nanS
    have bit (n : Nat) : (x.toNat % 2 ^ (n + 1)).testBit n = true ↔ x.bit n = true := by
      simp [Word.bit, BitVec.getLsbD]
    refine ⟨toInt_bounds rm (by decide) (fmtD_read_eq_nan_iff x) (bit 63) ?_, toInt_bounds rm (by decide) (fmtS_read_eq_nan_iff x) (bit 31) ?_,
      fun hn => ?_, fun hn => ?_⟩
    · simp only [fmtD, Word.bits, Nat.shiftRight_eq_div_pow]
      omega
    · simp only [fmtS, Word.bits, Nat.shiftRight_eq_div_pow]
      omega
    · rw [(fmtS_read_eq_nan_iff x).mpr hn, FFmt.res_nan, fmtD_encodes.qnan]
    · rw [(fmtD_read_eq_nan_iff x).mpr hn, FFmt.res_nan, fmtS_encodes.qnan]

end Sys2Proof.Machine
end

section
/-! PROOFS. SRD, the fences, WAIT and YIELD, and the range instructions (R55, R78, R79, R81, R263, R264, R276, R301, R302,
R341 to R346). -/

namespace Sys2Proof.Machine

/-- Settles O15: SRD of a permitted register, and what the registers of the stall read. -/
theorem srdReadsSystemRegisters : Obligations.SrdReadsSystemRegisters := by
  unfold Obligations.SrdReadsSystemRegisters
  refine ⟨fun d n s s1 tag svc sys hb ho hr ha => coreStep_ok hb ?_, fun s => ⟨rfl, rfl, rfl, rfl, rfl, rfl, rfl, rfl, rfl, rfl, rfl,
    rfl, rfl, rfl, rfl⟩⟩
  have hc : checkSysReg n.toNat false s1 = .ok () s1 := by
    rw [checkSysReg_mapped hr rfl]
    simp [ha]
  have hown : (s1.curCtx.isNone && ownReg n.toNat) = false := by
    obtain h | h := ho
    · rw [Option.isSome_iff_ne_none] at h
      simp [h]
    · rw [h, Bool.and_false]
  refine (bind_of_ok hc).trans ?_
  rw [get_bind, hown]
  rfl

/-! ### Fences -/

theorem curStall_of_begins {i : Instr} {s s1 : State} (hb : Begins i s s1) : s1.curStall.isSome = true := by
  rw [(issued_dispatch hb.2).1]
  exact hb.1

theorem stall_modStall_self (s : State) (k : Nat) (f : Stall → Stall) : (s.modStall k f).stall k = f (s.stall k) :=
  Tbl.get_set_same ..

/-- R301: the stall that executes, once its in-use copies are loaded. -/
theorem cur_loadInUse (s : State) :
    (match s.curCtx with
      | some c => s.loadInUse c (s.curStall.getD 31)
      | none => s.modCur Stall.loadInUse).cur = Stall.loadInUse s.cur := by
  have hm : ((s.modCur Stall.loadInUse).stall (s.curStall.getD 31)) = Stall.loadInUse s.cur := stall_modStall_self ..
  split
  · next c _ =>
    have hk : (s.loadInUse c (s.curStall.getD 31)).curStall = s.curStall := curStall_modCtx _ _ _ fun _ => rfl
    rw [State.cur, hk]
    exact hm
  · exact hm

/-- What SSYNC does once the in-use copies are loaded and nothing keeps it waiting (R302). -/
theorem ssync_ends (s u : State) {inv : Nat} {asid : BitVec 16} (h : inv = 0 ∨ u.invDone inv asid = true) :
    (do
      set { u with core := { u.core with tlb := u.core.tlb.invalidate inv asid, ttlb := u.core.ttlb.invalidate inv asid } }
      if inv ≠ 0 && !u.invDone inv asid then waitM .earlier
      modify fun s => s.modCur fun t => { t with ptbase := t.ptbase &&& ~~~3 }
      pure none : M (Option Word)) s = .ok none (State.modCur
        { u with core := { u.core with tlb := u.core.tlb.invalidate inv asid, ttlb := u.core.ttlb.invalidate inv asid } }
        fun t => { t with ptbase := t.ptbase &&& ~~~3 }) := by
  have hstop : (decide (inv ≠ 0) && !u.invDone inv asid) = false := by
    obtain h | h := h <;> simp [h]
  rw [set_bind, hstop]
  rfl

/-- Settles O14: FENCE, FENCE.ST, IFENCE, and SSYNC in system mode. -/
theorem fenceGroupResults : Obligations.FenceGroupResults := by
  unfold Obligations.FenceGroupResults
  refine ⟨fun s s1 => ⟨fun hb hi => coreStep_ok hb ?_, fun hb hi => coreStep_error hb ?_, fun hb => coreStep_ok hb rfl,
    fun hb => coreStep_ok hb rfl⟩, fun s s1 hb hm hi => ?_⟩
  · rw [get_bind, hi]
    rfl
  · rw [get_bind, hi]
    rfl
  · intro inv asid s2 s3 hd
    have hcur : s2.cur = Stall.loadInUse s1.cur := cur_loadInUse s1
    have hinv : s2.cur.ptbase.bits 1 0 = inv := by rw [hcur]; rfl
    have hasid : s2.cur.useAsid = asid := by rw [hcur]; rfl
    have he := ssync_ends s1 s2 hd
    rw [← hinv, ← hasid] at he
    refine coreStep_ok hb ((bind_of_ok (requireSystem_system _ hm)).trans ?_)
    rw [get_bind, hi]
    refine Eq.trans ?_ (he.trans ?_)
    · rfl
    · simp only [s3, hinv, hasid]

/-! ### WAIT and YIELD -/

theorem en_eq (e : Ctx) : e.en = BitVec.ofNat 8 (e.evmask.toNat % 128) := by
  simp [Ctx.en, Word.bits]

theorem and_not_and_self {n : Nat} (p q : BitVec n) : p &&& ~~~(p &&& q) = p &&& ~~~q := by
  apply BitVec.eq_of_getLsbD_eq
  intro i hi
  simp only [BitVec.getLsbD_and, BitVec.getLsbD_not, hi, decide_true, Bool.true_and]
  cases p.getLsbD i <;> simp

/-- R263: no event and no timer is enabled; bit 7 of evmask is none. -/
theorem nothing_enabled (e : Ctx) : (e.en = 0 && !e.evmask.bit 8) =
    decide (e.evmask.toNat % 512 = 0 ∨ e.evmask.toNat % 512 = 128) := by
  have hen : e.en = 0 ↔ e.evmask.toNat % 128 = 0 := by
    rw [en_eq, ← BitVec.toNat_inj]
    simp only [BitVec.toNat_ofNat, show BitVec.toNat (0 : BitVec 8) = 0 from rfl]
    omega
  have hbit : e.evmask.bit 8 = decide (e.evmask.toNat / 256 % 2 = 1) := by
    rw [Word.bit, BitVec.getLsbD, Nat.testBit_eq_decide_div_mod_eq]
  rw [hbit, ← decide_not, ← Bool.decide_and]
  refine decide_eq_decide.mpr ?_
  rw [hen]
  omega

/-- R276: the reserve stall at its WAIT, the held stalls that hold no context freed and the withdrawn requests gone. -/
def waitState (s : State) : State :=
  let st := s.core.reserve.holds.foldl (fun t p => if (s.resident p.1).isNone then Tbl.del t p.1 else t) s.core.stalls
  let s1 := { s with core := { s.core with stalls := st, reserve := { s.core.reserve with holds := [], current := none } } }
  { s1 with core := { s1.core with reserve := { s1.core.reserve with requests := s1.liveRequests } } }

/-- R276: the context that the reserve stall goes on with, if it is next to be dispatched and not resident. -/
def waitNext (s : State) : Option Nat :=
  match s.best with
  | some b => if (s.ctx b).stall.isNone then some b else none
  | none => none

/-- R276: what the end of WAIT in the reserve stall does, by the context that it goes on with. -/
def waitEnd (s : State) (next : Option Nat) : M (Option Word) := do
  match next with
  | some c =>
    let s3 := { s with core := { s.core with reserve := { s.core.reserve with
      requests := s.core.reserve.requests.filter (· ≠ c) } } }
    set ((s3.overflowArgs c).pmcAdd 3 1)
  | none => set ({ s with core := { s.core with disp := .idle } }).trigger
  pure none

theorem waitReserve_eq (s : State) : waitReserve s = waitEnd (waitState s) (waitNext (waitState s)) s := rfl

theorem waitNext_some {s : State} {c : Nat} (hb : s.best = some c) (hc : (s.ctx c).stall = none) : waitNext s = some c := by
  simp only [waitNext, hb, hc, Option.isNone_none, if_true]

theorem waitNext_none {s : State} (h : ∀ c, s.best = some c → (s.ctx c).stall ≠ none) : waitNext s = none := by
  unfold waitNext
  cases hb : s.best with
  | none => rfl
  | some c => exact if_neg (by simpa using h c hb)

theorem waitContext_run (i : Instr) (c : Nat) (s : State) : waitContext i c s =
    if (s.ctx c).pend &&& (s.ctx c).en ≠ 0 then .ok none (s.modCtx c Ctx.consume)
    else if (s.ctx c).en = 0 && !(s.ctx c).evmask.bit 8 then .error (.trap 0x82 0 .none (insnWord i)) s
    else .ok none (State.trigger { s.modCtx c (fun e => { e with mode := .waiting, inWait := true }) with
      core := { (s.modCtx c fun e => { e with mode := .waiting, inWait := true }).core with disp := .idle } }) := by
  unfold waitContext
  rw [get_bind]
  dsimp only
  split
  · rfl
  · split <;> rfl

/-- Settles O21: WAIT of a context and of the reserve stall, and YIELD. -/
theorem waitAndYield : Obligations.WaitAndYield := by
  unfold Obligations.WaitAndYield
  refine ⟨fun s s1 hc hb => ?_, fun s s1 c hc => ?_⟩
  · intro kept freed r s2
    have hw : ∀ t, waitReserve s1 = .ok none t → Machine.exec (.wait 0 0 0) s = .next (After s t none) := fun t ht =>
      coreStep_ok hb (by rw [get_bind, hc]; exact ht)
    refine ⟨fun c hbest hst => hw _ ?_, fun hno => hw _ ?_⟩
    · rw [waitReserve_eq, waitNext_some (s := waitState s1) hbest hst]
      rfl
    · rw [waitReserve_eq, waitNext_none (s := waitState s1) hno]
      rfl
  · intro e on
    have hon : on = e.pend &&& e.en := by rw [en_eq]
    have hdead : (e.en = 0 && !e.evmask.bit 8) = decide (e.evmask.toNat % 512 = 0 ∨ e.evmask.toNat % 512 = 128) := nothing_enabled e
    refine ⟨fun hb h => coreStep_ok hb ?_, fun hb h0 h1 h2 => coreStep_ok hb ?_, fun hb h0 h => coreStep_error hb ?_,
      fun hb => coreStep_ok hb (by rw [get_bind, hc]; rfl)⟩
    · rw [get_bind, hc]
      refine (waitContext_run _ c s1).trans ((if_pos (hon ▸ h)).trans ?_)
      rw [State.modCtx, show (s1.ctx c).consume = { e with woke := on, pend := e.pend &&& ~~~on } by
        rw [hon, and_not_and_self]; rfl]
      rfl
    · rw [get_bind, hc]
      refine (waitContext_run _ c s1).trans ((if_neg (not_not_intro (hon ▸ h0))).trans (if_neg ?_))
      rw [hdead]
      simp [h1, h2]
    · rw [get_bind, hc]
      refine (waitContext_run _ c s1).trans ((if_neg (not_not_intro (hon ▸ h0))).trans (if_pos ?_))
      rw [hdead]
      exact decide_eq_true h

end Sys2Proof.Machine
end

section
/-! PROOFS. The range instructions (R341 to R346), and SSTAT, which changes more than its register. -/

namespace Sys2Proof.Machine

/-! ### BDECL, BREL and BQRY -/

section
variable {d a b : Reg} {s s1 : State} {x y : Word} {c : Nat}

/-- BDECL on operands in order, by what the context's ranges answer. -/
theorem exec_bdecl (hc : s1.curCtx = some c) (hb : Begins (.bdecl d a b) s s1) (hx : s1.reg a = ⟨x, .baddr⟩)
    (hy : s1.reg b = ⟨y, .int⟩) (h0 : y.bits 63 34 = 0) (hn : y.bits 31 0 ≠ 0) (hw : (y.bit 32 && y.bit 33) = false)
    (hx4 : x.bits 3 0 = 0) (hn16 : y.bits 31 0 % 16 = 0) (hok : s1.cur.baddrOk x (y.bits 31 0) = true) :
    Machine.exec (.bdecl d a b) s = .next (After s (
      if (s1.ctx c).rangeClash (s1.cur.relocate x) (y.bits 31 0) (y.bit 32) then s1.setReg d (TVal.int 0x121)
      else match (s1.ctx c).freeRange with
        | none => s1.setReg d (TVal.int 0x120)
        | some i => (s1.declare c i (s1.cur.relocate x) (y.bits 31 0) x.toNat (y.bit 32) (y.bit 33)).setReg d
            (TVal.int (Word.ofNat i))) none) := by
  have ht : checkTags [⟨2, s1.reg a, only .baddr⟩, ⟨3, s1.reg b, only .int⟩] s1 = .ok () s1 :=
    checkTags_of_accepted (by simp [Accepted, IsValue, hx, hy, only])
  refine coreStep_ok hb ?_
  rw [get_bind]
  refine (bind_of_ok ht).trans ?_
  simp only [hx, hy, h0, hn, hw, hx4, hn16, hok, hc, ne_eq, not_true_eq_false, decide_false, Bool.or_self, Bool.not_true,
    Bool.false_eq_true, if_false]
  split
  · rfl
  · cases (s1.ctx c).freeRange <;> rfl

theorem entryOperand_ok (hx : s1.reg a = ⟨x, .int⟩) (h64 : x.toNat < 64) : entryOperand a s1 = .ok x.toNat s1 := by
  have ht : checkTags [⟨2, s1.reg a, only .int⟩] s1 = .ok () s1 :=
    checkTags_of_accepted (by simp [Accepted, IsValue, hx, only])
  unfold entryOperand
  rw [get_bind]
  refine (bind_of_ok ht).trans ?_
  rw [hx, if_neg (show ¬ 63 < x.toNat by omega)]
  rfl

end

/-- Settles O31: BDECL by what the declared ranges answer, BREL and BQRY. -/
theorem rangeInstructions : Obligations.RangeInstructions := by
  unfold Obligations.RangeInstructions
  intro d a b s s1 x y c hc n off ready
  have hdecl := fun (⟨hb, hx, hy, h0, hn, hw, hx4, hn16, hok⟩ : ready) => exec_bdecl hc hb hx hy h0 hn hw hx4 hn16 hok
  refine ⟨fun hr hcl => ?_, fun hr hcl hf => ?_, fun i hr hcl hf => ?_, fun hb hx h64 hi => coreStep_ok hb ?_,
    fun hb hx h64 => coreStep_ok hb ?_⟩
  · rw [hdecl hr, if_pos hcl]
    rfl
  · rw [hdecl hr, if_neg (Bool.eq_false_iff.mp hcl), hf]
    rfl
  · rw [hdecl hr, if_neg (Bool.eq_false_iff.mp hcl), hf]
    rfl
  · refine (bind_of_ok (entryOperand_ok hx h64)).trans ?_
    simp only [get_bind, hc, hi]
    rfl
  · refine (bind_of_ok (entryOperand_ok hx h64)).trans ?_
    rw [get_bind, hc]
    rfl

/-! ### SSTAT tries the acquire of its slot -/

/-- A descriptor of one row of 16 bytes, from 0x3000 to offset 0, whose acquire has not been tried. -/
def pendingDescriptor : StreamD :=
  { kind := 0, flow := false, notify := false, consume := false, bufOff := 0, bstride := 0, rowLen := 16, rows := 1,
    memPa := 0x3000, mstride := 0, tlog2 := 0, idxPa := 0, statPa := none, statVa := 0, user := 0, granted := false,
    rowsDone := 0, pchunks := 0, firstBad := 0, badRows := 0, cancel := false }

/-- Context 5 runs in stall 2 at 0x1000, in local memory, with the handle 0x50100 in g5; slot 0 of engine 0 holds, for it, the
descriptor above, over buffer memory of which nothing is reserved. -/
def beforeSstat : State :=
  let s := State.reset
  let code : TlbEntry :=
    { base := 0, size := 20, asid := 0, global := true, level := 0, oa := 0, rd := true, wr := true, ex := true, svc := true,
      key := 0, st := false, ty := 1 }
  let stall : Stall := { Stall.fresh with pc := 0x1000, regs := [(5, ⟨0x50100, .sdesc⟩)], bbound := 0x10000 }
  { s with
    core := { s.core with disp := .ctx 5, stalls := [(2, stall)],
                          ctxs := [(5, { Ctx.free with mode := .running, stall := some 2 })],
                          tlb := { entries := [(0, code)], lfsr := 0xACE1, walk := [] } }
    cfg := { active := [(0x100000, 3), (0x100001, 0x1000005), (0x110000, 0xF0000), (0x110001, 0x1FF0000)], staged := [] }
    boot := { s.boot with por := false, sstep := 10, straps := { s.boot.straps with blkBase := 0xFFFF, stePresent := 1 } }
    streams := [(0, { gen := 1, ctx := 5, act := some pendingDescriptor, shadow := none })] }

/-- Whether the active descriptor of slot 0 holds its reservation. -/
def slotGranted (s : State) : Option Bool := (s.stream 0).act.map (·.granted)

/-- What `sstat 7 0 5` meets after its fetch. -/
def sstatBegun : State := (beforeSstat.issued (.sstat 7 0 5)).getD beforeSstat

theorem beforeSstat_begins : Begins (.sstat 7 0 5) beforeSstat sstatBegun := by
  have h : beforeSstat.curStall.isSome = true ∧ (beforeSstat.issued (.sstat 7 0 5)).isSome = true := by decide +kernel
  obtain ⟨hk, hi⟩ := h
  obtain ⟨t, ht⟩ := Option.isSome_iff_exists.mp hi
  exact ⟨hk, by rw [sstatBegun, ht, Option.getD_some]⟩

theorem sstatBegun_operand : sstatBegun.reg 5 = ⟨0x50100, .sdesc⟩ ∧ sstatBegun.handleOk 0x50100 = true ∧
    slotGranted sstatBegun = some false := by decide +kernel

/-- R355: SSTAT tries the acquire of the slot's descriptor, and is granted it. -/
theorem sstat_grants : (match Machine.exec (.sstat 7 0 5) beforeSstat with
    | .next t => slotGranted t
    | _ => none) = some true := by decide +kernel

theorem slotGranted_after (s t : State) (d : Reg) (v : TVal) : slotGranted (After s (t.setReg d v) none) = slotGranted t := by
  have hr : ∀ (u : State) (k : Nat) (n : Option Nat) (pc : Word), (u.retire k n pc).streams = u.streams := by
    intro u k n pc
    obtain ⟨_, _, _, _, _, hp⟩ := pmcAdd_fetched u 1 1
    rw [State.retire.eq_def, hp]
    dsimp only
    split
    · rfl
    · split <;> rfl
  simp only [slotGranted, State.stream, After, hr, State.setReg_streams]

/-- Refutes O32: SSTAT of a live slot whose descriptor holds nothing tries the engine's acquire, which is granted here: the
descriptor and the buffer change besides register d. -/
theorem not_streamInstructions : ¬ Obligations.StreamInstructions := by
  unfold Obligations.StreamInstructions
  rintro ⟨-, -, h⟩
  obtain ⟨-, -, hstat, -⟩ := h 7 0 5 beforeSstat sstatBegun sstatBegun 0 0 0x50100 pendingDescriptor 0 0
  obtain ⟨hreg, hok, hnot⟩ := sstatBegun_operand
  have hg := sstat_grants
  rw [hstat beforeSstat_begins hreg hok] at hg
  simp only [slotGranted_after, hnot, Option.some.injEq, Bool.false_eq_true] at hg

end Sys2Proof.Machine
end

section
/-! PROOFS. Tile instructions at issue: acceptance into the queue, control instructions, and sealed runs (R180 to R204, R217,
R501). -/

namespace Sys2Proof.Machine

/-! ### The waits of issue -/

section
variable {q : Issued} {n : Nat} {s : State}

theorem issuePaced_ok (h : s.paced q.c = false) : issuePaced q s = .ok () s := by
  unfold issuePaced
  rw [get_bind, h]
  rfl

theorem waitTurn_ok {engines : Bool} (hp : s.paced q.c = false) (hq : (s.sad n).queue = [])
    (ha : engines = true → s.tile.active.toNat = n) : waitTurn q n engines s = .ok () s := by
  unfold waitTurn
  refine (bind_of_ok (issuePaced_ok hp)).trans ?_
  have hw : (engines && decide (s.tile.active.toNat ≠ n)) = false := by
    cases engines
    · rfl
    · simp [ha rfl]
  rw [get_bind, hq, hw]
  rfl

theorem waitTurn_idle (hp : s.paced q.c = false) (hq : (s.sad n).queue = []) : waitTurn q n false s = .ok () s :=
  waitTurn_ok hp hq fun h => absurd h Bool.false_ne_true

end

/-! ### Acceptance into the queue -/

theorem exec_queuedTile {i : Instr} (h : queuedTile i = true) (s : State) :
    Machine.exec i s = coreStep i (acceptTile i) s := by
  cases i with
  | opaT | opaM | opkT | opkM | tzf | tdr | tdw | taw | tewQ => rfl
  | _ => cases h

/-- Settles O23: an instruction that works on the field is accepted at the end of its saddle's queue. -/
theorem tileInstructionIsQueued : Obligations.TileInstructionIsQueued := by
  unfold Obligations.TileInstructionIsQueued
  intro i s s1 s3 s4 q n rows rows2 hi hb hiss hr hp hq op
  obtain ⟨s2, h2, h3⟩ := hiss
  rw [exec_queuedTile hi]
  refine coreStep_ok hb ?_
  unfold acceptTile
  refine (bind_of_ok h2).trans ((bind_of_ok h3).trans ((bind_of_ok hr).trans ((bind_of_ok (issuePaced_ok hp)).trans ?_)))
  rw [get_bind, if_neg (by omega)]
  rfl

/-! ### Release, checksum test, TSYNC and control words -/

/-- Settles O25: the release, TCHK, TSYNC and the control-word instructions. -/
theorem tileControlCompletes : Obligations.TileControlCompletes := by
  unfold Obligations.TileControlCompletes
  intro sh l w s s1 s2 s3 q n
  refine ⟨fun hb hc h2 hp hi => coreStep_ok hb ?_, fun hb hiss hp hq ha => ?_, fun hb hiss hp hq ha => ?_, fun hb hiss hp hq => ?_,
    fun hb hiss hp hq => ?_, fun hb hiss hp hq => ?_⟩
  · rw [get_bind, hc]
    refine (bind_of_ok h2).trans ((bind_of_ok (issuePaced_ok hp)).trans ?_)
    rw [get_bind, hi]
    rfl
  · obtain ⟨s2, h2, h3⟩ := hiss
    intro p
    refine ⟨fun he => coreStep_ok hb ?_, fun e es he => coreStep_error hb ?_⟩
    · refine (bind_of_ok h2).trans ((bind_of_ok h3).trans ((bind_of_ok (waitTurn_ok hp hq fun _ => ha)).trans ?_))
      rw [get_bind, set_bind, show ((q.run []).perform n (s3.countIssue n q)).errs = [] from he]
      rfl
    · refine (bind_of_ok h2).trans ((bind_of_ok h3).trans ((bind_of_ok (waitTurn_ok hp hq fun _ => ha)).trans ?_))
      rw [get_bind, set_bind, show ((q.run []).perform n (s3.countIssue n q)).errs = e :: es from he]
      rfl
  · obtain ⟨s2, h2, h3⟩ := hiss
    refine coreStep_ok hb ((bind_of_ok h2).trans ((bind_of_ok h3).trans ((bind_of_ok (waitTurn_idle hp hq)).trans ?_)))
    rw [get_bind, ha]
    rfl
  · obtain ⟨s2, h2, h3⟩ := hiss
    exact coreStep_ok hb ((bind_of_ok h2).trans ((bind_of_ok h3).trans ((bind_of_ok (waitTurn_idle hp hq)).trans rfl)))
  · obtain ⟨s2, h2, h3⟩ := hiss
    refine coreStep_ok hb ((bind_of_ok h2).trans ((bind_of_ok h3).trans ((bind_of_ok (issuePaced_ok hp)).trans ?_)))
    rw [get_bind, hq]
    rfl
  · obtain ⟨s2, h2, h3⟩ := hiss
    refine coreStep_error hb ((bind_of_ok h2).trans ((bind_of_ok h3).trans ((bind_of_ok (issuePaced_ok hp)).trans ?_)))
    rw [get_bind, List.isEmpty_eq_false_iff.mpr hq]
    rfl

/-! ### Sealed runs -/

/-- R217: the steps of an admission from its pins on. -/
def admitFromPins (i : Instr) (q : Issued) (n : Nat) (m : Image) (gate : Bool) (at' : Option Word) : M Unit := do
  let pins ← takePins (← get).cur.xctx q.c m.pins
  if ((← get).ctx q.c).waitAt.map (·.insn) ≠ some i then modify fun s => s.abandonWait q.c
  takeRanges q.c m.ranges
  let s ← get
  if s.power.pfail || !s.governorAdmits (m.energy % 16) then waitM .governor
  modify fun s => (s.admitRun q.c n m pins gate at').countIssue n q
  if gate then modify fun s => s.arrive q.c

theorem admitFromPins_ok {i : Instr} {q : Issued} {n : Nat} {m : Image} {pins : List HeldPin} {s3 s4 s6 : State} (gate : Bool)
    (at' : Option Word) (hpin : takePins s3.cur.xctx q.c m.pins s3 = .ok pins s4)
    (hrange : takeRanges q.c m.ranges
      (if (s4.ctx q.c).waitAt.map (·.insn) ≠ some i then s4.abandonWait q.c else s4) = .ok () s6)
    (hpf : s6.power.pfail = false) (hgov : s6.governorAdmits (m.energy % 16) = true) :
    admitFromPins i q n m gate at' s3 = .ok () (let t := (s6.admitRun q.c n m pins gate at').countIssue n q
      if gate then t.arrive q.c else t) := by
  unfold admitFromPins
  rw [get_bind]
  refine (bind_of_ok hpin).trans ?_
  rw [get_bind]
  split at hrange
  · next hw =>
    rw [if_pos hw]
    refine (bind_of_ok rfl).trans ((bind_of_ok hrange).trans ?_)
    rw [get_bind, hpf, hgov]
    cases gate <;> rfl
  · next hw =>
    rw [if_neg hw]
    refine (bind_of_ok hrange).trans ?_
    rw [get_bind, hpf, hgov]
    cases gate <;> rfl

/-- R217: an admission whose every step succeeds. -/
theorem admitImage_ok {i : Instr} {s1 s2 s6 : State} {q : Issued} {n : Nat} {m : Image} {pins : List HeldPin} (gate : Bool)
    (at' : Option Word) (h2 : issueTile i s1 = .ok q s2) (ha : Admits i s1 q n m pins s6) :
    admitImage i q gate at' s2 = .ok () (let t := (s6.admitRun q.c n m pins gate at').countIssue n q
      if gate then t.arrive q.c else t) := by
  obtain ⟨c, s2', s3, s4, h2', hf, h3, h5, hpin, hrange, hpf, hgov⟩ := ha
  rw [h2] at h2'
  cases h2'
  have htail := admitFromPins_ok (n := n) gate at' hpin hrange hpf hgov
  unfold admitImage
  rw [get_bind, hf]
  refine (bind_of_ok h3).trans ?_
  rw [get_bind]
  cases hin : s3.inStep5 q.c i with
  | true => exact htail
  | false =>
    obtain ⟨hp, hh⟩ := h5.resolve_left (by simp [hin])
    refine (bind_of_ok (issuePaced_ok hp)).trans ?_
    rw [hh]
    exact htail

/-- Settles O26: TRUN.LOAD, the admissions, an image that is not loaded, and TRUN.STAT. -/
theorem sealedRunInstructions : Obligations.SealedRunInstructions := by
  unfold Obligations.SealedRunInstructions
  intro sh l r gate s s1 s2 s3 s4 q n m pins
  refine ⟨fun hb hiss hp hq hl => ?_, fun hb ha => ?_, fun hb ha => ?_, fun hb h2 hf => ?_, fun hb hiss hp => ?_⟩
  · obtain ⟨s2, h2, h3⟩ := hiss
    exact coreStep_ok hb ((bind_of_ok h2).trans ((bind_of_ok h3).trans ((bind_of_ok (waitTurn_idle hp hq)).trans
      ((bind_of_ok hl).trans rfl))))
  · obtain ⟨-, s2, -, -, h2, -⟩ := id ha
    exact coreStep_ok hb ((bind_of_ok h2).trans ((bind_of_ok (admitImage_ok gate none h2 ha)).trans rfl))
  · obtain ⟨-, s2, -, -, h2, -⟩ := id ha
    exact coreStep_ok hb ((bind_of_ok h2).trans ((bind_of_ok (admitImage_ok false (some q.right.data) h2 ha)).trans rfl))
  · refine coreStep_error hb ((bind_of_ok h2).trans (bind_of_error ?_))
    unfold admitImage
    rw [get_bind, hf]
    rfl
  · obtain ⟨s2, h2, h3⟩ := hiss
    exact coreStep_ok hb ((bind_of_ok h2).trans ((bind_of_ok h3).trans ((bind_of_ok (issuePaced_ok hp)).trans rfl)))

end Sys2Proof.Machine
end

section
/-! PROOFS. The arithmetic of the Groom, and when its results are read (R394 to R396, R406). -/

namespace Sys2Proof.Machine

/-! ### Results on their way in lunge mode (R396) -/

/-- The value of register `n` after the results of `l` are written over `v`. -/
def lateValue (n : Nat) (v : Half) (l : List (Nat × Half × Nat)) : Half := l.foldl (fun v e => if e.1 = n then e.2.1 else v) v

theorem reg_setReg (h : GThread) (n d : Nat) (v : Half) : (h.setReg d v).reg n = if d = n then v else h.reg n := by
  unfold GThread.reg GThread.setReg
  by_cases hd : d = n
  · subst hd
    rw [if_pos rfl, Tbl.get_set_same]
  · rw [if_neg hd, Tbl.get_set_other _ _ _ (Ne.symm hd)]

theorem reg_foldl_setReg (n : Nat) (l : List (Nat × Half × Nat)) (h : GThread) :
    (l.foldl (fun h e => h.setReg e.1 e.2.1) h).reg n = lateValue n (h.reg n) l := by
  induction l generalizing h with
  | nil => rfl
  | cons e l ih =>
    rw [List.foldl_cons, ih, reg_setReg]
    rfl

theorem reg_settle (h : GThread) (clk n : Nat) :
    (h.settle clk).reg n = lateValue n (h.reg n) (h.late.takeWhile fun e => e.2.2 ≤ clk) := reg_foldl_setReg ..

section
variable {e : Nat × Half × Nat} {l : List (Nat × Half × Nat)} {n clk : Nat} {v : Half}

theorem lateValue_of_ne (h : ∀ x ∈ l, x.1 ≠ n) : lateValue n v l = v := by
  induction l generalizing v with
  | nil => rfl
  | cons x l ih =>
    obtain ⟨hx, hl⟩ := List.forall_mem_cons.mp h
    rw [lateValue, List.foldl_cons, if_neg hx]
    exact ih hl

theorem lateValue_insert_of_ne (h : e.1 ≠ n) : lateValue n v (insertLate e l) = lateValue n v l := by
  induction l generalizing v with
  | nil => simp [insertLate, lateValue, h]
  | cons x l ih =>
    unfold insertLate
    split
    · exact ih
    · simp [lateValue, h]

theorem lateValue_insert_last (hs : l.Pairwise fun x y => x.2.2 ≤ y.2.2) (h : ∀ x ∈ l, x.1 = e.1 → x.2.2 ≤ e.2.2) :
    lateValue e.1 v (insertLate e l) = e.2.1 := by
  induction l generalizing v with
  | nil => simp [insertLate, lateValue]
  | cons x l ih =>
    obtain ⟨hx, hl⟩ := List.pairwise_cons.mp hs
    unfold insertLate
    split
    · exact ih hl fun y hy => h y (List.mem_cons_of_mem _ hy)
    · next hlt =>
      rw [lateValue, List.foldl_cons, if_pos rfl]
      refine lateValue_of_ne fun y hy heq => ?_
      have hle := h y hy heq
      obtain rfl | hy := List.mem_cons.mp hy
      · exact hlt hle
      · exact hlt (Nat.le_trans (hx y hy) hle)

theorem takeWhile_insert_due (h : e.2.2 ≤ clk) : (insertLate e l).takeWhile (fun x => x.2.2 ≤ clk) =
    insertLate e (l.takeWhile fun x => x.2.2 ≤ clk) := by
  induction l with
  | nil => simp [insertLate, h]
  | cons x l ih =>
    by_cases hx : x.2.2 ≤ e.2.2
    · simp [insertLate, hx, Nat.le_trans hx h, ih]
    · by_cases hc : x.2.2 ≤ clk <;> simp [insertLate, hx, h, hc]

theorem takeWhile_insert_later (h : clk < e.2.2) : (insertLate e l).takeWhile (fun x => x.2.2 ≤ clk) =
    l.takeWhile fun x => x.2.2 ≤ clk := by
  induction l with
  | nil => simp [insertLate, h]
  | cons x l ih =>
    by_cases hx : x.2.2 ≤ e.2.2
    · by_cases hc : x.2.2 ≤ clk <;> simp [insertLate, hx, hc, ih]
    · simp [insertLate, hx, h, show clk < x.2.2 by omega]

theorem mem_insertLate {x : Nat × Half × Nat} : x ∈ insertLate e l ↔ x = e ∨ x ∈ l := by
  induction l with
  | nil => simp [insertLate]
  | cons y l ih =>
    unfold insertLate
    split
    · rw [List.mem_cons, ih, List.mem_cons]
      exact or_left_comm
    · rw [List.mem_cons]

theorem pairwise_insertLate (h : l.Pairwise fun x y => x.2.2 ≤ y.2.2) :
    (insertLate e l).Pairwise fun x y => x.2.2 ≤ y.2.2 := by
  induction l with
  | nil => simp [insertLate]
  | cons x l ih =>
    obtain ⟨hx, hl⟩ := List.pairwise_cons.mp h
    unfold insertLate
    split
    · next hle =>
      refine List.pairwise_cons.mpr ⟨fun y hy => ?_, ih hl⟩
      obtain rfl | hy := mem_insertLate.mp hy
      · exact hle
      · exact hx y hy
    · next hlt =>
      refine List.pairwise_cons.mpr ⟨fun y hy => ?_, h⟩
      obtain rfl | hy := List.mem_cons.mp hy
      · omega
      · have := hx y hy
        omega

end

theorem gthread_gWrite_threaded {s : State} (t d : Nat) (v : Half) (k : Nat) (h : s.groom.threaded = true) :
    (s.gWrite t d v k).gthread t = (s.gthread t).setReg d v := by
  rw [State.gWrite, if_pos h, State.modGthread, State.gthread_setGthread]

theorem gthread_gWrite_lunge {s : State} (t d : Nat) (v : Half) (k : Nat) (h : s.groom.threaded = false) :
    (s.gWrite t d v k).gthread t = { s.gthread t with late := insertLate (d, v, s.groom.lclk + k) (s.gthread t).late } := by
  rw [State.gWrite, if_neg (by simp [h]), State.modGthread, State.gthread_setGthread]

/-! ### Divisions -/

theorem gDivNext_same (s : State) : GroomSame s s.gDivNext := by
  unfold State.gDivNext
  split
  · exact .refl s
  · dsimp only
    split
    · exact .refl s
    · split
      · exact .refl s
      · exact ⟨rfl, rfl⟩

theorem groomStep_divide {t : BitVec 2} {d a b : BitVec 4} {op : Nat} {s s1 : State} {h : GThread} (hb : GBegins t s s1 h) :
    groomStep t true (gDivide t op d a b) s = .next ((State.gDivNext (s1.modGthread t.toNat fun u =>
      { u with divOp := some ⟨d.toNat, op, h.reg a.toNat, h.reg b.toNat, h.pc⟩ })).gAdvance false) := by
  refine (groomStep_hold hb rfl).trans ?_
  rw [Held, gRestarted_of_same ((modGthread_same ..).trans (gDivNext_same _))]
  rfl

theorem gLess_eq (signed : Bool) (x y : Half) : gLess signed x y =
    if (if signed then x.toInt < y.toInt else x.toNat < y.toNat) then 1 else 0 := by
  cases signed <;> simp [gLess, BitVec.slt, BitVec.ult]

/-- Settles O51: when a result is read, and the result of each register and immediate instruction. -/
theorem groomArithmetic : Obligations.GroomArithmetic := by
  unfold Obligations.GroomArithmetic
  refine ⟨fun s t d n v k clk => ?_, fun t d a b imm sh s s1 h hb => ?_⟩
  · intro h u due
    refine ⟨fun ht => ?_, fun ht hs => ?_⟩
    · have hu : u = h.setReg d v := gthread_gWrite_threaded t d v k ht
      rw [hu, reg_setReg, reg_setReg, if_pos rfl]
      exact ⟨rfl, fun hn => if_neg (Ne.symm hn)⟩
    · have hu : u = { h with late := insertLate (d, v, due) h.late } := gthread_gWrite_lunge t d v k ht
      rw [hu]
      refine ⟨pairwise_insertLate hs, rfl, fun hor => ?_, fun hdue hlast => ?_⟩
      · rw [reg_settle, reg_settle]
        by_cases hc : clk < due
        · exact congrArg _ (takeWhile_insert_later hc)
        · refine (congrArg _ (takeWhile_insert_due (Nat.le_of_not_lt hc))).trans (lateValue_insert_of_ne ?_)
          exact Ne.symm (hor.resolve_left hc)
      · rw [reg_settle]
        refine (congrArg _ (takeWhile_insert_due hdue)).trans (lateValue_insert_last (e := (d, v, due)) (hs.sublist (List.takeWhile_sublist _)) ?_)
        intro x hx hxd
        have hle : x.2.2 ≤ clk := by simpa using List.all_eq_true.mp List.all_takeWhile x hx
        exact (hlast x ((List.takeWhile_sublist _).mem hx) hxd).resolve_right (by omega)
  · intro x y m z goes holds
    have done {i : Instr} {f : State → GThread → GOut} {v : Half} {k : Nat} (he : Machine.exec i s = groomStep t true f s)
        (hf : f s1 h = .done (s1.gWrite t.toNat d.toNat v k)) : goes i v k :=
      he.trans (groomStep_done hb (gWrite_same ..) hf)
    refine ⟨done rfl rfl, done rfl rfl, done rfl rfl, done rfl rfl, done rfl rfl, done rfl rfl, done rfl rfl, done rfl rfl,
      done rfl ?_, done rfl ?_, done rfl rfl, done rfl rfl, done rfl rfl, done rfl rfl, done rfl ?_, done rfl ?_, done rfl rfl,
      done rfl rfl, done rfl rfl, done rfl rfl, done rfl rfl, done rfl rfl,
      ⟨rfl, groomStep_divide hb⟩, ⟨rfl, groomStep_divide hb⟩, ⟨rfl, groomStep_divide hb⟩, ⟨rfl, groomStep_divide hb⟩, fun ha => ?_⟩
    · rw [gAlu, gLess_eq]; rfl
    · rw [gAlu, gLess_eq]; rfl
    · rw [gImm, gLess_eq]; rfl
    · rw [gImm, gLess_eq]; rfl
    · have he : Machine.exec (.gLui t d a imm) s = groomStep t (a == 0) (gImm t d a (gZext imm <<< 14) fun _ v => v) s := rfl
      rw [he, groomStep_begins _ hb, if_neg (by simpa using ha)]

end Sys2Proof.Machine
end

section
/-! PROOFS. Power, thermal states, inputs and the wrapper (R501 to R506, R512). -/

namespace Sys2Proof.Machine

/-- A STOPPED context stays so, with its cause (R282). -/
def StaysStopped (s t : State) : Prop :=
  ∀ c, (s.ctx c).mode = .stopped → (t.ctx c).mode = .stopped ∧ (t.ctx c).stopCause = (s.ctx c).stopCause

/-- What the block's own activity leaves as it was: power, clocks and start-up, the Tack store, the configuration, the gate, the
wrapper, and that a context has stopped. -/
structure PlatformSame (s t : State) : Prop where
  power : t.power = s.power
  boot : t.boot = s.boot
  tack : t.tack = s.tack
  cfg : t.cfg = s.cfg
  gate : t.gate = s.gate
  wir : t.wir = s.wir
  now : t.now = s.now
  restarts : t.ras.restarts = s.ras.restarts
  stops : StaysStopped s t

section
variable {s t u : State}

theorem StaysStopped.of_ctxs (h : t.core.ctxs = s.core.ctxs) : StaysStopped s t := fun c hc => by
  have hx : t.ctx c = s.ctx c := congrArg (fun x => Tbl.get Ctx.free x c) h
  rw [hx]
  exact ⟨hc, rfl⟩

theorem StaysStopped.trans (h : StaysStopped s t) (h' : StaysStopped t u) : StaysStopped s u := fun c hc =>
  ⟨(h' c (h c hc).1).1, (h' c (h c hc).1).2.trans (h c hc).2⟩

theorem staysStopped_setCtx {n : Nat} {e : Ctx}
    (h : (s.ctx n).mode = .stopped → e.mode = .stopped ∧ e.stopCause = (s.ctx n).stopCause) : StaysStopped s (s.setCtx n e) :=
  fun c hc => by
    by_cases hn : c = n
    · subst hn
      rw [State.ctx_setCtx]
      exact h hc
    · rw [State.ctx_setCtx_other _ _ hn]
      exact ⟨hc, rfl⟩

theorem staysStopped_modCtx {n : Nat} {f : Ctx → Ctx}
    (h : ∀ e : Ctx, e.mode = .stopped → (f e).mode = .stopped ∧ (f e).stopCause = e.stopCause) : StaysStopped s (s.modCtx n f) :=
  staysStopped_setCtx fun hc => h _ hc

theorem staysStopped_raiseEvent (s : State) (c k : Nat) : StaysStopped s (s.raiseEvent c k) := by
  simp only [State.raiseEvent]
  split
  next hs =>
    refine .trans (t := s.setCtx c _) (staysStopped_setCtx fun hc => ?_) (.of_ctxs rfl)
    simp [Ctx.started, hc] at hs
  next => exact .of_ctxs rfl

theorem staysStopped_raiseAlert (s : State) (c b : Nat) : StaysStopped s (s.raiseAlert c b) := by
  unfold State.raiseAlert
  split
  · exact .trans (t := s.modCtx c fun e => { e with alert := e.alert.putBit b true }) (staysStopped_modCtx fun e he => ⟨he, rfl⟩)
      (staysStopped_raiseEvent _ c 6)
  · exact .of_ctxs rfl

theorem staysStopped_record (s : State) (r : ErrRec) : StaysStopped s (s.record r) := fun c hc => by
  have h : (s.record r).ctx c = if r.ctx = 0xFFFF then s.ctx c else (s.raiseAlert r.ctx.toNat 1).ctx c := by
    simp only [State.ctx, record_core]
    split <;> rfl
  rw [h]
  split
  · exact ⟨hc, rfl⟩
  · exact staysStopped_raiseAlert s _ 1 c hc

theorem PlatformSame.refl (s : State) : PlatformSame s s := ⟨rfl, rfl, rfl, rfl, rfl, rfl, rfl, rfl, .of_ctxs rfl⟩

theorem PlatformSame.trans (h : PlatformSame s t) (h' : PlatformSame t u) : PlatformSame s u :=
  ⟨h'.power.trans h.power, h'.boot.trans h.boot, h'.tack.trans h.tack, h'.cfg.trans h.cfg, h'.gate.trans h.gate,
    h'.wir.trans h.wir, h'.now.trans h.now, h'.restarts.trans h.restarts, h.stops.trans h'.stops⟩

/-- Composition with the last step first, whose states are known. -/
theorem PlatformSame.after (h' : PlatformSame t u) (h : PlatformSame s t) : PlatformSame s u := h.trans h'

theorem Accessed.platform (h : Accessed s t) (hr : t.ras.restarts = s.ras.restarts) (hs : StaysStopped s t) :
    PlatformSame s t := by
  obtain ⟨_, _, _, _, _, _, _, _, _, rfl⟩ := h
  exact ⟨rfl, rfl, rfl, rfl, rfl, rfl, rfl, hr, hs⟩

theorem Fetched.platform (h : Fetched s t) : PlatformSame s t := by
  obtain ⟨_, _, _, _, _, rfl⟩ := h
  exact ⟨rfl, rfl, rfl, rfl, rfl, rfl, rfl, rfl, .of_ctxs rfl⟩

theorem modCtx_platform {n : Nat} {f : Ctx → Ctx}
    (h : ∀ e : Ctx, e.mode = .stopped → (f e).mode = .stopped ∧ (f e).stopCause = e.stopCause) : PlatformSame s (s.modCtx n f) :=
  ⟨rfl, rfl, rfl, rfl, rfl, rfl, rfl, rfl, staysStopped_modCtx h⟩

theorem foldl_platform {α : Type} {f : State → α → State} (h : ∀ s x, PlatformSame s (f s x)) (xs : List α) (s : State) :
    PlatformSame s (xs.foldl f s) :=
  foldl_keeps (P := PlatformSame s) (fun b x hb => hb.trans (h b x)) xs s (.refl s)

end

theorem raiseEvent_platform (s : State) (c k : Nat) : PlatformSame s (s.raiseEvent c k) :=
  (raiseEvent_accessed s c k).platform (by rw [State.raiseEvent_ras]) (staysStopped_raiseEvent s c k)

theorem raiseAlert_platform (s : State) (c b : Nat) : PlatformSame s (s.raiseAlert c b) :=
  (raiseAlert_accessed s c b).platform (by rw [State.raiseAlert_ras]) (staysStopped_raiseAlert s c b)

theorem record_platform (s : State) (r : ErrRec) : PlatformSame s (s.record r) :=
  (record_accessed s r).platform (by rw [record_ras]; split <;> rfl) (staysStopped_record s r)

/-! ### Ends of images (R229, R231, R502) -/

section
variable (s : State)

theorem setRun_platform (i : Nat) (r : Option Run) : PlatformSame s (s.setRun i r) := by
  unfold State.setRun
  split <;> exact ⟨rfl, rfl, rfl, rfl, rfl, rfl, rfl, rfl, .of_ctxs rfl⟩

theorem imagePoison_platform (r : Run) (ix : Nat) : PlatformSame s (s.imagePoison r ix) := by
  unfold State.imagePoison
  split
  · exact .refl s
  · exact (record_platform s _)

theorem finishRun_platform (r : Run) (result : BitVec 8) (ix : Nat) : PlatformSame s (s.finishRun r result ix) := by
  have report : ∀ s : State, PlatformSame s (let t := (s.pmcAdd 5 1).raiseEvent r.ctx 2
      if result = 0x0B then t.pendGroom 50 else t) := fun s => by
    have h := (pmcAdd_fetched s 5 1).platform.trans (raiseEvent_platform (s.pmcAdd 5 1) r.ctx 2)
    dsimp only
    split
    · exact h.trans ⟨rfl, rfl, rfl, rfl, rfl, rfl, rfl, rfl, .of_ctxs rfl⟩
    · exact h
  refine (report _).after (.after (modCtx_platform fun e he => ⟨he, rfl⟩) ((imagePoison_platform s r ix).trans ?_))
  split <;> exact ⟨rfl, rfl, rfl, rfl, rfl, rfl, rfl, rfl, .of_ctxs rfl⟩

theorem endRun_platform (i : Nat) (result : BitVec 8) (ix : Nat) : PlatformSame s (s.endRun i result ix) := by
  unfold State.endRun
  split
  · exact .refl s
  · exact (setRun_platform s i none).trans (finishRun_platform ..)

theorem endParked_platform (c : Nat) (result : BitVec 8) : PlatformSame s (s.endParked c result) := by
  unfold State.endParked
  split
  · exact .refl s
  · exact (finishRun_platform ..).after ⟨rfl, rfl, rfl, rfl, rfl, rfl, rfl, rfl, .of_ctxs rfl⟩

theorem abandonRun_platform (i : Nat) (result : BitVec 8) : PlatformSame s (s.abandonRun i result) := by
  unfold State.abandonRun
  split
  · exact .refl s
  · split
    any_goals exact endRun_platform ..
    all_goals
      split
      · exact setRun_platform ..
      · exact .refl s

theorem abandonAll_platform (result : BitVec 8) : PlatformSame s (s.abandonAll result) :=
  ((abandonRun_platform s 0 result).trans (abandonRun_platform _ 1 result)).trans
    (foldl_platform (fun s (p : Nat × Run) => endParked_platform s p.1 result) _ _)

theorem alertAll_platform (b : Nat) : PlatformSame s (s.alertAll b) :=
  foldl_platform (fun s c => (raiseAlert_platform s c b)) _ _

end

/-! ### Events of a live block -/

theorem eventStep_runs {s : State} {ok : Bool} {f : State → State} (hl : s.live = true) (h : ok = true) :
    eventStep ok f s = .next (f s) := by
  rw [eventStep_live hl, h]
  rfl

theorem eventStep_idles {s : State} {ok : Bool} {f : State → State} (hl : s.live = true) (h : ok = false) :
    eventStep ok f s = .next s := by
  rw [eventStep_live hl, h]
  rfl

/-! ### Thermal emergency (R502) -/

theorem setTherm_quiet {s : State} {p : Power} {x : Therm} (h : p.therm = .emergency ∨ x ≠ .emergency) :
    State.setTherm { s with power := p } x = { s with power := { p with therm := x } } := by
  unfold State.setTherm
  exact if_neg fun hx => h.elim hx.2 fun hn => hn hx.1

/-- What an image's end in an emergency leaves: THERM, and the ACLK of the entry with the contexts whose image it ended. -/
theorem setTherm_enters {s : State} {p q : Power} (hq : q = { p with therm := .emergency }) (hn : p.therm ≠ .emergency) :
    let u := (State.abandonAll { s with power := q } 8).alertAll 2
    let t := State.setTherm { s with power := p } .emergency
    { t with power := u.power } = u ∧ t.power.therm = .emergency ∧ t.power.emAt = some (s.now / 2) ∧
      { t.power with emAt := u.power.emAt, emEnded := u.power.emEnded } = u.power := by
  subst hq
  intro u t
  have hu : u.power = { p with therm := .emergency } :=
    ((abandonAll_platform _ 8).trans (alertAll_platform _ 2)).power
  have ht : t = { u with power := { u.power with emAt := some (aclkOf s.now), emEnded := t.power.emEnded } } := by
    simp only [t, u, State.setTherm, if_pos (And.intro trivial hn)]
  rw [ht]
  exact ⟨rfl, by rw [hu], rfl, rfl⟩

theorem exec_thermalSample {s : State} (hl : s.live = true) (temp : BitVec 8) (level : Bool) :
    Machine.exec (.thermalSample temp level) s =
      .next (State.setTherm { s with power := { s.power with temp := temp, thermN := level } }
        (s.thermNext temp.toNat (!level))) := by
  have he : Machine.exec (.thermalSample temp level) s = eventStep true (fun s => s.thermalSample temp level) s := rfl
  rw [he, eventStep_live hl]
  rfl

theorem exec_thermNAssert {s : State} (hl : s.live = true) :
    Machine.exec .thermNAssert s = .next (State.setTherm { s with power := { s.power with thermN := false } } .emergency) := by
  have he : Machine.exec .thermNAssert s =
    eventStep true (fun s => State.setTherm { s with power := { s.power with thermN := false } } .emergency) s := rfl
  rw [he, eventStep_live hl]
  rfl

/-! ### The power failure sequence (R503 to R506) -/

section
variable (s : State)

theorem abandonWait_platform (n : Nat) : PlatformSame s (s.abandonWait n) := by
  unfold State.abandonWait
  refine PlatformSame.after (modCtx_platform ?_) ⟨rfl, rfl, rfl, rfl, rfl, rfl, rfl, rfl, .of_ctxs rfl⟩
  exact fun e he => ⟨he, rfl⟩

theorem stopDispatch_platform : PlatformSame s s.stopDispatch := by
  unfold State.stopDispatch
  split
  next n _ =>
    refine PlatformSame.after (t := (s.abandonWait n).modCtx n fun e =>
      { e with mode := if e.mode = CtxMode.running then CtxMode.ready else e.mode }) ⟨rfl, rfl, rfl, rfl, rfl, rfl, rfl, rfl, .of_ctxs rfl⟩ ?_
    refine PlatformSame.after (modCtx_platform ?_) (abandonWait_platform ..)
    exact fun e he => ⟨by simp [he], rfl⟩
  · exact ⟨rfl, rfl, rfl, rfl, rfl, rfl, rfl, rfl, .of_ctxs rfl⟩

theorem noTargetRecord_platform (pa : Nat) (c : Option Nat) : PlatformSame s (s.noTargetRecord pa c) :=
  (record_platform s _)

theorem unitRequest_platform (line o : Nat) (bs : List Byte) (p : Bool) : PlatformSame s (s.unitRequest line o bs p) := by
  unfold State.unitRequest
  split <;> exact ⟨rfl, rfl, rfl, rfl, rfl, rfl, rfl, rfl, .of_ctxs rfl⟩

theorem unitWrite_platform (pa : Nat) (bs : List Byte) (p : Bool) (c : Option Nat) :
    PlatformSame s (s.unitWrite pa bs p c) := by
  refine foldl_platform (fun s x => ?_) _ s
  refine .trans (unitRequest_platform s ((pa + x.1) / 128) ((pa + x.1) % 128) ((bs.drop x.1).take x.2) p) ?_
  dsimp only
  split
  · exact noTargetRecord_platform ..
  · split
    · exact .refl _
    · exact ⟨rfl, rfl, rfl, rfl, rfl, rfl, rfl, rfl, .of_ctxs rfl⟩

theorem readRequests_platform (lines : List Nat) : PlatformSame s (s.readRequests lines) := by
  refine foldl_platform (fun s ls => ?_) _ s
  unfold State.maLines
  split <;> exact ⟨rfl, rfl, rfl, rfl, rfl, rfl, rfl, rfl, .of_ctxs rfl⟩

theorem unitRead_platform (pa n : Nat) (c : Option Nat) : PlatformSame s (s.unitRead pa n c).2.2 := by
  unfold State.unitRead
  refine foldl_keeps (P := fun r : List Byte × Bool × State => PlatformSame s r.2.2) (fun r x h => h.trans ?_) _ _ (.refl s)
  have hq := readRequests_platform r.2.2 [(pa + x.1) / 128]
  dsimp only
  split
  · exact hq.trans (noTargetRecord_platform ..)
  · exact hq

theorem putRecord_platform (q : Nat) (seq : BitVec 32) (status value : Nat) (c : Option Nat) :
    PlatformSame s (s.putRecord q seq status value c) := by
  have hr := unitRead_platform s (s.qEntryPa q seq) 8 c
  unfold State.putRecord
  obtain ⟨x, hx⟩ : ∃ x, x = s.unitRead (s.qEntryPa q seq) 8 c := ⟨_, rfl⟩
  rw [← hx] at hr ⊢
  obtain ⟨tag, bad, s1⟩ := x
  exact hr.trans ((unitWrite_platform ..).trans ⟨rfl, rfl, rfl, rfl, rfl, rfl, rfl, rfl, .of_ctxs rfl⟩)

theorem failEntries_platform (q status : Nat) (is : List Nat) : PlatformSame s (State.failEntries q status is s) := by
  induction is generalizing s with
  | nil => exact .refl s
  | cons i is ih => exact (putRecord_platform ..).trans (ih _)

theorem failQueue_platform (q : Nat) (p : Nat → Bool) (status : Nat) : PlatformSame s (s.failQueue q p status).2 :=
  (failEntries_platform s q status _).trans ⟨rfl, rfl, rfl, rfl, rfl, rfl, rfl, rfl, .of_ctxs rfl⟩

theorem failInFlight_platform (p : Nat → Bool) (status : Nat) : PlatformSame s (s.failInFlight p status).2 :=
  foldl_keeps (P := fun r : Nat × State => PlatformSame s r.2) (fun r e h => h.trans (failQueue_platform r.2 e.1 p status)) _ _
    (.refl s)

theorem completeDesc_platform (c : Nat) (d : StreamD) (status : Nat) : PlatformSame s (s.completeDesc c d status) := by
  have hn : ∀ s : State, PlatformSame s (if d.notify then s.raiseEvent c 3 else s) := fun s => by
    split
    · exact (raiseEvent_platform s c 3)
    · exact .refl s
  refine .trans ?_ (hn _)
  split
  · exact (unitWrite_platform ..).after ⟨rfl, rfl, rfl, rfl, rfl, rfl, rfl, rfl, .of_ctxs rfl⟩
  · exact ⟨rfl, rfl, rfl, rfl, rfl, rfl, rfl, rfl, .of_ctxs rfl⟩

theorem cancelSlot_platform (k : Nat) : PlatformSame s (s.cancelSlot k) := by
  unfold State.cancelSlot
  dsimp only
  split
  · exact (completeDesc_platform ..).trans ⟨rfl, rfl, rfl, rfl, rfl, rfl, rfl, rfl, .of_ctxs rfl⟩
  · exact ⟨rfl, rfl, rfl, rfl, rfl, rfl, rfl, rfl, .of_ctxs rfl⟩

theorem cancelStreams_platform (p : Nat → Bool) : PlatformSame s (s.cancelStreams p) :=
  foldl_platform (fun s (e : Nat × StreamSlot) => cancelSlot_platform s e.1) _ s

theorem closeWindow_platform (w : Nat) (spoil : Bool) : PlatformSame s (s.closeWindow w spoil) := by
  unfold State.closeWindow
  dsimp only
  split <;> exact ⟨rfl, rfl, rfl, rfl, rfl, rfl, rfl, rfl, .of_ctxs rfl⟩

theorem postAlert_platform (c code : Nat) : PlatformSame s (s.postAlert c code) := by
  unfold State.postAlert
  split
  · exact (raiseAlert_platform _ c 0).after (modCtx_platform fun e he => ⟨he, rfl⟩)
  · exact .refl s

theorem mbDone_platform (m status detail : Nat) (payload : List Byte) : PlatformSame s (s.mbDone m status detail payload) := by
  unfold State.mbDone
  dsimp only
  split
  · split
    · exact (postAlert_platform ..).after ⟨rfl, rfl, rfl, rfl, rfl, rfl, rfl, rfl, .of_ctxs rfl⟩
    · exact ⟨rfl, rfl, rfl, rfl, rfl, rfl, rfl, rfl, .of_ctxs rfl⟩
  · exact ⟨rfl, rfl, rfl, rfl, rfl, rfl, rfl, rfl, .of_ctxs rfl⟩

/-- R504: the commands in progress fail, with POWER_FAIL. -/
def mailboxesFail (s : State) : State :=
  s.mboxes.foldl (fun (s : State) (p : Nat × Mailbox) =>
    if p.2.st = .busy ∧ !p.2.held then s.mbFail p.1 mbPOWER_FAIL 0 else s) { s with bridle := { s.bridle with commit := none } }

theorem mailboxesFail_platform : PlatformSame s (mailboxesFail s) := by
  refine (foldl_platform (fun s p => ?_) _ _).after ⟨rfl, rfl, rfl, rfl, rfl, rfl, rfl, rfl, .of_ctxs rfl⟩
  split
  · exact mbDone_platform ..
  · exact .refl s

/-- R504: the sequence's end keeps power as it was, but that the sequence has ended, and drives GATE_OUT low. -/
theorem pwrfailEnd_power : s.pwrfailEnd.power = { s.power with pfEnded := true } := by
  obtain ⟨s1, h1⟩ : ∃ s1, s1 = State.stopDispatch { s with power := { s.power with pfEnded := true } } := ⟨_, rfl⟩
  obtain ⟨s2, h2⟩ : ∃ s2, s2 = (s1.failInFlight (fun _ => true) 0x8005).2 := ⟨_, rfl⟩
  obtain ⟨s3, h3⟩ : ∃ s3, s3 = s2.cancelStreams fun _ => true := ⟨_, rfl⟩
  have he : s.pwrfailEnd.power =
      (mailboxesFail (s3.windows.foldl (fun (s : State) (p : Nat × Window) => s.closeWindow p.1 true) s3)).power := by
    subst h3 h2 h1
    rfl
  rw [he, ((mailboxesFail_platform _).after (foldl_platform (fun s (p : Nat × Window) => closeWindow_platform s p.1 true) _ s3)).power, h3,
    (cancelStreams_platform ..).power, h2, (failInFlight_platform ..).power, h1, (stopDispatch_platform _).power]

end

/-! ### Inputs -/

section
variable {l : BitVec 8} {n : BitVec 3} {i : Nat}

theorem getLsbD_shiftOne (hi : i < 8) : (1 <<< n.toNat : BitVec 8).getLsbD i = decide (n.toNat = i) := by
  rw [show (1 <<< n.toNat : BitVec 8) = BitVec.ofNat 8 (2 ^ n.toNat) from congrArg _ (Nat.one_shiftLeft _),
    BitVec.getLsbD_ofNat, Nat.testBit_two_pow]
  simp [hi]

/-- R387: LIC_IRQ[n] takes its level, and no other. -/
def licLevel (l : BitVec 8) (n : BitVec 3) (level : Bool) : BitVec 8 :=
  if level then l ||| (1 <<< n.toNat : BitVec 8) else l &&& ~~~(1 <<< n.toNat : BitVec 8)

theorem getLsbD_licLevel (level : Bool) (hi : i < 8) :
    (licLevel l n level).getLsbD i = if n.toNat = i then level else l.getLsbD i := by
  cases level
  · show (l &&& ~~~(1 <<< n.toNat : BitVec 8)).getLsbD i = _
    rw [BitVec.getLsbD_and, BitVec.getLsbD_not, getLsbD_shiftOne hi]
    by_cases h : n.toNat = i <;> simp [h, hi]
  · show (l ||| (1 <<< n.toNat : BitVec 8)).getLsbD i = _
    rw [BitVec.getLsbD_or, getLsbD_shiftOne hi]
    by_cases h : n.toNat = i <;> simp [h]

theorem licLevel_same (level : Bool) : (licLevel l n level).getLsbD n.toNat = level := by
  rw [getLsbD_licLevel level n.isLt, if_pos rfl]

theorem licLevel_other (level : Bool) (hi : i ≠ n.toNat) : (licLevel l n level).getLsbD i = l.getLsbD i := by
  by_cases h : i < 8
  · rw [getLsbD_licLevel level h, if_neg (Ne.symm hi)]
  · rw [BitVec.getLsbD_of_ge _ _ (by omega), BitVec.getLsbD_of_ge _ _ (by omega)]

end

/-! ### The obligation -/

theorem wir_next {c : Bool} {s t : State} (h : c = true) :
    (Host.Outcome.next (if c = true then t else s) : Out) = .next t := by rw [if_pos h]

theorem wir_stays {c : Bool} {s t : State} (h : c = false) :
    (Host.Outcome.next (if c = true then t else s) : Out) = .next s := by rw [h]; rfl

/-- Settles O50: each command is carried out while the block is live; an emergency and the sequence's end keep power but for
what they set. -/
theorem powerAndInputCommands : Obligations.PowerAndInputCommands := by
  unfold Obligations.PowerAndInputCommands
  intro s temp level mw n cells emergency
  refine ⟨fun hl h => ?_, fun hl hn hx => ?_, fun hl h => ?_, fun hl hn => ?_, fun hl => ?_, fun hl => ?_, fun hl hp => ?_,
    fun hl hp => ?_, fun hl hp he ht => ?_, fun hl hp => ?_, fun hl hs => ?_, ?_, fun hp hw => ?_, fun hp hw => ?_, fun hw => ?_,
    fun h => ?_, fun h => ?_⟩
  · exact (exec_thermalSample hl temp level).trans (congrArg _ (setTherm_quiet h))
  · rw [exec_thermalSample hl, hx]
    exact ⟨_, rfl, setTherm_enters rfl hn⟩
  · refine (exec_thermNAssert hl).trans
      (congrArg _ ((setTherm_quiet (p := { s.power with thermN := false }) (.inl h)).trans ?_))
    rw [← h]
  · rw [exec_thermNAssert hl]
    exact ⟨_, rfl, setTherm_enters rfl hn⟩
  · exact eventStep_runs (f := fun s => { s with power := { s.power with tel := mw } }) hl rfl
  · exact eventStep_runs (f := fun s => { s with tile := { s.tile with winEnergy := 0 } }) hl rfl
  · exact eventStep_runs (f := State.pwrfail) hl (by rw [hp]; rfl)
  · exact eventStep_idles (f := State.pwrfail) hl (by rw [hp]; rfl)
  · exact ⟨eventStep_runs (f := State.pwrfailEnd) hl
      (by rw [hp, he, decide_eq_true (show s.power.pfAt + usec 900 ≤ s.now from ht)]; rfl), rfl, by rw [pwrfailEnd_power]⟩
  · exact eventStep_runs (f := fun s => { s with power := { s.power with pfDone := true } }) hl hp
  · exact eventStep_idles (f := fun s => { s with power := { s.power with pfDone := true } }) hl
      (show s.pfPerformed = false by simp [State.pfPerformed, hs])
  · exact ⟨_, rfl, licLevel_same level, fun i hi => licLevel_other level hi, rfl⟩
  · exact wir_next (by rcases hw with h | h | h <;> simp [hp, h, Wir.leaves])
  · have hc : (s.boot.por && s.wir.leaves) = true := by rcases hw with h | h <;> simp [hp, h, Wir.leaves]
    exact ⟨wir_next (by rw [hp, (Bool.and_eq_true_iff.mp hc).2]; rfl), wir_next hc, wir_next hc⟩
  · exact wir_next (by rcases hw with h | h <;> simp [h, Wir.leaves])
  · have hc : (s.boot.por && s.wir.leaves) = false := by
      rcases h with h | ⟨h1, h2⟩ <;> simp [Wir.leaves, *]
    have hx : (s.boot.por && (s.wir.leaves || s.wir = .extest)) = false := by
      rcases h with h | ⟨h1, h2⟩ <;> simp [Wir.leaves, *]
    exact ⟨wir_stays hx, wir_stays hc, wir_stays hc⟩
  · exact wir_stays (by rcases h with h | h | h <;> simp [Wir.leaves, h])

end Sys2Proof.Machine
end

section
/-! PROOFS. The reset state and start-up (R15, R465, R481, R491 to R496). -/

namespace Sys2Proof.Machine

/-! ### What PORESET_N leaves -/

/-- The general registers after PORESET_N: no stall of the idle core holds a value. -/
theorem reg_reset (r : Reg) (h : r ≠ 0) : State.reset.reg r = ⟨0, .none⟩ :=
  if_neg fun hz => h (BitVec.eq_of_toNat_eq hz)

theorem level_reset (t : Nat) : (State.reset.gthread t).level = 16 := by
  show (Tbl.get GThread.reset [(0, { GThread.reset with run := true })] t).level = 16
  unfold Tbl.get
  split <;> rfl

theorem cfgAct_reset (item index : Nat) : State.reset.cfgAct item index = cfgReset item index := rfl

theorem rings_reset (q : Nat) : State.reset.qring q = 0 ∧ State.reset.qcring q = 0 ∧ State.reset.wcfg q = 0 := by
  simp [State.qring, State.qcring, State.wcfg, cfgAct_reset, cfgReset]

theorem statusWord_reset : Mailbox.statusWord Mailbox.empty = 0 := by decide

/-- Settles O55: every clause is read off the reset state, whose tables are empty. -/
theorem resetState : Obligations.ResetState := by
  unfold Obligations.ResetState
  exact ⟨rfl, rfl, by decide, rfl, fun _ => rfl, fun _ => rfl, fun _ => ⟨rfl, rfl, rfl⟩, fun _ => statusWord_reset, by decide, rfl, by decide,
    rfl, rfl, rings_reset, by decide, by decide, by decide, level_reset, rfl, fun _ => ⟨rfl, rfl⟩, reg_reset, rfl, Nat.zero_le _, rfl⟩

/-! ### Firmware's state (R465, R493) -/

/-- Firmware goes on as it was: ready or starting, and restarted as often. -/
structure FirmwareSame (s t : State) : Prop where
  ready : t.bridle.ready = s.bridle.ready
  stand : t.bridle.stand = s.bridle.stand
  restarts : t.ras.restarts = s.ras.restarts

section
variable {s t u : State}

theorem FirmwareSame.refl (s : State) : FirmwareSame s s := ⟨rfl, rfl, rfl⟩

theorem FirmwareSame.trans (h : FirmwareSame s t) (h' : FirmwareSame t u) : FirmwareSame s u :=
  ⟨h'.ready.trans h.ready, h'.stand.trans h.stand, h'.restarts.trans h.restarts⟩

theorem FirmwareSame.of_accessed (h : Accessed s t) (hr : t.ras.restarts = s.ras.restarts) : FirmwareSame s t := by
  obtain ⟨_, _, _, _, _, _, _, _, _, rfl⟩ := h
  exact ⟨rfl, rfl, hr⟩

theorem foldl_firmware {α : Type} {f : State → α → State} (h : ∀ s x, FirmwareSame s (f s x)) (xs : List α) (s : State) :
    FirmwareSame s (xs.foldl f s) :=
  foldl_keeps (P := FirmwareSame s) (fun b x hb => hb.trans (h b x)) xs s (.refl s)

end

section
variable (s : State)

theorem record_firmware (r : ErrRec) : FirmwareSame s (s.record r) :=
  .of_accessed (record_accessed s r) (by rw [record_ras]; split <;> rfl)

theorem readRequests_accessed (lines : List Nat) : Accessed s (s.readRequests lines) := by
  refine foldl_keeps (P := Accessed s) (fun u ls hu => hu.trans ?_) _ _ (.refl s)
  unfold State.maLines
  split <;> exact ⟨_, _, _, _, _, _, _, _, _, rfl⟩

theorem extRead_accessed (a n : Nat) : Accessed s (s.extRead a n) := by
  unfold State.extRead
  split
  · exact .refl s
  · exact foldl_keeps (P := Accessed s) (fun u x hu => hu.trans (record_accessed u _)) _ _ (readRequests_accessed ..)

theorem imageRead_accessed (a : Nat) (ok : Bool) : Accessed s (s.imageRead a ok) := by
  unfold State.imageRead
  split
  · exact (extRead_accessed ..).trans (extRead_accessed ..)
  · exact extRead_accessed ..

theorem extRead_firmware (a n : Nat) : FirmwareSame s (s.extRead a n) := by
  unfold State.extRead
  split
  · exact .refl s
  · refine .trans ?_ (foldl_firmware (fun s x => record_firmware s _) _ _)
    refine foldl_firmware (fun s ls => ?_) _ s
    unfold State.maLines
    split <;> exact ⟨rfl, rfl, rfl⟩

theorem imageRead_firmware (a : Nat) (ok : Bool) : FirmwareSame s (s.imageRead a ok) := by
  unfold State.imageRead
  split
  · exact (extRead_firmware ..).trans (extRead_firmware ..)
  · exact extRead_firmware ..

theorem loadExtension_firmware : FirmwareSame s s.loadExtension := by
  unfold State.loadExtension
  extract_lets a head u
  have hu : FirmwareSame s u := by
    unfold u
    split
    · exact imageRead_firmware ..
    · exact .refl s
  clear_value u
  split
  · have hg : ∀ g : Groom, FirmwareSame u { (if u.groom.extHalted then u.gClear 40 else u) with groom := g } := fun g => by
      split <;> exact ⟨rfl, rfl, rfl⟩
    exact hu.trans (hg _)
  · exact hu

theorem tackNotify_firmware {s : State} {es : List TkEnd} (h : ∀ e ∈ es, e.code ≠ 0 ∧ e.srcs = [.firmware]) :
    s.tackNotify es = s := by
  induction es with
  | nil => rfl
  | cons e es ih =>
    obtain ⟨⟨hc, hs⟩, ht⟩ := List.forall_mem_cons.mp h
    rw [State.tackNotify, List.foldl_cons, State.tackNotifyEnd, hs, if_neg hc]
    exact ih ht

theorem tackWrite_firmware (n : Nat) (x : Word) : s.tackWrite n x .firmware = (s.tackRaw n x .firmware).2 := by
  have hk := (write_keeps (k := s.tack) (t := s.tclkNow) ⟨n, x, [.firmware]⟩).1
  rw [State.tackWrite]
  dsimp only [State.tackRaw]
  exact tackNotify_firmware fun e he => hk e (Option.mem_toList.mp he)

theorem tkEnds_firmware (es : List TkEnd) : FirmwareSame s (s.tkEnds es) := by
  unfold State.tkEnds
  refine foldl_firmware (fun s e => ?_) es s
  exact ⟨rfl, rfl, rfl⟩

theorem tackRaw_firmware (n : Nat) (x : Word) (src : TkSrc) : FirmwareSame s (s.tackRaw n x src).2 := by
  have hw : FirmwareSame s (s.setTack (s.tack.write s.tclkNow ⟨n, x, [src]⟩).2) := ⟨rfl, rfl, rfl⟩
  exact hw.trans (tkEnds_firmware _ _)

theorem readyWrites_firmware : FirmwareSame s s.readyWrites := by
  have hw : ∀ (s : State) (n : Nat) (x : Word), FirmwareSame s (s.tackWrite n x .firmware) := fun s n x => by
    rw [tackWrite_firmware]
    exact tackRaw_firmware ..
  unfold State.readyWrites
  extract_lets old u
  have h1 : FirmwareSame s u := by
    unfold u
    split
    · exact .refl s
    · exact hw ..
  split
  · exact h1.trans (hw ..)
  · exact h1

theorem postAlert_firmware (c code : Nat) : FirmwareSame s (s.postAlert c code) := by
  refine .of_accessed ?_ (by rw [State.postAlert_ras])
  unfold State.postAlert
  split
  · exact .trans (t := s.modCtx c _) ⟨_, _, _, _, _, _, _, _, _, rfl⟩ (raiseAlert_accessed ..)
  · exact .refl s

theorem mbDone_firmware (m status detail : Nat) (payload : List Byte) : FirmwareSame s (s.mbDone m status detail payload) := by
  unfold State.mbDone
  extract_lets b b1 s1 goes s2
  have h : FirmwareSame s s2 := ⟨rfl, rfl, rfl⟩
  split
  · split
    · exact h.trans (postAlert_firmware ..)
    · exact h
  · exact h

theorem mbServe_firmware (m : Nat) : FirmwareSame s (s.mbServe m) := by
  unfold State.mbServe
  dsimp only
  split
  · exact FirmwareSame.trans (t := s.modMbox m _) ⟨rfl, rfl, rfl⟩ (mbDone_firmware ..)
  · exact ⟨rfl, rfl, rfl⟩

end

/-- R465: Bridle is ready. -/
theorem bridleIsReady_firmware (s : State) : s.bridleIsReady.bridle.ready = true ∧ s.bridleIsReady.bridle.stand = false ∧
    s.bridleIsReady.ras.restarts = 0 := by
  have h : ∀ u : State, FirmwareSame u (let v := u.loadExtension.readyWrites
      v.bridle.goOrder.foldl (fun s m => if (s.mbox m).held then s.mbServe m else s) v) := fun u => by
    refine ((loadExtension_firmware u).trans (readyWrites_firmware _)).trans (foldl_firmware (fun s m => ?_) _ _)
    split
    · exact mbServe_firmware ..
    · exact .refl s
  obtain ⟨u, hu⟩ : ∃ u : State, u = (let s1 := if s.boot.sstep = 9 then s.drainErrors.clearMap.atStep 10 else s.drainErrors
      { s1 with boot := { s1.boot with brLevel := 3 }, bridle := { s1.bridle with ready := true, stand := false },
                ras := { s1.ras with restarts := 0 } }) := ⟨_, rfl⟩
  have hf : FirmwareSame u s.bridleIsReady := by
    subst hu
    exact (h _).trans ⟨rfl, rfl, rfl⟩
  exact ⟨hf.ready.trans (by rw [hu]), hf.stand.trans (by rw [hu]), hf.restarts.trans (by rw [hu])⟩

/-! ### Start-up (R493) -/

section
variable (s : State)

theorem fwOk_congr {s t : State} (hm : t.mem = s.mem) (ht : t.tack = s.tack) (a : Nat) : t.fwOk a = s.fwOk a := by
  cases s
  cases t
  subst hm ht
  rfl

/-- R481: the device has failed: every Tack register that is there reads as its default. -/
theorem deviceFails_read (a : Nat) {n : Nat} (h : n = 0 ∨ tkClass n ≠ 0) : (s.deviceFails a).tack.read n = tkDefault n := by
  rw [State.deviceFails, (record_platform _ _).tack]
  have hn : (true && (decide (n = 0) || decide (tkClass n ≠ 0))) = true := by simpa using h
  exact if_pos hn

theorem loadRwp_powerLimit : s.loadRwp.cfgAct 0x40 0 = Word.ofNat ((s.tack.read 3).bits 18 0) := by
  show ((s.cfg.active.set (cfgKey 0x40 0) _).set (cfgKey 0x30 0) _).get _ (cfgKey 0x40 0) = _
  rw [Tbl.get_set_other _ _ _ (by decide), Tbl.get_set_same]

/-- R490: what FWLOAD leaves of a refused image. -/
theorem verifyImage_refused {a : Nat} (h : s.fwOk a = false) :
    s.verifyImage a true = let t := s.imageRead a (s.fwHeader a); { t with boot := { t.boot with fwWait := true } } := by
  simp only [State.verifyImage, h, Bool.and_false, Bool.false_eq_true, if_true, if_false]

end

/-- R493 steps 2 to 4, with the band and the straps of the lock. -/
def locked (s : State) (band icp : BitVec 6) (fwValid : Bool) : State :=
  { s with
    boot := { s.boot with pllLocked := true, band := band, icp := icp, sstep := 3, fwValid := fwValid },
    ports := { s.ports with tkResetN := true } }

section
variable {s : State} {band icp : BitVec 6} {fwValid : Bool}

theorem pllLock_rom (hr : s.boot.test.romOk = false) : s.pllLock band icp fwValid = (locked s band icp fwValid).startupFails := by
  simp only [State.pllLock, hr, Bool.not_false, if_true, locked]

theorem pllLock_tack (hr : s.boot.test.romOk = true) (ht : s.boot.test.tackOk = false) :
    s.pllLock band icp fwValid = ((((locked s band icp fwValid).atStep 4).deviceFails 0).loadRwp).startupFails := by
  simp only [State.pllLock, hr, ht, Bool.not_true, Bool.not_false, Bool.false_eq_true, if_true, if_false, locked]

theorem deviceFails_accessed (u : State) (a : Nat) :
    ∃ k : Tack, k.devFail = true ∧ Accessed { u with tack := k } (u.deviceFails a) :=
  ⟨_, rfl, record_accessed _ _⟩

theorem pllLock_fails (h : (s.boot.test.romOk && s.boot.test.tackOk) = false) :
    (s.pllLock band icp fwValid).boot.sfail = true ∧ (s.pllLock band icp fwValid).ports.tkResetN = true := by
  cases hr : s.boot.test.romOk with
  | false => rw [pllLock_rom hr]; exact ⟨rfl, rfl⟩
  | true =>
    rw [hr, Bool.true_and] at h
    rw [pllLock_tack hr h]
    obtain ⟨_, -, _, _, _, _, _, _, _, _, _, hu⟩ := deviceFails_accessed ((locked s band icp fwValid).atStep 4) 0
    rw [hu]
    exact ⟨rfl, rfl⟩

theorem pllLock_device (hr : s.boot.test.romOk = true) (ht : s.boot.test.tackOk = false) :
    let t := s.pllLock band icp fwValid
    t.tack.devFail = true ∧ (∀ n, n = 0 ∨ tkClass n ≠ 0 → t.tack.read n = tkDefault n) ∧
      t.cfgAct 0x40 0 = (tkDefault 3 &&& 0x7FFFF) := by
  obtain ⟨u, hu⟩ : ∃ u, u = (locked s band icp fwValid).atStep 4 := ⟨_, rfl⟩
  intro t
  have he : t = ((u.deviceFails 0).loadRwp).startupFails := by rw [hu]; exact pllLock_tack hr ht
  have h3 : (u.deviceFails 0).tack.read 3 = tkDefault 3 := deviceFails_read u 0 (.inr (by decide))
  refine ⟨?_, fun n hn => ?_, ?_⟩
  · obtain ⟨_, hk, _, _, _, _, _, _, _, _, _, hd⟩ := deviceFails_accessed u 0
    rw [he, hd]
    exact hk
  · rw [he]
    exact deviceFails_read u 0 hn
  · rw [he]
    refine (loadRwp_powerLimit (u.deviceFails 0)).trans ?_
    rw [h3]
    decide

end

/-! ### FWLOAD (R490) -/

theorem bits_fwloadGo (v : Word) : (v ||| 1).bits 51 12 = v.bits 51 12 := by
  refine Nat.eq_of_testBit_eq fun i => ?_
  rw [Word.testBit_bits, Word.testBit_bits, BitVec.getLsbD_or]
  have h1 : (1 : Word).getLsbD (12 + i) = false := by
    show (BitVec.ofNat 64 1).getLsbD (12 + i) = false
    simp
  rw [h1, Bool.or_false]

theorem address_fwloadGo (v : Word) : (v ||| 1) &&& 0xFFFFFFFFFF000 = v &&& 0xFFFFFFFFFF000 := by
  rw [BitVec.and_or_distrib_right, show (1 : Word) &&& 0xFFFFFFFFFF000 = 0#64 by decide, BitVec.or_zero]

theorem fwload_refused {s : State} {v : Word} (hw : s.boot.fwWait = true) (hb : s.booting = true)
    (hf : s.fwOk (v.bits 51 12 * 4096) = false) :
    let t := s.fwload 0 (v ||| 1)
    t.boot.fwWait = true ∧ t.boot.fwloadAddr = v &&& 0xFFFFFFFFFF000 ∧ t.ports.rerr = false := by
  intro t
  obtain ⟨u, hu⟩ : ∃ u, u = State.respond { s with boot := { s.boot with fwloadAddr := v &&& 0xFFFFFFFFFF000 } } 0 false :=
    ⟨_, rfl⟩
  have hbit : (v ||| 1).bit 0 = true := by
    show (v ||| 1).getLsbD 0 = true
    rw [BitVec.getLsbD_or, show (1 : Word).getLsbD 0 = true by decide, Bool.or_true]
  have ht : t = u.verifyImage (v.bits 51 12 * 4096) true := by
    simp only [t, State.fwload, hw, hb, hbit, bits_fwloadGo, address_fwloadGo, hu]
    rfl
  have hfu : u.fwOk (v.bits 51 12 * 4096) = false := by rw [← hf, hu]; exact fwOk_congr rfl rfl _
  obtain ⟨_, _, _, _, _, _, _, _, _, hr⟩ := imageRead_accessed u (v.bits 51 12 * 4096) (u.fwHeader (v.bits 51 12 * 4096))
  rw [ht, verifyImage_refused u hfu, hr, hu]
  exact ⟨rfl, rfl, rfl⟩

/-- Settles O48: each step of start-up is the model's function, whose parts keep what the clause names. -/
theorem startUpCommands : Obligations.StartUpCommands := by
  unfold Obligations.StartUpCommands
  intro s cut straps test band icp fwValid cls v
  refine ⟨⟨_, rfl, rfl, rfl, rfl, rfl⟩, fun hp => ?_, fun hp => ?_, fun hl h1 hb => ?_, fun hl hc => ?_, fun hl hw => ?_,
    fun hl hw hb => ?_, fun hl hr => ?_⟩
  · exact ⟨s.releaseReset straps test, congrArg _ (if_pos hp), rfl, rfl, rfl, rfl, rfl, rfl, rfl⟩
  · exact congrArg _ (if_neg (by rw [hp]; decide))
  · refine ⟨eventStep_runs (f := fun s => s.pllLock band icp fwValid) hl (by rw [h1, hb]; rfl), fun h => ?_, fun hr ht => ?_,
      fun hr ht hv => ?_⟩
    · exact pllLock_fails h
    · exact pllLock_device hr ht
    · simp only [State.pllLock, hr, ht, hv]
      rfl
  · exact (eventStep_runs (f := fun s => s.fwload cls (v ||| 1)) hl rfl).trans (congrArg _ (if_pos hc))
  · refine (eventStep_runs (f := fun s => s.fwload 0 (v ||| 1)) hl rfl).trans (congrArg _ ?_)
    simp only [State.fwload, hw]
    rfl
  · refine ⟨_, eventStep_runs (f := fun s => s.fwload 0 (v ||| 1)) hl rfl, fun hf => fwload_refused hw hb hf⟩
  · exact ⟨_, eventStep_runs (f := State.bridleIsReady) hl hr, rfl, bridleIsReady_firmware s⟩

end Sys2Proof.Machine
end

section
/-! PROOFS. Register accesses by core, Groom, register port and instruments (R17, R391, R461 to R463, R508, R511, R513). -/

namespace Sys2Proof.Machine

/-! ### Accesses that the aperture refuses for their form -/

section
variable {s : State} {o : Nat} {ln : Lanes} {v : TVal}

theorem apWrite_refused {who : Requester} {w : Word} {p : Bool} (hf : formRefused who o ln = true) :
    s.apWrite who o ln w p = (false, s) := by rw [State.apWrite, hf, if_pos rfl]

theorem apRead_refused {who : Requester} (hf : formRefused who o ln = true) : s.apRead who o ln = (none, s) := by
  rw [State.apRead, hf, if_pos rfl]

theorem apWriteCmd_core (hl : s.live = true) (hc : s.curStall.isSome = true) :
    apWriteCmd .core o ln v s = .next (s.apWriteBy .core o ln v) :=
  eventStep_runs hl (by simp [State.canAsk, hc])

theorem apReadCmd_core (hl : s.live = true) (hc : s.curStall.isSome = true) :
    apReadCmd .core o ln s = .next (s.apReadBy .core o ln) :=
  eventStep_runs hl (by simp [State.canAsk, hc])

theorem apWriteCmd_other {who : Requester} (hl : s.live = true) (hw : who ≠ .core) :
    apWriteCmd who o ln v s = .next (s.apWriteBy who o ln v) :=
  eventStep_runs hl (by simp [State.canAsk, hw])

theorem apReadCmd_other {who : Requester} (hl : s.live = true) (hw : who ≠ .core) :
    apReadCmd who o ln s = .next (s.apReadBy who o ln) :=
  eventStep_runs hl (by simp [State.canAsk, hw])

theorem apWriteBy_core (hp : tackPoison o v = false) (hf : formRefused .core o ln = false) :
    s.apWriteBy .core o ln v = (s.apWrite .core o ln v.data (decide (v.tag = .poison))).2 := by
  simp only [State.apWriteBy, hp, hf, Bool.false_eq_true, if_false]

theorem apWriteBy_core_refused (hp : tackPoison o v = false) (hf : formRefused .core o ln = true) :
    s.apWriteBy .core o ln v = s.deviceTrap := by
  simp only [State.apWriteBy, hp, hf, Bool.false_eq_true, if_false, if_true]

theorem apReadBy_core_refused (hf : formRefused .core o ln = true) : s.apReadBy .core o ln = s.deviceTrap := by
  simp only [State.apReadBy, hf, if_true]

theorem apWriteBy_regp_refused {cls : BitVec 2} (hf : formRefused (.regp cls) o ln = true) :
    s.apWriteBy (.regp cls) o ln v = s.answer (.regp cls) 0 false := by
  simp only [State.apWriteBy, apWrite_refused hf]

theorem apReadBy_regp_refused {cls : BitVec 2} (hf : formRefused (.regp cls) o ln = true) :
    s.apReadBy (.regp cls) o ln = s.answer (.regp cls) 0 false := by
  simp only [State.apReadBy, apRead_refused hf, Option.getD_none, Option.isSome_none]

section
variable {t : BitVec 2} (hi : s.gCanIssue t.toNat = true) (he : (s.gthread t.toNat).ext = false)
include hi he

/-- R391: a write of a thread that the aperture refuses takes ACCESS. -/
theorem apWriteBy_groom_refused {s1 : State} (hw : s.apWrite (.groom t) o ln v.data (decide (v.tag = .poison)) = (false, s1)) :
    s.apWriteBy (.groom t) o ln v = s.groomFault t.toNat 3 (some (BitVec.ofNat 32 (0x50000000 + o))) := by
  simp only [State.apWriteBy, groomAccess_open hi he, hw, Bool.not_false, if_true, Option.getD_none]

theorem apWriteBy_groom {s1 : State} (hw : s.apWrite (.groom t) o ln v.data (decide (v.tag = .poison)) = (true, s1)) :
    s.apWriteBy (.groom t) o ln v = if gRestarted s s1 then s1 else s1.gHold t.toNat none := by
  simp only [State.apWriteBy, groomAccess_open hi he, hw, Bool.not_true, Bool.false_eq_true, if_false, Option.getD_some]

theorem apReadBy_groom_refused (hf : formRefused (.groom t) o ln = true) :
    s.apReadBy (.groom t) o ln = s.groomFault t.toNat 3 (some (BitVec.ofNat 32 (0x50000000 + o))) := by
  simp only [State.apReadBy, groomAccess_open hi he, apRead_refused hf, Option.map_none, Option.getD_none]

end

theorem formRefused_regp3 (o : Nat) (ln : Lanes) : formRefused (.regp 3) o ln = true := by
  simp [formRefused]

theorem formRefused_misaligned {who : Requester} (h : o % 4 ≠ 0 ∨ ln = .neither) : formRefused who o ln = true := by
  rcases h with h | rfl
  · have h8 : o % 8 ≠ 0 := by omega
    have h4 : o % 8 ≠ 4 := by omega
    simp [formRefused, h8, h4]
  · simp [formRefused]

end

/-! ### What the aperture does for a write, by its areas -/

section
variable {s : State} {who : Requester} {o : Nat} {ln : Lanes} {w : Word} {p : Bool}

theorem apWriteAny_ijtag (ho : o ≠ 0x400000) : s.apWriteAny .ijtag o ln w p = (false, s) := by
  unfold State.apWriteAny
  rw [if_pos rfl, if_neg ho, decide_eq_false ho]

section
variable (h1 : 0x40000 ≤ o) (h2 : o < 0x60000)
include h1 h2

theorem apWriteAny_ras_groom {t : BitVec 2} (hi : (s.rasWord o).isNone = false) :
    s.apWriteAny (.groom t) o ln w p = (true, s.rasPut t.toNat o ln w) := by
  unfold State.apWriteAny
  rw [if_neg (by simp), if_neg (by omega), if_neg (by omega), if_neg (by omega), if_pos h2]
  exact if_neg (by rw [hi]; decide)

theorem apWriteAny_ras_regp {cls : BitVec 2} : s.apWriteAny (.regp cls) o ln w p = (false, s) := by
  unfold State.apWriteAny
  rw [if_neg (by simp), if_neg (by omega), if_neg (by omega), if_neg (by omega), if_pos h2]

theorem apWriteAny_ras_core : s.apWriteAny .core o ln w p = (true, s) := by
  unfold State.apWriteAny
  rw [if_neg (by simp), if_neg (by omega), if_neg (by omega), if_neg (by omega), if_pos h2]

end

section
variable (hw : who ≠ .ijtag)
include hw

theorem apWriteAny_ident (ho : o < 0x10000) (hi : (s.identWord o).isNone = false) : s.apWriteAny who o ln w p =
    if mayControl who then (true, s.identWrite who o ln w) else (!fromRegp who, s) := by
  unfold State.apWriteAny
  rw [if_neg hw, if_pos ho, hi, if_neg Bool.false_ne_true]

theorem apWriteAny_mailbox (h1 : 0x10000 ≤ o) (h2 : o < 0x30000) : s.apWriteAny who o ln w p = s.mbWrite who o ln w := by
  unfold State.apWriteAny
  rw [if_neg hw, if_neg (by omega), if_pos h2]

theorem apWriteAny_power (h1 : 0x60000 ≤ o) (h2 : o < 0x80000) (hi : (s.powerWord o).isNone = false) : s.apWriteAny who o ln w p =
    if mayControl who then (true, s.powerWrite who o ln w) else (!fromRegp who, s) := by
  unfold State.apWriteAny
  rw [if_neg hw, if_neg (by omega), if_neg (by omega), if_neg (by omega), if_neg (by omega), if_pos h2, hi,
    if_neg Bool.false_ne_true]

theorem apWriteAny_queue (h1 : 0x100000 ≤ o) (h2 : o < 0x200000) (hi : (s.queueWord o).isNone = false) :
    s.apWriteAny who o ln w p = (true, s.queuePut who o ln w p) := by
  unfold State.apWriteAny
  rw [if_neg hw, if_neg (by omega), if_neg (by omega), if_neg (by omega), if_neg (by omega), if_neg (by omega),
    if_neg (by omega), if_pos h2, hi, if_neg Bool.false_ne_true]

theorem apWriteAny_window (h1 : 0x200000 ≤ o) (h2 : o < 0x400000) (hi : (s.windowWord o).isNone = false) :
    s.apWriteAny who o ln w p = (true, s.windowPut who o ln w) := by
  unfold State.apWriteAny
  rw [if_neg hw, if_neg (by omega), if_neg (by omega), if_neg (by omega), if_neg (by omega), if_neg (by omega),
    if_neg (by omega), if_neg (by omega), if_pos h2, hi, if_neg Bool.false_ne_true]

end

/-! ### Registers that are read-only, cleared by ones, or staged (R11, R12, R16, R20, R24) -/

theorem ite_snd_self {c : Prop} [Decidable c] {b d : Bool} {t : State} (h : t = s) :
    (if c then (b, t) else (d, s)).2 = s := by
  split <;> simp [h]

/-- R16: the registers that no write changes. -/
theorem apWrite_readOnly (ho : o ∈ [0x00, 0x60000, 0x60010, 0x60018, 0x60028, 0x1F0008, 0x1F0020]) :
    (s.apWrite who o ln w p).2 = s := by
  rw [State.apWrite]
  split
  · rfl
  · by_cases hw : who = .ijtag
    · subst hw
      have hne : o / 8 * 8 ≠ 0x400000 := by
        simp only [List.mem_cons, List.not_mem_nil, or_false] at ho
        omega
      rw [apWriteAny_ijtag hne]
    · simp only [List.mem_cons, List.not_mem_nil, or_false] at ho
      rcases ho with rfl | rfl | rfl | rfl | rfl | rfl | rfl
      · rw [apWriteAny_ident hw (by decide) rfl]
        exact ite_snd_self rfl
      · rw [apWriteAny_power hw (by decide) (by decide) rfl]
        exact ite_snd_self rfl
      · rw [apWriteAny_power hw (by decide) (by decide) rfl]
        exact ite_snd_self rfl
      · rw [apWriteAny_power hw (by decide) (by decide) rfl]
        exact ite_snd_self rfl
      · rw [apWriteAny_power hw (by decide) (by decide) rfl]
        exact ite_snd_self rfl
      · rw [apWriteAny_queue hw (by decide) (by decide) rfl]
        rfl
      · rw [apWriteAny_queue hw (by decide) (by decide) rfl]
        rfl

theorem not_ijtag_of_control (h : mayControl who = true) : who ≠ .ijtag := by
  rintro rfl
  exact absurd h (by decide)

theorem apWrite_gstatus (hc : mayControl who = true) (hl : ln ≠ .hi) (hf : formRefused who 0x10 ln = false) :
    s.apWrite who 0x10 ln w p =
      (true, if w.bit 0 then { s with boot := { s.boot with errBusy := false, busyOff := 0 } } else s) := by
  rw [apWrite_accepted hf, apWriteAny_ident (not_ijtag_of_control hc) (by decide) rfl, if_pos hc]
  show (true, if ln ≠ .hi ∧ w.bit 0 then _ else s) = _
  simp only [ne_eq, hl, not_false_eq_true, true_and]

theorem gctlBusy_eq (hl : ln ≠ .hi) : s.gctlBusy o ln = if s.pmc.en then { s with boot := { s.boot with
    errBusy := true, busyOff := if s.boot.errBusy then s.boot.busyOff else BitVec.ofNat 24 o } } else s := by
  simp only [State.gctlBusy, ne_eq, hl, not_false_eq_true, true_and]

theorem apWrite_gctl (ho : o ∈ [0x18, 0x20]) (hc : fromHost who = true) (hl : ln ≠ .hi) (hf : formRefused who o ln = false) :
    s.apWrite who o ln w p = (true, if s.pmc.en then { s with boot := { s.boot with
      errBusy := true, busyOff := if s.boot.errBusy then s.boot.busyOff else BitVec.ofNat 24 o } } else s) := by
  have hm : mayControl who = true := by rw [mayControl, hc, Bool.or_true]
  have hg : fromGroom who = false := by
    cases who with
    | groom t => exact absurd hc Bool.false_ne_true
    | _ => rfl
  simp only [List.mem_cons, List.not_mem_nil, or_false] at ho
  rcases ho with rfl | rfl
  · rw [apWrite_accepted hf, apWriteAny_ident (not_ijtag_of_control hm) (by decide) rfl, if_pos hm, ← gctlBusy_eq hl]
    rfl
  · rw [apWrite_accepted hf, apWriteAny_ident (not_ijtag_of_control hm) (by decide) rfl, if_pos hm, ← gctlBusy_eq hl]
    exact congrArg _ (if_neg (by rw [hg]; decide))

theorem queueWord_some (h : o < 0x160000) : (s.queueWord o).isNone = false := by
  unfold State.queueWord
  repeat' split
  all_goals rfl

theorem apWrite_qstat {q : Nat} (hq : q < 4096) (hw : who ≠ .ijtag) (hl : ln ≠ .lo) (hf : formRefused who (0x120018 + 32 * q) ln = false) :
    s.apWrite who (0x120018 + 32 * q) ln w p = (true, s.modQueue q fun u =>
      { u with badTail := u.badTail && !w.bit 49, seqErr := u.seqErr && !w.bit 50, denied := u.denied && !w.bit 51 }) := by
  rw [apWrite_accepted hf, show (0x120018 + 32 * q) / 8 * 8 = 0x120018 + 32 * q by omega,
    apWriteAny_queue hw (by omega) (by omega) (queueWord_some (by omega)), State.queuePut, if_neg (by omega), if_neg (by omega),
    if_pos (by omega), if_pos (by omega), show (0x120018 + 32 * q - 0x120000) / 32 = q by omega, State.qstatWrite, if_neg hl]

theorem laneMerge_lo (old w : Word) : laneMerge .lo old w 0xFFFFFFFFFFC00 = (old &&& 0xFFFFF00000000) ||| (w &&& 0xFFFFFC00) := by
  unfold laneMerge laneMask
  rw [BitVec.and_or_distrib_right, BitVec.and_assoc, BitVec.and_assoc]
  rfl

theorem laneMerge_hi (old w : Word) : laneMerge .hi old w 0xFFFFFFFFFFC00 = (old &&& 0xFFFFFC00) ||| (w &&& 0xFFFFF00000000) := by
  unfold laneMerge laneMask
  rw [BitVec.and_or_distrib_right, BitVec.and_assoc, BitVec.and_assoc]
  rfl

section
variable {q : Nat} (hq : q < 4096)
include hq

theorem formRefused_stagedRing (t : BitVec 2) : formRefused (.groom t) (0x140008 + 32 * q) .lo = false ∧
    formRefused (.groom t) (0x14000C + 32 * q) .hi = false := by
  have h1 : (0x140008 + 32 * q) / 8 * 8 = 0x140008 + 32 * q := by omega
  have h2 : (0x14000C + 32 * q) / 8 * 8 = 0x140008 + 32 * q := by omega
  have h3 : (0x140008 + 32 * q) % 8 = 0 := by omega
  have h4 : (0x14000C + 32 * q) % 8 = 4 := by omega
  have h64 : only64 (0x140008 + 32 * q) = false := by simp [only64]; omega
  simp [formRefused, h1, h2, h3, h4, h64]

/-- R363: the staged QRING of a queue. -/
theorem apWriteAny_stagedRing (hw : who ≠ .ijtag) : s.apWriteAny who (0x140008 + 32 * q) ln w p =
    (true, if fromGroom who then s.stageWrite 0x21 q 0xFFFFFFFFFFC00 ln w else s) := by
  have h1 : (0x140008 + 32 * q - 0x140000) / 32 = q := by omega
  have h2 : (0x140008 + 32 * q - 0x140000) % 32 = 8 := by omega
  have h3 : (0x140008 + 32 * q) % 32 = 8 := by omega
  rw [apWriteAny_queue hw (by omega) (by omega) (queueWord_some (by omega)), State.queuePut, if_neg (by omega), if_neg (by omega),
    if_neg (by omega), if_pos (by omega)]
  simp only [h1, h3]
  cases fromGroom who <;> rfl

end

theorem apWrite_stagedRing_ignored {q : Nat} (hq : q < 4096) (hg : fromGroom who = false) :
    (s.apWrite who (0x140008 + 32 * q) ln w p).2 = s := by
  rw [State.apWrite, show (0x140008 + 32 * q) / 8 * 8 = 0x140008 + 32 * q by omega]
  split
  · rfl
  · by_cases hw : who = .ijtag
    · rw [hw, apWriteAny_ijtag (by omega)]
    · rw [apWriteAny_stagedRing hq hw, hg]
      rfl

end

/-! ### The oldest record and its copy (R461, R462) -/

/-- A table after a list of values has been written from `k` on. -/
theorem get_foldl_set {α : Type} (d : α) (xs : List α) (k n : Nat) (t : Tbl α) :
    (∀ i, i < xs.length → Tbl.get d ((xs.zipIdx n).foldl (fun t p => t.set (k + p.2) p.1) t) (k + n + i) = xs.getD i d) ∧
    (∀ j, j < k + n → Tbl.get d ((xs.zipIdx n).foldl (fun t p => t.set (k + p.2) p.1) t) j = t.get d j) := by
  induction xs generalizing n t with
  | nil => exact ⟨fun i hi => absurd hi (Nat.not_lt_zero i), fun j hj => rfl⟩
  | cons x xs ih =>
    obtain ⟨hin, hout⟩ := ih (n + 1) (t.set (k + n) x)
    refine ⟨fun i hi => ?_, fun j hj => ?_⟩
    · cases i with
      | zero => exact (hout (k + n) (by omega)).trans (Tbl.get_set_same ..)
      | succ i =>
        have h := hin i (by simpa using hi)
        rwa [show k + (n + 1) + i = k + n + (i + 1) by omega] at h
    · exact (hout j (by omega)).trans (Tbl.get_set_other _ _ _ (by omega))

/-- The record leaves the FIFO for the log, with its words, and is counted. -/
theorem copyHead_errAdvance {s : State} {r : ErrRec} {rs : List ErrRec} (h : s.ras.fifo = r :: rs) :
    let t := s.copyHead.errAdvance
    t.ras.fifo = rs ∧ { t with ras := s.ras } = s ∧ t.ras.logNext = s.ras.logNext + 1 ∧ t.ras.copied = s.ras.copied + 1 ∧
      (∀ i, i < 8 → t.ras.log.get 0 (8 * s.ras.logNext.toNat + i) = r.words.getD i 0) ∧
      let k := if r.outcome = 0 then 0 else r.src.toNat
      t.ras.counts.get 0 k = s.ras.counts.get 0 k + 1 := by
  intro t
  have ht : t = { s with ras := { s.ras with
      log := (r.words.zipIdx).foldl (fun t p => t.set (8 * s.ras.logNext.toNat + p.2) p.1) s.ras.log,
      logNext := s.ras.logNext + 1, copied := s.ras.copied + 1,
      counts := s.ras.counts.set (if r.outcome = 0 then 0 else r.src.toNat)
        (s.ras.counts.get 0 (if r.outcome = 0 then 0 else r.src.toNat) + 1), fifo := rs } } := by
    simp only [t, State.errAdvance, State.copyHead, h]
    rfl
  rw [ht]
  exact ⟨rfl, rfl, rfl, rfl, fun i hi => (get_foldl_set 0 r.words (8 * s.ras.logNext.toNat) 0 s.ras.log).1 i hi, Tbl.get_set_same ..⟩

theorem copyHead_ras (s : State) : ∃ g : Ras, s.copyHead = { s with ras := g } := by
  unfold State.copyHead
  split
  · exact ⟨_, rfl⟩
  · exact ⟨_, rfl⟩

theorem copyHead_errAdvance_empty {s : State} (h : s.ras.fifo = []) : s.copyHead.errAdvance = s := by
  have hc : s.copyHead = s := by rw [State.copyHead, h]
  rw [hc, State.errAdvance, h]
  show { s with ras := { s.ras with fifo := [] } } = s
  rw [← h]

/-! ### Restart of the Groom (R463, R465) -/

section
variable (s : State)

theorem mbFail_platform (m status detail : Nat) : PlatformSame s (s.mbFail m status detail) := mbDone_platform ..

theorem bridleRestart_restarts : s.bridleRestart.ras.restarts = s.ras.restarts := by rw [State.bridleRestart_ras]

theorem standWork_platform : PlatformSame s s.standWork := by
  unfold State.standWork
  extract_lets s1 c s2 s3
  have h1 : PlatformSame s s1 := by
    unfold s1
    split
    · exact .refl s
    · split
      · refine PlatformSame.after (modCtx_platform ?_) (abandonWait_platform ..)
        exact fun e he => ⟨by simp [he], rfl⟩
      · exact .refl s
  have h2 : PlatformSame s1 s2 := ⟨rfl, rfl, rfl, rfl, rfl, rfl, rfl, rfl, .of_ctxs rfl⟩
  have h3 : PlatformSame s2 s3 := (abandonRun_platform ..).trans (abandonRun_platform ..)
  exact ((h1.trans h2).trans h3).trans (foldl_platform (fun s (p : Nat × Run) => endParked_platform s p.1 0x0A) _ _)

theorem enterStand_restarts : s.enterStand.2.ras.restarts = s.ras.restarts := by
  unfold State.enterStand
  extract_lets holders n0
  have h := (standWork_platform s).trans (failInFlight_platform s.standWork (fun _ => true) 0x8004)
  obtain ⟨x, hx⟩ : ∃ x, x = s.standWork.failInFlight (fun _ => true) 0x8004 := ⟨_, rfl⟩
  rw [← hx] at h ⊢
  obtain ⟨n, s1⟩ := x
  exact (foldl_platform (fun s c => raiseAlert_platform s c 1) holders _).restarts.trans
    ((bridleRestart_restarts s1).trans h.restarts)

theorem groomReload_restarts : s.groomReload.ras.restarts = s.ras.restarts := by
  have he : ∀ a n b m, ((s.extRead a n).extRead b m).ras.restarts = s.ras.restarts := fun a n b m =>
    (extRead_firmware ..).restarts.trans (extRead_firmware s a n).restarts
  unfold State.groomReload
  extract_lets
  split
  · exact he ..
  · exact (record_firmware _ _).restarts.trans (he ..)

/-- R463: a restart of a Groom that runs shows: in its count, or as a halt while power fails. -/
theorem gRestarted_groomRestart {reason t : Nat} (hh : s.groom.halted = false) (hf : s.boot.sfail = false) :
    gRestarted s (s.groomRestart reason t) = true := by
  obtain ⟨s0, h0⟩ : ∃ s0 : State, s0 = { s with
      ras := { s.ras with restarts := s.ras.restarts + 1, counts := [], ceTimes := [] },
      tack := { s.tack with queue := s.tack.queue.map TkWrite.forget, heldW := s.tack.heldW.map TkWrite.forget },
      groom := { s.groom with ipend := s.groom.ipend.putBit 33 false, inMc := false } } := ⟨_, rfl⟩
  have hr : ∀ r, ((s0.enterStand.2).record r).ras.restarts = s.ras.restarts + 1 := fun r => by
    rw [(record_firmware _ _).restarts, enterStand_restarts, h0]
  unfold State.groomRestart
  rw [hh, hf, Bool.or_self, if_neg Bool.false_ne_true]
  split
  · simp [gRestarted, hh]
  · have hg : ∀ u : State, u.ras.restarts = s.ras.restarts + 1 → gRestarted s u = true := fun u hu => by simp [gRestarted, hu]
    refine hg _ ?_
    dsimp only
    rw [← h0]
    split
    · exact hr _
    · exact (groomReload_restarts _).trans (hr _)

end

/-! ### The obligation -/

theorem running_of_gCanIssue {s : State} {t : Nat} (h : s.gCanIssue t = true) : s.groom.halted = false ∧ s.boot.sfail = false := by
  simp only [State.gCanIssue, State.gRuns, Bool.and_eq_true, Bool.not_eq_true'] at h
  exact ⟨h.1.1.1.1.1.1.1, h.1.1.1.1.1.1.2⟩

section
variable {s : State} {who : Requester} {th : BitVec 2}

theorem ne_regp3_of_accesses (ha : Accesses s who) : who ≠ .regp 3 := by
  rintro rfl
  exact ha.2 rfl

theorem formRefused_doubleword {o : Nat} (h8 : o % 8 = 0) (ha : Accesses s who) (hg : fromGroom who = false) :
    formRefused who o .both = false := by
  simpa [formRefused, h8, hg] using ne_regp3_of_accesses ha

section
variable {ln : Lanes} {off : BitVec 24} (ha : Accesses s (.groom th))
include ha

/-- R399: a thread's write of a control register. -/
theorem groomCtl_write (v : TVal) : Machine.exec (.regWrite (.groom th) .groomCtl off ln (.write v)) s =
    .next ((s.gctlWrite th.toNat off.toNat (v.data.truncate 32)).getD
      (s.groomFault th.toNat 3 (some (BitVec.ofNat 32 (0x40000000 + off.toNat))))) := by
  obtain ⟨hl, hi, he⟩ := ha
  refine (eventStep_runs (f := fun s => s.gctlBy th.toNat off.toNat (.write v)) hl rfl).trans (congrArg _ ?_)
  have hx : s.extValue (s.gthread th.toNat) off.toNat (v.data.truncate 32) = v.data.truncate 32 := by
    simp [State.extValue, he]
  simp only [State.gctlBy, groomAccess_open hi he, hx]

theorem groomCtl_read : Machine.exec (.regWrite (.groom th) .groomCtl off ln .read) s =
    .next (((s.gctlRead off.toNat).map fun x => s.respond (x.zeroExtend 64) false).getD
      (s.groomFault th.toNat 3 (some (BitVec.ofNat 32 (0x40000000 + off.toNat))))) := by
  obtain ⟨hl, hi, he⟩ := ha
  refine (eventStep_runs (f := fun s => s.gctlBy th.toNat off.toNat .read) hl rfl).trans (congrArg _ ?_)
  simp only [State.gctlBy, groomAccess_open hi he]

/-- R461: a write of the error area by a thread of the Groom. -/
theorem rasWrite_groom {o : Nat} {x : Word} (h1 : 0x40000 ≤ o) (h2 : o < 0x60000) (h8 : o % 8 = 0)
    (hi : (s.rasWord o).isNone = false) :
    apWriteCmd (.groom th) o .lo ⟨x, .int⟩ s = .next (if gRestarted s (s.rasPut th.toNat o .lo x) then s.rasPut th.toNat o .lo x
      else (s.rasPut th.toNat o .lo x).gHold th.toNat none) := by
  obtain ⟨hl, hg, he⟩ := ha
  have h64 : only64 o = false := by simp [only64]; omega
  have hf : formRefused (.groom th) o .lo = false := formRefused_half h8 (.inl rfl) h64 (by simp)
  rw [apWriteCmd_other hl (by simp), apWriteBy_groom hg he (s1 := s.rasPut th.toNat o .lo x)]
  rw [apWrite_accepted hf, show o / 8 * 8 = o by omega, apWriteAny_ras_groom h1 h2 hi]

/-- R461, R462: ERR_ADV as firmware writes it. -/
theorem errAdv_groom : Machine.exec (.errAdv (.groom th)) s = .next (s.copyHead.errAdvance.gHold th.toNat none) := by
  obtain ⟨g, hg⟩ := copyHead_ras s
  have hx : Machine.exec (.errAdv (.groom th)) s = apWriteCmd (.groom th) 0x40040 .lo ⟨1, .int⟩
      (if s.gCanIssue th.toNat && !(s.gthread th.toNat).ext then s.copyHead else s) := rfl
  have hc : Accesses s.copyHead (.groom th) := by rw [hg]; exact ha
  rw [hx, ha.2.1, ha.2.2]
  exact (rasWrite_groom hc (o := 0x40040) (by decide) (by decide) (by decide) rfl).trans
    (congrArg _ (if_neg (ne_true_of_eq_false (gRestarted_of_same ⟨rfl, rfl⟩))))

end

end

section
variable {s : State} {who : Requester} {th : BitVec 2}

theorem ne_ijtag_of_accesses (ha : Accesses s who) : who ≠ .ijtag := by
  rintro rfl
  exact ha.2

/-- R379: GCOUNT_LD. -/
theorem gcountLd_written {x : Word} {p : Bool} (ha : Accesses s who) : s.apWriteAny who (0x1F0028 / 8 * 8) .both x p =
    (true, { s with gate := { s.gate with gcountLd := x } }) := by
  have hm : laneMerge .both s.gate.gcountLd x (laneMask .both) = x := by
    have h : x &&& (0xFFFFFFFFFFFFFFFF : Word) = x := BitVec.and_allOnes
    simp only [laneMerge, laneMask]
    rw [h, show ~~~(0xFFFFFFFFFFFFFFFF : Word) = 0#64 by decide, BitVec.and_zero, BitVec.zero_or, h]
  rw [apWriteAny_queue (ne_ijtag_of_accesses ha) (by decide) (by decide) rfl]
  have hq : s.queuePut who (0x1F0028 / 8 * 8) .both x p =
      { s with gate := { s.gate with gcountLd := laneMerge .both s.gate.gcountLd x (laneMask .both) } } := rfl
  rw [hq, hm]

theorem errAdv_regp (s : State) (cls : BitVec 2) :
    s.apWriteBy (.regp cls) 0x40040 .lo ⟨1, .int⟩ = s.answer (.regp cls) 0 false := by
  have hw : s.apWrite (.regp cls) 0x40040 .lo 1 (decide (Tag.int = Tag.poison)) = (false, s) := by
    rw [State.apWrite]
    split
    · rfl
    · rfl
  exact congrArg (fun x : ApWrite => x.2.answer (.regp cls) 0 x.1) hw

theorem errAdv_core (hl : s.live = true) : Machine.exec (.errAdv .core) s = .next s :=
  (eventStep_live (f := fun s => s.apWriteBy .core 0x40040 .lo ⟨1, .int⟩) hl (s.canAsk .core)).trans (by
    have h : s.apWriteBy .core 0x40040 .lo ⟨1, .int⟩ = s := rfl
    rw [h, ite_self])

/-- R511: PMC_CTL.CLR. -/
theorem pmcClear_written (ha : Accesses s (.groom th)) : Machine.exec (.pmcClear (.groom th)) s =
    .next (State.gHold { s with pmc := { s.pmc with cnt := [] } } th.toNat none) := by
  have hw : s.apWriteAny (.groom th) (0x400000 / 8 * 8) .lo (Word.ofNat (s.pmc.en.toNat + 2)) (decide (Tag.int = Tag.poison)) =
      (true, { s with pmc := { s.pmc with cnt := [] } }) := by
    have h1 : (Word.ofNat (s.pmc.en.toNat + 2)).bit 0 = s.pmc.en ∧ (Word.ofNat (s.pmc.en.toNat + 2)).bit 1 = true := by
      cases s.pmc.en <;> decide
    have hp : s.apWriteAny (.groom th) (0x400000 / 8 * 8) .lo (Word.ofNat (s.pmc.en.toNat + 2)) (decide (Tag.int = Tag.poison)) =
        (true, { s with pmc := ⟨(Word.ofNat (s.pmc.en.toNat + 2)).bit 0,
          if (Word.ofNat (s.pmc.en.toNat + 2)).bit 1 then [] else s.pmc.cnt⟩ }) := rfl
    rw [hp, h1.1, h1.2]
    rfl
  exact apWriteCmd_written ha (fun h => by cases h) (formRefused_half (by decide) (.inl rfl) (by decide) (by simp)) hw
    (fun _ => gRestarted_of_same ⟨rfl, rfl⟩)

end

/-- Settles O47: each access is the model's, with its requester's answer; the oldest record's copy and the restart of a running
Groom have lemmas of their own. -/
theorem registerWriteCommands : Obligations.RegisterWriteCommands := by
  unfold Obligations.RegisterWriteCommands
  refine ⟨fun s who t ln w p q hq => ⟨fun o ho => apWrite_readOnly ho, fun hc hl hf => apWrite_gstatus hc hl hf,
    fun o ho hc hl hf => apWrite_gctl ho hc hl hf, fun hw hl hf => apWrite_qstat hq hw hl hf, ?_, ?_,
    fun hg => apWrite_stagedRing_ignored hq hg⟩, ?_⟩
  · rw [apWrite_accepted (formRefused_stagedRing hq t).1, show (0x140008 + 32 * q) / 8 * 8 = 0x140008 + 32 * q by omega,
      apWriteAny_stagedRing hq (by simp), ← laneMerge_lo]
    rfl
  · rw [apWrite_accepted (formRefused_stagedRing hq t).2, show (0x14000C + 32 * q) / 8 * 8 = 0x140008 + 32 * q by omega,
      apWriteAny_stagedRing hq (by simp), ← laneMerge_hi]
    rfl
  intro s s1 who th cls off ln v ok x w r rs hl write read accepts
  refine ⟨fun hw => ⟨?_, ?_, ?_, ?_⟩, fun hr => ⟨?_, ?_⟩, fun hc hf => ⟨fun hp => ?_, ?_⟩, fun hc ht h1 h2 => ?_, fun hf => ⟨?_, ?_⟩,
    formRefused_regp3 _ _, formRefused_misaligned, fun ha hg => ?_, fun ha hg => ?_, fun ha hg => ?_, fun ha hg => ?_,
    fun op => ⟨?_, ?_⟩, ?_, ?_, fun ha hr => ?_, fun ha hr => ?_, ?_, ?_, fun ha => ?_, fun hs => ?_, fun hs hm => ?_, fun ha => ?_⟩
  · rintro rfl hc hp hf
    exact (apWriteCmd_core hl hc).trans (by rw [apWriteBy_core hp hf, hw])
  · rintro rfl
    exact (apWriteCmd_other hl (by simp)).trans (by simp only [State.apWriteBy, hw])
  · rintro rfl ⟨-, hi, he⟩ rfl hg
    exact (apWriteCmd_other hl (by simp)).trans (by rw [apWriteBy_groom hi he hw, hg, if_neg Bool.false_ne_true])
  · rintro rfl ⟨-, hi, he⟩ rfl
    exact ⟨_, (apWriteCmd_other hl (by simp)).trans (by rw [apWriteBy_groom_refused hi he hw])⟩
  · rintro rfl hc hf
    exact (apReadCmd_core hl hc).trans (by simp only [State.apReadBy, hf, hr, Bool.false_eq_true, if_false])
  · rintro rfl
    exact (apReadCmd_other hl (by simp)).trans (by simp only [State.apReadBy, hr])
  · exact (apWriteCmd_core hl hc).trans (by rw [apWriteBy_core_refused hp hf])
  · exact (apReadCmd_core hl hc).trans (by rw [apReadBy_core_refused hf])
  · have hp : tackPoison off.toNat v = true := by simp [tackPoison, ht, h1, h2]
    exact (apWriteCmd_core hl hc).trans (by simp only [State.apWriteBy, hp, if_true])
  · exact (apWriteCmd_other hl (by simp)).trans (by rw [apWriteBy_regp_refused hf])
  · exact (apReadCmd_other hl (by simp)).trans (by rw [apReadBy_regp_refused hf])
  · exact apWriteCmd_written ha (fun _ => by simp [tackPoison]) (formRefused_doubleword (by decide) ha hg) (gcountLd_written ha)
      (by rw [hg]; simp)
  · exact (groomCtl_write ha v).trans (by rw [hg]; rfl)
  · exact ⟨_, (groomCtl_write ha v).trans (by rw [hg]; rfl)⟩
  · exact (groomCtl_read ha).trans (by rw [hg]; rfl)
  · exact eventStep_runs (f := fun s => s) hl rfl
  · exact eventStep_runs (f := fun s => s) hl rfl
  · exact eventStep_runs (f := fun s => s.ijRespond s.bistWord false) hl rfl
  · exact (apWriteCmd_other hl (by simp)).trans rfl
  · exact ⟨_, errAdv_groom ha, copyHead_errAdvance hr⟩
  · rw [errAdv_groom ha, copyHead_errAdvance_empty hr]
  · exact (apWriteCmd_other hl (by simp)).trans (congrArg _ (errAdv_regp s cls))
  · exact errAdv_core hl
  · refine (rasWrite_groom ha (o := 0x40058) (by decide) (by decide) (by decide) rfl).trans ?_
    obtain ⟨hh, hf⟩ := running_of_gCanIssue ha.2.1
    exact congrArg _ (if_pos (gRestarted_groomRestart s hh hf))
  · exact eventStep_runs (f := fun s => s.groomRestart 1 th.toNat) hl (decide_eq_true hs)
  · refine (eventStep_runs (f := fun s => if s.groom.inMc then s.groomRestart 2 0 else s) hl (decide_eq_true hs)).trans ?_
    rw [hm]
    rfl
  · exact pmcClear_written ha

end Sys2Proof.Machine
end

section
/-! PROOFS. Queues: doorbell, take and completion (R362, R365 to R369, R371, R468). -/

namespace Sys2Proof.Machine

/-! ### Accesses of a unit, which may write memory -/

/-- What a unit's accesses change: memory, and what every access of memory changes. -/
def UnitAccessed (s t : State) : Prop :=
  ∃ mem tlb ctxs due caches pmc free ma ras ipend,
    t = { s with mem := mem, core := { s.core with tlb := tlb, ctxs := ctxs, decideDue := due }, caches := caches, pmc := pmc,
                 free := free, ports := { s.ports with ma := ma }, ras := ras, groom := { s.groom with ipend := ipend } }

section
variable {s t u : State}

theorem UnitAccessed.refl (s : State) : UnitAccessed s s := ⟨_, _, _, _, _, _, _, _, _, _, rfl⟩

theorem UnitAccessed.trans (h : UnitAccessed s t) (h' : UnitAccessed t u) : UnitAccessed s u := by
  obtain ⟨_, _, _, _, _, _, _, _, _, _, rfl⟩ := h
  obtain ⟨_, _, _, _, _, _, _, _, _, _, rfl⟩ := h'
  exact ⟨_, _, _, _, _, _, _, _, _, _, rfl⟩

theorem Accessed.unit (h : Accessed s t) : UnitAccessed s t := by
  obtain ⟨_, _, _, _, _, _, _, _, _, rfl⟩ := h
  exact ⟨_, _, _, _, _, _, _, _, _, _, rfl⟩

theorem UnitAccessed.of_mem (s : State) (m : HostMem) : UnitAccessed s { s with mem := m } := ⟨_, _, _, _, _, _, _, _, _, _, rfl⟩

end

section
variable (s : State)

theorem unitRead_accessed (pa n : Nat) (c : Option Nat) : Accessed s (s.unitRead pa n c).2.2 := by
  unfold State.unitRead
  refine foldl_keeps (P := fun r : List Byte × Bool × State => Accessed s r.2.2) (fun r x h => h.trans ?_) _ _ (.refl s)
  have hq := readRequests_accessed r.2.2 [(pa + x.1) / 128]
  dsimp only
  split
  · exact hq.trans (record_accessed ..)
  · exact hq

theorem unitRequest_accessed (line o : Nat) (bs : List Byte) (p : Bool) : Accessed s (s.unitRequest line o bs p) := by
  unfold State.unitRequest
  split
  · exact .refl s
  · exact ⟨_, _, _, _, _, _, _, _, _, rfl⟩

theorem unitWrite_unit (pa : Nat) (bs : List Byte) (p : Bool) (c : Option Nat) : UnitAccessed s (s.unitWrite pa bs p c) := by
  refine foldl_keeps (P := UnitAccessed s) (fun u x hu => hu.trans ?_) _ _ (.refl s)
  have hq := (unitRequest_accessed u ((pa + x.1) / 128) ((pa + x.1) % 128) ((bs.drop x.1).take x.2) p).unit
  dsimp only
  split
  · exact hq.trans (record_accessed ..).unit
  · split
    · exact hq
    · exact hq.trans (.of_mem _ _)

end

/-! ### The doorbell (R365, R371) -/

section
variable {s : State} {q : Nat} {t : BitVec 32}

theorem pfDone_of_live (hl : s.live = true) : s.power.pfDone = false := by
  simp only [State.live, Bool.and_eq_true, Bool.not_eq_true'] at hl
  exact hl.2

theorem doorbell_disabled (hl : s.live = true) (he : s.qEn q = false) :
    s.doorbell q t = s.setQueue q { s.queue q with denied := true } := by
  simp only [State.doorbell, pfDone_of_live hl, he, Bool.not_false, Bool.false_eq_true, if_false, if_true]

theorem doorbell_enabled (hl : s.live = true) (he : s.qEn q = true) : s.doorbell q t = if t = (s.queue q).tail then s
    else if ((s.queue q).tail - (s.queue q).done).toNat < (t - (s.queue q).done).toNat ∧
        (t - (s.queue q).done).toNat ≤ 2 ^ s.qLog2 q then
      (s.setQueue q { s.queue q with tail := t }).raiseEvent (s.qCtx q) 0
    else s.setQueue q { s.queue q with badTail := true } := by
  simp only [State.doorbell, pfDone_of_live hl, he, Bool.not_true, Bool.false_eq_true, if_false]

/-- R371: the queue port and a register write have the same effect. -/
theorem doorbell_goes {q : BitVec 12} {r : State} {who : Requester} (hl : s.live = true) (h : s.doorbell q.toNat t = r) :
    Machine.exec (.queuePortDoorbell q t) s = .next r ∧
    (Accesses s who → fromGroom who = false → ∀ x : Word, x.truncate 32 = t →
      Machine.exec (.doorbell who q .both x) s = .next (Written who r)) := by
  refine ⟨(eventStep_runs (f := fun s => s.doorbell q.toNat t) hl rfl).trans (congrArg _ h), fun ha hg x hx => ?_⟩
  have hq : q.toNat < 4096 := q.isLt
  have h8 : (0x100000 + 16 * q.toNat) / 8 * 8 = 0x100000 + 16 * q.toNat := by omega
  refine apWriteCmd_written ha (fun _ => by simp [tackPoison]) (formRefused_doubleword (by omega) ha hg) ?_ (by rw [hg]; simp)
  rw [h8, apWriteAny_queue (ne_ijtag_of_accesses ha) (by omega) (by omega) (queueWord_some (by omega)), State.queuePut,
    if_pos (by omega), if_pos (by omega), show (0x100000 + 16 * q.toNat - 0x100000) / 16 = q.toNat by omega, hx, h]

end

/-! ### The forms of the queue area (R362) -/

/-- The instruction is an access of a register of the queue area that takes 64-bit accesses only. -/
def QueueAccess (w : Requester) (ln : Lanes) (i : Instr) : Prop :=
  ∃ o, o % 8 = 0 ∧ 0x100000 ≤ o ∧ o < 0x200000 ∧ only64 o = true ∧
    ((∃ v, ∀ s, Machine.exec i s = apWriteCmd w o ln v s) ∨ ∀ s, Machine.exec i s = apReadCmd w o ln s)

theorem queueAccess_of_mem {w : Requester} {q : BitVec 12} {ln : Lanes} {x : Word} {v : TVal} {i : Instr}
    (h : i ∈ [Instr.doorbell w q ln x, .qdone w q ln v, .qtake w q ln, .qtakeany w ln]) : QueueAccess w ln i := by
  have hq : q.toNat < 4096 := q.isLt
  simp only [List.mem_cons, List.not_mem_nil, or_false] at h
  rcases h with rfl | rfl | rfl | rfl
  · exact ⟨0x100000 + 16 * q.toNat, by omega, by omega, by omega, by simp [only64]; omega, .inl ⟨_, fun _ => rfl⟩⟩
  · exact ⟨0x110008 + 16 * q.toNat, by omega, by omega, by omega, by simp [only64]; omega, .inl ⟨_, fun _ => rfl⟩⟩
  · exact ⟨0x110000 + 16 * q.toNat, by omega, by omega, by omega, by simp [only64]; omega, .inr fun _ => rfl⟩
  · exact ⟨0x1E0000, by decide, by decide, by decide, by decide, .inr fun _ => rfl⟩

section
variable {s : State} {ln : Lanes} {i : Instr}

theorem formRefused_only64 {who : Requester} {o : Nat} (h8 : o % 8 = 0) (h64 : only64 o = true)
    (h : ln ≠ .both ∨ who = .regp 3 ∨ fromGroom who = true) : formRefused who o ln = true := by
  have hd : o / 8 * 8 = o := by omega
  by_cases hln : ln = .both
  · rcases h with h | rfl | h
    · exact absurd hln h
    · exact formRefused_regp3 o ln
    · simp [formRefused, hln, h]
  · simp [formRefused, hd, h64, hln]

theorem queueAccess_core (hl : s.live = true) (hc : s.curStall.isSome = true) (hi : QueueAccess .core ln i) (hn : ln ≠ .both) :
    Machine.exec i s = .next s.deviceTrap := by
  obtain ⟨o, h8, h1, h2, h64, ⟨v, he⟩ | he⟩ := hi
  · have hp : tackPoison o v = false := by
      have h3 : decide (o < 0x40000) = false := decide_eq_false (by omega)
      rw [tackPoison, h3, Bool.and_false]
    rw [he, apWriteCmd_core hl hc, apWriteBy_core_refused hp (formRefused_only64 h8 h64 (.inl hn))]
  · rw [he, apReadCmd_core hl hc, apReadBy_core_refused (formRefused_only64 h8 h64 (.inl hn))]

theorem queueAccess_regp {cls : BitVec 2} (hl : s.live = true) (hi : QueueAccess (.regp cls) ln i) (hn : ln ≠ .both ∨ cls = 3) :
    Machine.exec i s = .next (s.answer (.regp cls) 0 false) := by
  have hr : ln ≠ .both ∨ Requester.regp cls = .regp 3 ∨ fromGroom (.regp cls) = true := hn.imp id fun h => .inl (by rw [h])
  obtain ⟨o, h8, h1, h2, h64, ⟨v, he⟩ | he⟩ := hi
  · rw [he, apWriteCmd_other hl (by simp), apWriteBy_regp_refused (formRefused_only64 h8 h64 hr)]
  · rw [he, apReadCmd_other hl (by simp), apReadBy_regp_refused (formRefused_only64 h8 h64 hr)]

theorem queueAccess_groom {th : BitVec 2} (hl : s.live = true) (hi : QueueAccess (.groom th) ln i)
    (hg : s.gCanIssue th.toNat = true) (hx : (s.gthread th.toNat).ext = false) :
    ∃ a, Machine.exec i s = .next (s.groomFault th.toNat 3 (some a)) := by
  obtain ⟨o, h8, h1, h2, h64, ⟨v, he⟩ | he⟩ := hi
  · exact ⟨_, by rw [he, apWriteCmd_other hl (by simp),
      apWriteBy_groom_refused hg hx (apWrite_refused (formRefused_only64 h8 h64 (.inr (.inr rfl))))]⟩
  · exact ⟨_, by rw [he, apReadCmd_other hl (by simp),
      apReadBy_groom_refused hg hx (formRefused_only64 h8 h64 (.inr (.inr rfl)))]⟩

theorem queueAccess_ijtag (hl : s.live = true) (hi : QueueAccess .ijtag ln i) : Machine.exec i s = .next (s.ijRespond 0 true) := by
  obtain ⟨o, h8, h1, h2, h64, ⟨v, he⟩ | he⟩ := hi
  · have hw : (s.apWrite .ijtag o ln v.data (decide (v.tag = .poison))) = (false, s) := by
      rw [State.apWrite, show o / 8 * 8 = o by omega, apWriteAny_ijtag (by omega), ite_self]
    rw [he, apWriteCmd_other hl (by simp)]
    simp only [State.apWriteBy, hw]
    rfl
  · have hr : s.apRead .ijtag o ln = (none, s) := by
      have hw : s.ijWord o = none := by
        rw [State.ijWord, if_neg (by omega), if_neg (by omega), if_neg (by omega), if_neg (by omega), State.debugWord,
          if_neg (by omega), if_neg (by omega)]
      have h64 : s.apRead64 .ijtag o ln = (none, s) := by
        rw [← hw]
        exact if_pos rfl
      rw [State.apRead, show o / 8 * 8 = o by omega, h64]
      exact ite_self _
    rw [he, apReadCmd_other hl (by simp)]
    simp only [State.apReadBy, hr]
    rfl

end

/-- Settles O34: the doorbell by its cases, the forms of the queue area by requester, and the trap of a refused core access. -/
theorem doorbellMovesTail : Obligations.DoorbellMovesTail := by
  unfold Obligations.DoorbellMovesTail
  intro s who q t hl u goes
  refine ⟨fun he => doorbell_goes hl (doorbell_disabled hl he), fun he ht => doorbell_goes hl ?_, fun he ht h1 h2 => doorbell_goes hl ?_,
    fun he ht h => doorbell_goes hl ?_, fun ln x v i => ⟨fun hi hn hc => queueAccess_core hl hc (queueAccess_of_mem hi) hn,
      fun cls hi hn => queueAccess_regp hl (queueAccess_of_mem hi) hn,
      fun th hi hg hx => queueAccess_groom hl (queueAccess_of_mem hi) hg hx,
      fun hi => queueAccess_ijtag hl (queueAccess_of_mem hi)⟩, fun k n hk hn => ?_⟩
  · rw [doorbell_enabled hl he, if_pos ht]
  · rw [doorbell_enabled hl he, if_neg ht, if_pos ⟨h1, h2⟩]
  · rw [doorbell_enabled hl he, if_neg ht, if_neg fun hx =>
      h.elim (fun h1 => absurd hx.1 (Nat.not_lt.mpr h1)) fun h2 => absurd hx.2 (Nat.not_le.mpr h2)]
  · have hk' : State.curStall { s with free := s.free + 1 } = some k := hk
    have hn' : State.curCtx { s with free := s.free + 1 } = some n := hn
    rw [State.deviceTrap, State.accessTrap, hk', hn']
    rfl

/-! ### Take (R366, R367) -/

section
variable {s : State} {ln : Lanes}

theorem laneMask_both (w : Word) : w &&& laneMask .both = w := BitVec.and_allOnes

section
variable {who : Requester} {o : Nat} {w : Word} {r : State} (h8 : o % 8 = 0)
  (ho : (0x110000 ≤ o ∧ o < 0x120000 ∧ o % 16 = 0) ∨ o = 0x1E0000)
include h8 ho

/-- R366: a read of QTAKE or QTAKEANY. -/
theorem apRead_take (hw : who ≠ .ijtag) (hf : formRefused who o .both = false) (ht : s.takeRead who o = (w, r)) :
    s.apRead who o .both = (some w, r) := by
  have h64 : s.apRead64 who o .both = (some w, r) := by
    unfold State.apRead64
    rw [if_neg hw, if_neg (by omega), if_neg (by omega), if_neg (by omega), if_neg (by omega), if_neg (by omega),
      if_neg (by omega), if_pos ho, ht]
  rw [State.apRead, hf, if_neg Bool.false_ne_true, show o / 8 * 8 = o by omega, h64]
  show (some (w &&& laneMask .both), r) = _
  rw [laneMask_both]

theorem takeCmd_core (hl : s.live = true) (hc : s.curStall.isSome = true) (ht : s.takeRead .core o = (w, r)) :
    apReadCmd .core o .both s = .next (r.respond w false) := by
  have hf : formRefused .core o .both = false := by simp [formRefused, h8, fromGroom]
  rw [apReadCmd_core hl hc]
  simp only [State.apReadBy, hf, apRead_take h8 ho (by simp) hf ht, Bool.false_eq_true, if_false, Option.getD_some]

theorem takeCmd_regp {cls : BitVec 2} (hl : s.live = true) (hc : cls ≠ 3) (ht : s.takeRead (.regp cls) o = (w, r)) :
    apReadCmd (.regp cls) o .both s = .next (r.respond w false) := by
  have hf : formRefused (.regp cls) o .both = false := by simpa [formRefused, h8, fromGroom] using hc
  rw [apReadCmd_other hl (by simp)]
  simp only [State.apReadBy, apRead_take h8 ho (by simp) hf ht]
  rfl

end

theorem takeRead_queue (who : Requester) (q : BitVec 12) : s.takeRead who (0x110000 + 16 * q.toNat) =
    s.qtake q.toNat (if who = .core then s.curCtx else none) := by
  have hq : q.toNat < 4096 := q.isLt
  have hd : (0x110000 + 16 * q.toNat - 0x110000) / 16 = q.toNat := by omega
  rw [State.takeRead, if_neg (by omega), hd]

theorem takeOffset (q : BitVec 12) : 0x110000 ≤ 0x110000 + 16 * q.toNat ∧ 0x110000 + 16 * q.toNat < 0x120000 ∧
    (0x110000 + 16 * q.toNat) % 16 = 0 := by
  have hq : q.toNat < 4096 := q.isLt
  omega

theorem exec_qtake {q : BitVec 12} {w : Word} {r : State} (hl : s.live = true) (hc : s.curStall.isSome = true)
    (ht : s.qtake q.toNat s.curCtx = (w, r)) : Machine.exec (.qtake .core q .both) s = .next (r.respond w false) := by
  refine takeCmd_core (o := 0x110000 + 16 * q.toNat) (by omega) (.inl (takeOffset q)) hl hc ?_
  rw [takeRead_queue, if_pos rfl, ht]

theorem exec_qtakeany {w : Word} {r : State} (hl : s.live = true) (hc : s.curStall.isSome = true)
    (ht : (match s.curCtx with | some n => s.qtakeAny n | none => (takeWord 0 false 2 0, s)) = (w, r)) :
    Machine.exec (.qtakeany .core .both) s = .next (r.respond w false) :=
  takeCmd_core (o := 0x1E0000) (by decide) (.inr rfl) hl hc ht

theorem qtake_unbound {q : Nat} {c : Option Nat} (h : c ≠ some (s.qCtx q)) : s.qtake q c = (takeWord 0 false 2 0, s) :=
  if_pos h

section
variable {q c : Nat} (hb : s.qCtx q = c)
include hb

theorem qtake_disabled (he : s.qEn q = false) : s.qtake q (some c) = (takeWord 0 false 3 0, s) := by
  simp [State.qtake, hb, he]

theorem qtake_empty (he : s.qEn q = true) (ht : (s.queue q).tail = (s.queue q).taken) :
    s.qtake q (some c) = (takeWord 0 false 1 0, s) := by
  simp [State.qtake, hb, he, ht]

theorem qtake_takes (he : s.qEn q = true) (ht : (s.queue q).tail ≠ (s.queue q).taken) : s.qtake q (some c) =
    (takeWord (s.queue q).taken.toNat true 0 0,
      s.setQueue q { s.queue q with taken := (s.queue q).taken + 1, holders := (s.queue q).holders ++ [c] }) := by
  simp [State.qtake, hb, he, ht]

end

end

/-! ### The rotation of QTAKEANY (R367) -/

/-- What `nextAfter` finds is in the list: the least above `last`, or the least of all where none lies above. -/
theorem nextAfter_spec {last j : Nat} {qs : List Nat} (h : nextAfter last qs = some j) :
    j ∈ qs ∧ ∀ k ∈ qs, (last < j → last < k → j ≤ k) ∧ (j ≤ last → k ≤ last ∧ j ≤ k) := by
  unfold nextAfter at h
  split at h
  next q hq =>
    cases h
    obtain ⟨hm, hle⟩ := List.min?_eq_some_iff.mp hq
    obtain ⟨hj, hlt⟩ := List.mem_filter.mp hm
    have hlast : last < j := of_decide_eq_true hlt
    exact ⟨hj, fun k hk => ⟨fun _ hk' => hle k (List.mem_filter.mpr ⟨hk, decide_eq_true hk'⟩), fun hle' => absurd hlast (by omega)⟩⟩
  next hn =>
    obtain ⟨hj, hle⟩ := List.min?_eq_some_iff.mp h
    have hnone : ∀ k ∈ qs, k ≤ last := fun k hk => by
      have he := List.min?_eq_none_iff.mp hn
      exact Nat.le_of_not_lt fun hlt => List.filter_eq_nil_iff.mp he k hk (decide_eq_true hlt)
    exact ⟨hj, fun k hk => ⟨fun hlt => absurd (hnone j hj) (by omega), fun _ => ⟨hnone k hk, hle k hk⟩⟩⟩

theorem nextAfter_some {last : Nat} {qs : List Nat} (h : qs ≠ []) : ∃ j, nextAfter last qs = some j := by
  unfold nextAfter
  split
  next q hq => exact ⟨q, rfl⟩
  next hn => exact Option.ne_none_iff_exists'.mp fun he => h (List.min?_eq_none_iff.mp he)

/-- The lowest of the priorities below 8 of a list, as the fold of `min` finds it. -/
theorem foldl_min_spec {f : Nat → Nat} {qs : List Nat} (hf : ∀ q, f q < 8) (h : qs ≠ []) :
    (∃ j ∈ qs, f j = qs.foldl (fun p q => min p (f q)) 8) ∧ ∀ k ∈ qs, qs.foldl (fun p q => min p (f q)) 8 ≤ f k := by
  obtain ⟨m, hm⟩ : ∃ m, (qs.map f).min? = some m :=
    Option.ne_none_iff_exists'.mp fun he => h (List.map_eq_nil_iff.mp (List.min?_eq_none_iff.mp he))
  obtain ⟨hmem, hle⟩ := List.min?_eq_some_iff.mp hm
  obtain ⟨j, hj, rfl⟩ := List.mem_map.mp hmem
  have hb : qs.foldl (fun p q => min p (f q)) 8 = f j := by
    rw [← List.foldl_map (f := f) (g := min), List.foldl_min, hm]
    exact Nat.min_eq_right (Nat.le_of_lt (hf j))
  rw [hb]
  exact ⟨⟨j, hj, rfl⟩, fun k hk => hle (f k) (List.mem_map_of_mem hk)⟩

section
variable {s : State} {c : Nat}

theorem qPrio_lt (s : State) (q : Nat) : s.qPrio q < 8 := by
  rw [State.qPrio, Word.bits]
  exact Nat.mod_lt _ (by decide)

theorem qtakeAny_none (h : s.queues.all (fun e => !s.takeable c e.1) = true) : s.qtakeAny c = (takeWord 0 false 1 0, s) := by
  have he : (s.queues.map (·.1)).filter (s.takeable c) = [] := by
    refine List.filter_eq_nil_iff.mpr fun q hq => ?_
    obtain ⟨e, he, rfl⟩ := List.mem_map.mp hq
    simpa using List.all_eq_true.mp h e he
  unfold State.qtakeAny
  rw [he]
  rfl

/-- R367: the queue that QTAKEANY takes from is takeable, of lowest PRIO, and next in rotation. -/
theorem qtakeAny_takes {e : Nat × Queue} (he : e ∈ s.queues) (ht : s.takeable c e.1 = true) :
    ∃ j, (∃ v, (j, v) ∈ s.queues) ∧ s.takeable c j = true ∧
      (∀ f ∈ s.queues, s.takeable c f.1 = true → s.qPrio j ≤ s.qPrio f.1) ∧
      (∀ f ∈ s.queues, s.takeable c f.1 = true → s.qPrio f.1 = s.qPrio j →
        ((s.ctx c).lastTake < j → (s.ctx c).lastTake < f.1 → j ≤ f.1) ∧
        (j ≤ (s.ctx c).lastTake → f.1 ≤ (s.ctx c).lastTake ∧ j ≤ f.1)) ∧
      s.qtakeAny c = (takeWord (s.queue j).taken.toNat true 0 j,
        (s.setQueue j { s.queue j with taken := (s.queue j).taken + 1, holders := (s.queue j).holders ++ [c] }).modCtx c
          fun e => { e with lastTake := j }) := by
  obtain ⟨qs, hqs⟩ : ∃ qs, qs = (s.queues.map (·.1)).filter (s.takeable c) := ⟨_, rfl⟩
  have hmem : ∀ f ∈ s.queues, s.takeable c f.1 = true → f.1 ∈ qs := fun f hf hx =>
    hqs ▸ List.mem_filter.mpr ⟨List.mem_map_of_mem hf, hx⟩
  have hne : qs ≠ [] := List.ne_nil_of_mem (hmem e he ht)
  obtain ⟨⟨i, hi, hbest⟩, hle⟩ := foldl_min_spec (qPrio_lt s) hne
  obtain ⟨j, hj⟩ := nextAfter_some (last := (s.ctx c).lastTake)
    (qs := qs.filter fun q => s.qPrio q = qs.foldl (fun p q => min p (s.qPrio q)) 8)
    (List.ne_nil_of_mem (List.mem_filter.mpr ⟨hi, decide_eq_true hbest⟩))
  obtain ⟨hjm, hrot⟩ := nextAfter_spec hj
  obtain ⟨hjq, hjb⟩ := List.mem_filter.mp hjm
  have hjb' := of_decide_eq_true hjb
  obtain ⟨hjs, hjt⟩ := List.mem_filter.mp (hqs ▸ hjq)
  obtain ⟨⟨j', v⟩, hv, rfl⟩ := List.mem_map.mp hjs
  refine ⟨j', ⟨v, hv⟩, hjt, fun f hf hx => hjb' ▸ hle f.1 (hmem f hf hx), fun f hf hx hp => ?_, ?_⟩
  · exact hrot f.1 (List.mem_filter.mpr ⟨hmem f hf hx, decide_eq_true (hp.trans hjb')⟩)
  · unfold State.qtakeAny
    dsimp only
    rw [← hqs, hj]

end

/-- Settles O35. -/
theorem takeMovesEntry : Obligations.TakeMovesEntry := by
  unfold Obligations.TakeMovesEntry
  refine ⟨fun s c q hl hd hc => ?_, fun d lo hi => rfl, fun s q hl hd => ?_, fun s q cls hl hc => ?_⟩
  · have hcur : s.curCtx = some c := by simp only [State.curCtx, hd]
    refine ⟨fun hb he ht => exec_qtake hl hc ?_, fun hb he ht => exec_qtake hl hc ?_, fun hb he => exec_qtake hl hc ?_,
      fun hb => exec_qtake hl hc ?_, exec_qtakeany hl hc (by rw [hcur]), qtakeAny_none, fun e he ht => ?_⟩
    · rw [hcur, qtake_takes hb he ht]
    · rw [hcur, qtake_empty hb he ht]
    · rw [hcur, qtake_disabled hb he]
    · rw [hcur]
      exact qtake_unbound fun hx => hb (Option.some.inj hx).symm
    · obtain ⟨j, hj, htj, hp, hrot, hq⟩ := qtakeAny_takes he ht
      refine ⟨j, hj, htj, hp, hrot, ?_⟩
      rw [hq]
      exact ⟨rfl, congrArg Ctx.lastTake (State.ctx_setCtx ..), State.queue_setQueue ..⟩
  · have hcur : s.curCtx = none := by simp only [State.curCtx, hd]
    have hs : s.curStall.isSome = true := by simp [State.curStall, hd]
    exact ⟨exec_qtake hl hs (by rw [hcur]; exact qtake_unbound (by simp)), exec_qtakeany hl hs (by rw [hcur])⟩
  · refine ⟨takeCmd_regp (o := 0x110000 + 16 * q.toNat) (by omega) (.inl (takeOffset q)) hl hc ?_,
      takeCmd_regp (o := 0x1E0000) (by decide) (.inr rfl) hl hc rfl⟩
    rw [takeRead_queue, if_neg (by simp)]
    exact qtake_unbound (by simp)

/-! ### The completion (R368, R369, R468) -/

section
variable {s : State} {q : Nat}

theorem putRecord_parts (seq : BitVec 32) (status value : Nat) (c : Option Nat) :
    (s.putRecord q seq status value c).queues = s.queues ∧
    (s.putRecord q seq status value c).ports.qc = s.ports.qc ++ [(q, seq, BitVec.ofNat 16 status)] := by
  have hr := unitRead_accessed s (s.qEntryPa q seq) 8 c
  unfold State.putRecord
  obtain ⟨x, hx⟩ : ∃ x, x = s.unitRead (s.qEntryPa q seq) 8 c := ⟨_, rfl⟩
  rw [← hx] at hr ⊢
  obtain ⟨tag, bad, s1⟩ := x
  obtain ⟨_, _, _, _, _, _, _, _, _, _, hw⟩ := hr.unit.trans 
    (unitWrite_unit s1 (s.qRecordPa q seq) (queueRecord seq status bad (leNat tag) value) false c)
  dsimp only
  rw [hw]
  exact ⟨rfl, rfl⟩

/-- R371: a QDONE by its requester. -/
theorem apWrite_qdone {who : Requester} (q : BitVec 12) (v : TVal) (hw : who ≠ .ijtag)
    (hf : formRefused who (0x110008 + 16 * q.toNat) .both = false) :
    s.apWrite who (0x110008 + 16 * q.toNat) .both v.data (decide (v.tag = .poison)) =
      (true, s.qdone q.toNat (if who = .core then s.curCtx else none) v.data (decide (v.tag = .poison))) := by
  have hq : q.toNat < 4096 := q.isLt
  rw [apWrite_accepted hf, show (0x110008 + 16 * q.toNat) / 8 * 8 = 0x110008 + 16 * q.toNat by omega,
    apWriteAny_queue hw (by omega) (by omega) (queueWord_some (by omega)), State.queuePut, if_neg (by omega), if_pos (by omega),
    if_pos (by omega), show (0x110008 + 16 * q.toNat - 0x110000) / 16 = q.toNat by omega]

theorem exec_qdone {q : BitVec 12} {v : TVal} (hl : s.live = true) (hc : s.curStall.isSome = true) :
    Machine.exec (.qdone .core q .both v) s = .next (s.qdone q.toNat s.curCtx v.data (decide (v.tag = .poison))) := by
  have hq : q.toNat < 4096 := q.isLt
  have hp : tackPoison (0x110008 + 16 * q.toNat) v = false := by
    rw [tackPoison, decide_eq_false (show ¬ 0x110008 + 16 * q.toNat < 0x40000 by omega), Bool.and_false]
  have hf : formRefused .core (0x110008 + 16 * q.toNat) .both = false := by
    have h8 : (0x110008 + 16 * q.toNat) % 8 = 0 := by omega
    simp [formRefused, h8, fromGroom]
  refine (apWriteCmd_core (o := 0x110008 + 16 * q.toNat) hl hc).trans ?_
  rw [apWriteBy_core hp hf, apWrite_qdone q v (by simp) hf, if_pos rfl]

section
variable {c : Nat} {hs : List Nat} {w : Word} {p : Bool} (hh : (s.queue q).holders = c :: hs)
include hh

theorem qdone_completes (hn : w.bits 15 0 = (s.queue q).done.toNat % 65536) (ht : w.bits 31 16 ≤ 0x7FFF) :
    s.qdone q (some c) w p = (if p then s.writeCompletion q 0x8001 0 (some c)
      else if s.spoison c then s.writeCompletion q 0x8001 (w.bits 31 16) (some c)
      else s.writeCompletion q (w.bits 31 16) (w.bits 63 32) (some c)).pump q := by
  simp only [State.qdone, hh, List.head?_cons]
  exact if_pos ⟨trivial, hn, ht⟩

theorem qdone_seqErr (h : w.bits 15 0 ≠ (s.queue q).done.toNat % 65536 ∨ 0x7FFF < w.bits 31 16) :
    s.qdone q (some c) w p = s.setQueue q { s.queue q with seqErr := true } := by
  simp only [State.qdone, hh, List.head?_cons]
  rw [if_neg, if_neg]
  · simp
  · rintro ⟨-, hn, ht⟩
    exact h.elim (fun hx => hx hn) fun hx => absurd ht (by omega)

end

theorem qdone_regp {cls : BitVec 2} {q : BitVec 12} {v : TVal} (hl : s.live = true) (hc : cls ≠ 3) :
    Machine.exec (.qdone (.regp cls) q .both v) s =
      .next ((s.setQueue q.toNat { s.queue q.toNat with denied := true }).respond 0 false) := by
  have hf : formRefused (.regp cls) (0x110008 + 16 * q.toNat) .both = false := by
    have h8 : (0x110008 + 16 * q.toNat) % 8 = 0 := by omega
    simpa [formRefused, h8, fromGroom] using hc
  have hd : s.qdone q.toNat none v.data (decide (v.tag = .poison)) =
      s.setQueue q.toNat { s.queue q.toNat with denied := true } := by
    unfold State.qdone
    split <;> simp_all
  refine (apWriteCmd_other (o := 0x110008 + 16 * q.toNat) hl (by simp)).trans ?_
  simp only [State.apWriteBy, apWrite_qdone q v (by simp) hf, reduceCtorEq, if_false, hd]
  rfl

theorem record_line (q : Nat) (seq : BitVec 32) (n : Nat) (h : n ≤ 32) : s.qRecordPa q seq % 128 + n ≤ 128 := by
  rw [State.qRecordPa]
  omega

theorem queueRecord_length (seq : BitVec 32) (status : Nat) (bad : Bool) (tag value : Nat) :
    (queueRecord seq status bad tag value).length = 32 := by
  simp only [queueRecord, List.length_append, leBytes_length, List.length_replicate, List.length_cons, List.length_nil]

theorem putRecord_read {seq : BitVec 32} {status value : Nat} {c : Option Nat} {tag : List Byte} {bad : Bool} {s1 : State}
    (hx : s.unitRead (s.qEntryPa q seq) 8 c = (tag, bad, s1))
    (hn : s.mem.noTarget.get false (s.qRecordPa q seq / 128) = false) (hw : windowSpace (s.qRecordPa q seq / 128) = false) :
    (s.putRecord q seq status value c).mem.store.read (s.qRecordPa q seq) 32 =
      queueRecord seq status bad (leNat tag) value := by
  have hr := unitRead_accessed s (s.qEntryPa q seq) 8 c
  rw [hx] at hr
  have hlen := queueRecord_length seq status bad (leNat tag) value
  obtain ⟨t, -, ht⟩ := unitWrite_line (s := s1) (p := false) (c := c) (bs := queueRecord seq status bad (leNat tag) value)
    (record_line q seq _ (Nat.le_of_eq hlen)) (hr.mem ▸ hn) hw
  have hp : (s.putRecord q seq status value c).mem =
      (s1.unitWrite (s.qRecordPa q seq) (queueRecord seq status bad (leNat tag) value) false c).mem := by
    rw [State.putRecord, hx]
  rw [hp, ht]
  exact (congrArg (Store.read _ _) hlen.symm).trans (Store.read_write ..)

end

/-- Settles O36: QDONE by the state of its entry; the completion record lies in one line. -/
theorem qdoneWritesCompletion : Obligations.QdoneWritesCompletion := by
  unfold Obligations.QdoneWritesCompletion
  refine ⟨fun s c q v hs hl hd hc hh => ?_, fun s q cls v hl hc => qdone_regp hl hc, fun s q status value c => ?_⟩
  · have hcur : s.curCtx = some c := by simp only [State.curCtx, hd]
    refine ⟨fun hn ht hp hs => ?_, fun hn ht hp hs => ?_, fun hn ht hp => ?_, fun h => ?_⟩
    · rw [exec_qdone hl hc, hcur, qdone_completes hh hn ht, decide_eq_false hp, hs]
      rfl
    · rw [exec_qdone hl hc, hcur, qdone_completes hh hn ht, decide_eq_false hp, hs]
      rfl
    · rw [exec_qdone hl hc, hcur, qdone_completes hh hn ht, decide_eq_true hp]
      rfl
    · rw [exec_qdone hl hc, hcur, qdone_seqErr hh h]
  · obtain ⟨x, hx⟩ : ∃ x, s.unitRead (s.qEntryPa q (s.queue q).done) 8 c = x := ⟨_, rfl⟩
    intro u t
    rw [hx]
    obtain ⟨tag, bad, s1⟩ := x
    obtain ⟨hq, hqc⟩ := putRecord_parts (s := s) (q := q) (s.queue q).done status value c
    have hu : (s.putRecord q (s.queue q).done status value c).queue q = s.queue q :=
      congrArg (fun t => Tbl.get Queue.empty t q) hq
    refine ⟨?_, hqc, fun hn hw => ?_⟩
    · refine (State.queue_setQueue _ q _).trans ?_
      rw [hu]
    · exact putRecord_read hx hn hw

end Sys2Proof.Machine
end

section
/-! PROOFS. Requests of a mailbox and the starting gate (R379 to R385, R419, R422, R423). -/

namespace Sys2Proof.Machine

section
variable {s r : State} {o : Nat} {ln : Lanes} {v : TVal} {ok : Bool}

theorem apWriteBy_regp {cls : BitVec 2} (h : s.apWrite (.regp cls) o ln v.data (decide (v.tag = .poison)) = (ok, r)) :
    s.apWriteBy (.regp cls) o ln v = r.answer (.regp cls) 0 ok :=
  congrArg (fun x : ApWrite => x.2.answer (.regp cls) 0 x.1) h

theorem apWriteBy_ijtag (h : s.apWrite .ijtag o ln v.data (decide (v.tag = .poison)) = (ok, r)) :
    s.apWriteBy .ijtag o ln v = r.answer .ijtag 0 ok :=
  congrArg (fun x : ApWrite => x.2.answer .ijtag 0 x.1) h

end

/-! ### Accesses of MB_DOORBELL -/

section
variable {s : State} {who : Requester} {m : BitVec 5} {w : Word}

theorem bell_accepted (hw : who ≠ .regp 3) : formRefused who (0x10200 + 1024 * m.toNat) .lo = false :=
  formRefused_half (by omega) (.inl rfl) (by have := m.isLt; simp [only64]; omega) hw

/-- R419: a write of MB_DOORBELL reaches its mailbox, or is refused. -/
theorem apWrite_bell (hw : who ≠ .ijtag) (hc : who ≠ .regp 3) {p : Bool} :
    s.apWrite who (0x10200 + 1024 * m.toNat) .lo w p =
      if s.mbMay who m.toNat then (true, s.mbBell m.toNat w) else (!fromRegp who, s.mbRefuse who) := by
  have hm : m.toNat < 32 := m.isLt
  have h1 : (0x10200 + 1024 * m.toNat - 0x10000) / 1024 = m.toNat := by omega
  have h2 : (0x10200 + 1024 * m.toNat) % 1024 = 0x200 := by omega
  rw [apWrite_accepted (bell_accepted hc), show (0x10200 + 1024 * m.toNat) / 8 * 8 = 0x10200 + 1024 * m.toNat by omega,
    apWriteAny_mailbox hw (by omega) (by omega), State.mbWrite, if_neg (by omega), h1, h2, if_neg (by decide)]
  cases s.mbMay who m.toNat <;> rfl

theorem exec_mbGo : Machine.exec (.mbGo who m) s = apWriteCmd who (0x10200 + 1024 * m.toNat) .lo ⟨1, .int⟩ s := rfl

theorem exec_mbAbort : Machine.exec (.mbAbort who m) s = apWriteCmd who (0x10200 + 1024 * m.toNat) .lo ⟨2, .int⟩ s := rfl

theorem mbBell_go : s.mbBell m.toNat 1 = s.mbSubmit m.toNat := by
  have h0 : Word.bit 1 0 = true := by decide
  have h1 : Word.bit 1 1 = false := by decide
  unfold State.mbBell
  rw [h0, h1, if_pos ⟨rfl, .inr rfl⟩]

theorem mbBell_abort : s.mbBell m.toNat 2 =
    if (s.mbox m.toNat).st = .busy then s.setMbox m.toNat { s.mbox m.toNat with abortReq := true } else s := by
  have h0 : Word.bit 2 0 = false := by decide
  have h1 : Word.bit 2 1 = true := by decide
  unfold State.mbBell
  rw [h0, h1, if_neg fun h => Bool.false_ne_true h.1]
  simp only [true_and]
  rfl

theorem mbSubmit_busy {n : Nat} (h : (s.mbox n).st = .busy) : s.mbSubmit n = s.setMbox n { s.mbox n with overrun := true } :=
  if_pos h

theorem postAlert_groom (s : State) (c code : Nat) : (s.postAlert c code).groom = s.groom := by
  unfold State.postAlert
  split
  · exact raiseAlert_groom ..
  · rfl

theorem mbDone_groom (s : State) (n status detail : Nat) (payload : List Byte) : (s.mbDone n status detail payload).groom = s.groom := by
  unfold State.mbDone
  dsimp only
  split
  · split
    · exact postAlert_groom ..
    · rfl
  · rfl

theorem mbServe_groom (s : State) (n : Nat) : (s.mbServe n).groom = s.groom := by
  unfold State.mbServe
  dsimp only
  split
  · exact mbDone_groom ..
  · rfl

/-- R422: a GO in an idle or finished mailbox, before firmware serves it. -/
def goPending (s : State) (n : Nat) : State :=
  let s1 := (s.setMbox n { s.mbox n with st := .busy, abortReq := false, held := true, waitFor := .fresh, since := s.now }).pendGroom n
  { s1 with bridle := { s1.bridle with goOrder := s1.bridle.goOrder ++ [n] } }

theorem mbSubmit_eq {n : Nat} (h : (s.mbox n).st ≠ .busy) :
    s.mbSubmit n = if s.serves then (goPending s n).mbServe n else goPending s n := if_neg h

theorem mbSubmit_halted (n : Nat) : (s.mbSubmit n).groom.halted = s.groom.halted := by
  by_cases h : (s.mbox n).st = .busy
  · rw [mbSubmit_busy h]
    rfl
  · rw [mbSubmit_eq h]
    split
    · rw [mbServe_groom]
      rfl
    · rfl

/-- An access that a requester may make. -/
theorem bell_written {r : State} {i : Instr} (hi : Machine.exec i s = apWriteCmd who (0x10200 + 1024 * m.toNat) .lo ⟨w, .int⟩ s)
    (ha : Accesses s who) (hm : s.mbMay who m.toNat = true) (hr : s.mbBell m.toNat w = r) (hg : GroomSame s r) :
    Machine.exec i s = .next (Written who r) := by
  have hc := ne_regp3_of_accesses ha
  rw [hi]
  refine apWriteCmd_written ha (fun _ => by simp [tackPoison]) (bell_accepted hc) ?_ fun _ => gRestarted_of_same hg
  rw [← apWrite_accepted (bell_accepted hc), apWrite_bell (ne_ijtag_of_accesses ha) hc, hm, if_pos rfl, hr]

/-- R419: one that it may not. -/
theorem bell_refused {i : Instr} (hi : Machine.exec i s = apWriteCmd who (0x10200 + 1024 * m.toNat) .lo ⟨w, .int⟩ s)
    (ha : Accesses s who) (hm : s.mbMay who m.toNat = false) :
    (who = .core → Machine.exec i s = .next (s.mbRefuse who)) ∧
    (fromRegp who = true → Machine.exec i s = .next ((s.mbRefuse who).answer who 0 false)) := by
  have hc := ne_regp3_of_accesses ha
  have hw (p : Bool) : s.apWrite who (0x10200 + 1024 * m.toNat) .lo w p = (!fromRegp who, s.mbRefuse who) := by
    rw [apWrite_bell (ne_ijtag_of_accesses ha) hc, hm, if_neg Bool.false_ne_true]
  rw [hi]
  refine ⟨?_, fun hr => ?_⟩
  · rintro rfl
    rw [apWriteCmd_core ha.1 ha.2, apWriteBy_core (by simp [tackPoison]) (bell_accepted hc), hw]
  · cases who with
    | regp c => rw [apWriteCmd_other ha.1 (by simp), apWriteBy_regp (v := ⟨w, .int⟩) (hw _)]; rfl
    | core => cases hr
    | groom t => cases hr
    | ijtag => cases hr

theorem bell_ijtag {i : Instr} (hi : Machine.exec i s = apWriteCmd .ijtag (0x10200 + 1024 * m.toNat) .lo ⟨w, .int⟩ s)
    (hl : s.live = true) : Machine.exec i s = .next (s.ijRespond 0 true) := by
  have hm : m.toNat < 32 := m.isLt
  have hw (p : Bool) : s.apWrite .ijtag (0x10200 + 1024 * m.toNat) .lo w p = (false, s) := by
    rw [apWrite_accepted (bell_accepted (by simp)), apWriteAny_ijtag (by omega)]
  rw [hi, apWriteCmd_other hl (by simp), apWriteBy_ijtag (v := ⟨w, .int⟩) (hw _)]
  rfl

end

/-- Settles O40: GO and ABORT are writes of MB_DOORBELL, which reach a mailbox that the requester may use. -/
theorem mailboxGoAndAbort : Obligations.MailboxGoAndAbort := by
  unfold Obligations.MailboxGoAndAbort
  intro s who m off b may
  have same (n : Nat) : GroomSame s (s.mbSubmit n) := .of_eq (by rw [State.mbSubmit_ras]) (mbSubmit_halted n)
  have go : may → Machine.exec (.mbGo who m) s = .next (Written who (s.mbSubmit m.toNat)) := fun hm =>
    bell_written exec_mbGo hm.1 hm.2 mbBell_go (same _)
  refine ⟨fun hm hb hs => ⟨_, go hm, ?_⟩, go,
    fun hm hb => ?_, fun hm hb => ?_, fun hm hb => ?_, fun i hi ha hm => ?_, fun i hi hl => ?_, fun hl ho hm => ?_, fun hw => ?_⟩
  · rw [mbSubmit_eq hb, hs, if_neg Bool.false_ne_true]
    have hbox : (goPending s m.toNat).mbox m.toNat =
      { s.mbox m.toNat with st := .busy, abortReq := false, held := true, waitFor := .fresh, since := s.now } :=
        State.mbox_setMbox ..
    rw [hbox]
    exact ⟨rfl, rfl, rfl, rfl⟩
  · rw [← mbSubmit_busy hb]
    exact go hm
  · exact bell_written exec_mbAbort hm.1 hm.2 (mbBell_abort.trans (if_pos hb)) ⟨rfl, rfl⟩
  · exact bell_written exec_mbAbort hm.1 hm.2 (mbBell_abort.trans (if_neg hb)) ⟨rfl, rfl⟩
  · simp only [List.mem_cons, List.not_mem_nil, or_false] at hi
    rcases hi with rfl | rfl
    · exact bell_refused exec_mbGo ha hm
    · exact bell_refused exec_mbAbort ha hm
  · simp only [List.mem_cons, List.not_mem_nil, or_false] at hi
    rcases hi with rfl | rfl
    · exact bell_ijtag exec_mbGo hl
    · exact bell_ijtag exec_mbAbort hl
  · exact (eventStep_runs (f := fun s => match mailboxOf off.toNat with
      | some m => if s.mbMay who m then s else s.mbRefuse who
      | none => s) hl rfl).trans (by rw [ho]; simp only [hm]; rfl)
  · unfold State.mbRefuse
    rw [if_neg hw]
    cases who <;> rfl

/-! ### The starting gate (R379 to R385) -/

section
variable {s : State}

theorem raiseGate_platform (s : State) : PlatformSame s s.raiseGate :=
  foldl_platform (fun s c => raiseEvent_platform s c 5) _ s

theorem driveGate_gate (s : State) : ∃ out outAt timedOut, s.driveGate =
    { s with gate := { s.gate with out := out, outAt := outAt, timedOut := timedOut } } ∧ (s.gate.out = true → out = true) := by
  unfold State.driveGate
  split
  · exact ⟨_, _, _, rfl, fun _ => rfl⟩
  · exact ⟨_, _, _, rfl, id⟩

theorem gCtl_accepted {who : Requester} (hc : who ≠ .regp 3) : formRefused who 0x1F0000 .lo = false :=
  formRefused_half (by decide) (.inl rfl) (by decide) hc

/-- R379: a write of GATE_CTL reaches the gate. -/
theorem apWriteAny_gateCtl {who : Requester} {w : Word} {p : Bool} (hw : who ≠ .ijtag) :
    s.apWriteAny who (0x1F0000 / 8 * 8) .lo w p = (true, s.gateCtl who w) :=
  apWriteAny_queue hw (by decide) (by decide) rfl

theorem gateCtl_written {who : Requester} {w : Word} {r : State} {i : Instr}
    (hi : Machine.exec i s = apWriteCmd who 0x1F0000 .lo ⟨w, .int⟩ s) (ha : Accesses s who) (hr : s.gateCtl who w = r)
    (hg : GroomSame s r) : Machine.exec i s = .next (Written who r) := by
  rw [hi]
  exact apWriteCmd_written ha (fun _ => by simp [tackPoison]) (gCtl_accepted (ne_regp3_of_accesses ha))
    ((apWriteAny_gateCtl (ne_ijtag_of_accesses ha)).trans (by rw [hr])) fun _ => gRestarted_of_same hg

theorem gateCtl_other {who : Requester} {w : Word} (h : w.bit 0 = false ∨ who ≠ .core) : s.gateCtl who w =
    let s2 := if w.bit 1 then { s with gate := { s.gate with loadArm := true } } else s
    if w.bit 2 then { s2 with gate := { s2.gate with loadArm := false, loadDue := false } } else s2 := by
  cases who with
  | core =>
    have h0 := h.resolve_right (by simp)
    unfold State.gateCtl
    rw [h0]
    cases s.curCtx <;> rfl
  | regp _ => rfl
  | groom _ => rfl
  | ijtag => rfl

theorem gateCtl_arrive {c : Nat} (hc : s.curCtx = some c) : s.gateCtl .core 1 = s.arrive c := by
  have h0 : Word.bit 1 0 = true := by decide
  have h1 : Word.bit 1 1 = false := by decide
  have h2 : Word.bit 1 2 = false := by decide
  unfold State.gateCtl
  rw [hc, h0, h1, h2]
  rfl

/-- R383: the release before the counter load. -/
def gateReleased (s : State) : State :=
  let s1 := s.raiseGate
  { s1 with
    gate := { s1.gate with
      epoch := s1.gate.epoch + 1, arrived := 0, arrivedCtxs := [], riseAt := none, timedOut := false,
      lowSeen := !s1.gate.gateIn, loadDue := s1.gate.loadDue || s1.gate.loadArm, dropAt := some (aclkOf s.now) },
    runs := { s1.runs with run0 := s1.runs.run0.map (Run.release s.now), run1 := s1.runs.run1.map (Run.release s.now),
                           parked := s1.runs.parked.mapVals fun _ r => r.release s.now } }

theorem releaseGate_eq (s : State) : s.releaseGate =
    if s.gate.loadArm && aclkOf s.now % 8 = 0 then (gateReleased s).loadGcount else gateReleased s := rfl

theorem raiseGate_gcount (s : State) : s.raiseGate.gcount = s.gcount :=
  foldl_const (g := State.gcount) (fun s c => by
    obtain ⟨_, _, _, _, _, _, _, _, _, h⟩ := raiseEvent_accessed s c 5
    rw [h]) _ s

theorem gateReleased_gate (s : State) : (gateReleased s).gate = { s.gate with
    epoch := s.gate.epoch + 1, arrived := 0, arrivedCtxs := [], riseAt := none, timedOut := false,
    lowSeen := !s.gate.gateIn, loadDue := s.gate.loadDue || s.gate.loadArm, dropAt := some (aclkOf s.now) } := by
  rw [← (raiseGate_platform s).gate]
  rfl

theorem releaseGate_gate (s : State) : s.releaseGate.gate.epoch = s.gate.epoch + 1 ∧ s.releaseGate.gate.arrived = 0 ∧
    s.releaseGate.gate.arrivedCtxs = [] ∧ s.releaseGate.gate.out = s.gate.out ∧
    s.releaseGate.gate.dropAt = some (aclkOf s.now) ∧
    (s.gate.loadArm = true → aclkOf s.now % 8 = 0 → s.releaseGate.gcount = s.gate.gcountLd ∧ s.releaseGate.gate.loadArm = false) ∧
    (s.gate.loadArm = true → aclkOf s.now % 8 ≠ 0 → s.releaseGate.gcount = s.gcount ∧ s.releaseGate.gate.loadDue = true) := by
  have hg := gateReleased_gate s
  rw [releaseGate_eq]
  by_cases h : (s.gate.loadArm && decide (aclkOf s.now % 8 = 0)) = true
  · rw [if_pos h]
    have hl : (gateReleased s).loadGcount.gate = { (gateReleased s).gate with loadArm := false, loadDue := false } := rfl
    rw [hl, hg]
    refine ⟨rfl, rfl, rfl, rfl, rfl, fun _ _ => ⟨?_, rfl⟩, fun ha hn => absurd h (by simp [hn])⟩
    have h1 := congrArg Gate.gcountLd hg
    exact h1
  · rw [if_neg h, hg]
    refine ⟨rfl, rfl, rfl, rfl, rfl, fun ha h8 => absurd (by rw [ha, decide_eq_true h8]; rfl) h, fun ha _ => ⟨raiseGate_gcount s, ?_⟩⟩
    rw [ha, Bool.or_true]

/-- R380: the gate counts an arrival. -/
def gateCounted (g : Gate) (c : Nat) : Gate :=
  { g with arrived := g.arrived + 1, arrivedCtxs := if g.arrivedCtxs.contains c then g.arrivedCtxs else g.arrivedCtxs ++ [c] }

theorem arrive_eq (s : State) (c : Nat) : s.arrive c = let s1 := if s.releaseDue then s.releaseGate else s
    State.driveGate { s1 with gate := gateCounted s1.gate c } := rfl

theorem arrive_gate (h : s.releaseDue = false) (c : Nat) : (s.arrive c).gate.arrived = s.gate.arrived + 1 ∧
    c ∈ (s.arrive c).gate.arrivedCtxs ∧ (s.gParts ≠ 0 → s.gParts ≤ s.gate.arrived + 1 → s.gate.lowSeen = true →
      s.power.pfEnded = false → (s.arrive c).gate.out = true) := by
  have he : s.arrive c = State.driveGate { s with gate := gateCounted s.gate c } := by
    rw [arrive_eq, h]
    rfl
  have hm : c ∈ (gateCounted s.gate c).arrivedCtxs := by
    unfold gateCounted
    dsimp only
    split
    next hc => simpa using hc
    next => simp
  obtain ⟨_, _, _, hd, ho⟩ := driveGate_gate { s with gate := gateCounted s.gate c }
  rw [he]
  refine ⟨by rw [hd]; rfl, by rw [hd]; exact hm, fun hp hle hl hf => ?_⟩
  cases hout : s.gate.out with
  | true => rw [hd]; exact ho hout
  | false =>
    rw [State.driveGate, if_pos ⟨hp, hle, hl, by simp [gateCounted, hout], by simp [hf]⟩]

theorem arrive_released (h : s.releaseDue = true) (c : Nat) :
    (s.arrive c).gate.arrived = 1 ∧ (s.arrive c).gate.epoch = s.gate.epoch + 1 := by
  have hx : s.arrive c = State.driveGate { s.releaseGate with gate := gateCounted s.releaseGate.gate c } := by
    rw [arrive_eq, h]
    rfl
  obtain ⟨_, _, _, hd, -⟩ := driveGate_gate { s.releaseGate with gate := gateCounted s.releaseGate.gate c }
  obtain ⟨he, ha, -⟩ := releaseGate_gate s
  rw [hx, hd]
  exact ⟨congrArg (· + 1) ha, he⟩

end

theorem gateRise_sampled {s : State} (hc : s.gate.cal = none) : s.gateRise = { s with gate := { s.gate with
    gateIn := true, riseAt := if s.gate.out && s.gate.dropAt.isNone then some s.now else none } } := by
  unfold State.gateRise
  dsimp only
  split
  next k hk => rw [hc] at hk; cases hk
  next => rfl

theorem gateRise_measured {s : State} {k : GateCal} (hc : s.gate.cal = some k) (hh : k.high = true) :
    s.gateRise = State.calRise { s with gate := { s.gate with gateIn := true } } k := by
  unfold State.gateRise
  rw [hc]
  exact if_pos hh

/-- R385: a time-out of the gate. -/
def gateTimesOut (s : State) : State :=
  let s1 := s.record { ErrRec.mk0 0x10B 0xD 8 none with info := Word.ofNat s.gate.epoch.toNat }
  let s2 := (s1.pendGroom 39).raiseGate
  { s2 with gate := { s2.gate with timeout := true, timedOut := true } }

theorem gateTimesOut_epoch (s : State) : (gateTimesOut s).gate.epoch = s.gate.epoch := by
  obtain ⟨t, ht⟩ : ∃ t, t = s.record { ErrRec.mk0 0x10B 0xD 8 none with info := Word.ofNat s.gate.epoch.toNat } := ⟨_, rfl⟩
  have h1 : PlatformSame s t := ht ▸ record_platform s _
  have h2 : PlatformSame t (t.pendGroom 39) := ⟨rfl, rfl, rfl, rfl, rfl, rfl, rfl, rfl, .of_ctxs rfl⟩
  have h : (gateTimesOut s).gate.epoch = (t.pendGroom 39).raiseGate.gate.epoch := by rw [ht]; rfl
  rw [h, ((h1.trans h2).trans (raiseGate_platform _)).gate]

/-- Settles O38: commands of GATE_CTL by their bits, samples of GATE_IN, and the release, which keeps the gate but for its epoch. -/
theorem gateCommands : Obligations.GateCommands := by
  unfold Obligations.GateCommands
  intro s c hl g
  refine ⟨fun hd hc => ⟨?_, fun hr => arrive_gate hr c, fun hr => arrive_released hr c⟩, fun cls hc => ?_, fun who ha => ⟨?_, ?_⟩,
    fun hi hc => ?_, fun k hi hc hh hk => ?_, fun hi => ?_, fun hr => ?_, fun p hp hlt hn => ?_, fun ht => ?_⟩
  · have hcur : s.curCtx = some c := by simp only [State.curCtx, hd]
    have hw (p : Bool) : (s.apWrite .core 0x1F0000 .lo 1 p).2 = s.arrive c := by
      rw [apWrite_accepted (gCtl_accepted (by simp)), apWriteAny_gateCtl (by simp), gateCtl_arrive hcur]
    exact (apWriteCmd_core (o := 0x1F0000) hl hc).trans
      (congrArg _ ((apWriteBy_core (by simp [tackPoison]) (gCtl_accepted (by simp))).trans (hw _)))
  · have hw (p : Bool) : s.apWrite (.regp cls) 0x1F0000 .lo 1 p = (true, s) := by
      rw [apWrite_accepted (gCtl_accepted (by simpa using hc)), apWriteAny_gateCtl (by simp), gateCtl_other (.inr (by simp))]
      rfl
    exact (apWriteCmd_other (o := 0x1F0000) hl (by simp)).trans (congrArg _ (apWriteBy_regp (v := ⟨1, .int⟩) (hw _)))
  · exact gateCtl_written (w := 2) rfl ha (gateCtl_other (.inl (by decide))) ⟨rfl, rfl⟩
  · exact gateCtl_written (w := 4) rfl ha (gateCtl_other (.inl (by decide))) ⟨rfl, rfl⟩
  · exact (eventStep_runs (f := State.gateRise) hl (by rw [show s.gate.gateIn = false from hi]; rfl)).trans
      (congrArg _ (gateRise_sampled hc))
  · refine ⟨_, eventStep_runs (f := State.gateRise) hl (by rw [show s.gate.gateIn = false from hi]; rfl), ?_⟩
    rw [gateRise_measured hc hh]
    refine ⟨rfl, rfl, ?_⟩
    have hl1 : (k.left - 1 = 0) = (k.left = 1) := propext (by omega)
    exact (ite_congr_iff (iff_of_eq hl1) rfl rfl)
  · exact eventStep_runs (f := fun s => (State.driveGate
      { s with gate := { s.gate with gateIn := false, lowSeen := true } }).calRaise) hl hi
  · obtain ⟨he, ha, hcs, ho, hd, h8, hn8⟩ := releaseGate_gate s
    have hout : s.gate.out = true := by
      simp only [State.releaseDue, Bool.and_eq_true] at hr
      exact hr.1
    exact ⟨_, eventStep_runs (f := State.releaseGate) hl hr, he, ha, hcs, ho.trans hout, hd, h8, hn8⟩
  · have hp' : s.gate.dropAt = some p := hp
    have he : s.dropGate = State.driveGate { s with gate := { s.gate with out := false, dropAt := none } } := by
      unfold State.dropGate
      rw [hp']
      exact if_pos hlt
    rw [he, State.driveGate, if_neg fun hx => absurd hx.2.1 (Nat.not_le.mpr hn)]
  · refine ⟨_, eventStep_runs (f := gateTimesOut) hl ht, rfl, rfl, ?_⟩
    exact gateTimesOut_epoch s

end Sys2Proof.Machine
end

section
/-! PROOFS. Windows: commands, the grant, the phases of CLOSE, and remote writes (R373 to R378). -/

namespace Sys2Proof.Machine

/-! ### Commands of WCS (R373, R374, R376) -/

theorem Tbl.set_set {α : Type} (t : Tbl α) (k : Nat) (v w : α) : (t.set k v).set k w = t.set k w := by
  induction t with
  | nil => simp [Tbl.set]
  | cons e t ih =>
    obtain ⟨j, x⟩ := e
    simp only [Tbl.set]
    by_cases h1 : k = j
    · simp only [h1, if_true, Tbl.set]
    · by_cases h2 : k < j
      · simp only [h1, h2, if_true, if_false, Tbl.set]
      · simp only [h1, h2, if_false, Tbl.set, ih]

section
variable {s : State} {w : BitVec 10} {n : Nat}

theorem setWindow_setWindow (v v' : Window) : (s.setWindow n v).setWindow n v' = s.setWindow n v' := by
  simp only [State.setWindow, Tbl.set_set]

theorem window_setWindow (v : Window) : (s.setWindow n v).window n = v := Tbl.get_set_same ..

theorem windowCmd_accepted {who : Requester} (hw : who ≠ .regp 3) : formRefused who (0x200018 + 32 * w.toNat) .lo = false :=
  formRefused_half (by omega) (.inl rfl) (by have := w.isLt; simp [only64]; omega) hw

theorem windowWord_some {o : Nat} (h : o < 0x208000) : (s.windowWord o).isNone = false := by
  rw [State.windowWord, if_pos h]
  rfl

/-- R373: a command of WCS reaches its window by the owner alone. -/
theorem apWrite_windowCmd {who : Requester} {x : Word} {p : Bool} (hw : who ≠ .ijtag) (hc : who ≠ .regp 3) :
    s.apWrite who (0x200018 + 32 * w.toNat) .lo x p = (true, s.asOwner who w.toNat fun s => s.windowCmd w.toNat .lo x) := by
  have hm : w.toNat < 1024 := w.isLt
  have h1 : (0x200018 + 32 * w.toNat - 0x200000) / 32 = w.toNat := by omega
  have h2 : (0x200018 + 32 * w.toNat) % 32 = 24 := by omega
  rw [apWrite_accepted (windowCmd_accepted hc), show (0x200018 + 32 * w.toNat) / 8 * 8 = 0x200018 + 32 * w.toNat by omega,
    apWriteAny_window hw (by omega) (by omega) (windowWord_some (by omega)), State.windowPut, if_pos (by omega), h1, h2]
  rfl

/-- A command of WCS that clears no event leaves the window as it is before it takes effect. -/
theorem windowCmd_plain {x : Word} (h : x.bit 16 = false ∧ x.bit 17 = false ∧ x.bit 18 = false ∧ x.bit 19 = false) :
    s.windowCmd n .lo x = let s1 := s.setWindow n (s.window n)
      if x.bits 1 0 = 1 then s1.openWindow n else if x.bits 1 0 = 2 then s1.closeByOwner n else s1 := by
  obtain ⟨h1, h2, h3, h4⟩ := h
  unfold State.windowCmd State.modWindow
  simp only [h1, h2, h3, h4, Bool.not_false, Bool.and_true, reduceCtorEq, if_false]

theorem windowCmd_open : s.windowCmd n .lo 1 = (s.setWindow n (s.window n)).openWindow n :=
  (windowCmd_plain (by decide)).trans (if_pos (by decide))

theorem windowCmd_close : s.windowCmd n .lo 2 = (s.setWindow n (s.window n)).closeByOwner n :=
  (windowCmd_plain (by decide)).trans ((if_neg (by decide)).trans (if_pos (by decide)))

/-- A command by the core's context. -/
theorem exec_windowCmd {x : Word} {i : Instr} (hi : Machine.exec i s = apWriteCmd .core (0x200018 + 32 * w.toNat) .lo ⟨x, .int⟩ s)
    (hl : s.live = true) (hc : s.curStall.isSome = true) : Machine.exec i s =
      .next (if s.curCtx = some (s.wOwner w.toNat) then s.windowCmd w.toNat .lo x else s.windowLast w.toNat 1) := by
  rw [hi, apWriteCmd_core hl hc, apWriteBy_core (by simp [tackPoison]) (windowCmd_accepted (by simp)),
    apWrite_windowCmd (by simp) (by simp)]
  rfl

theorem exec_windowCmd_regp {x : Word} {cls : BitVec 2} {i : Instr}
    (hi : Machine.exec i s = apWriteCmd (.regp cls) (0x200018 + 32 * w.toNat) .lo ⟨x, .int⟩ s) (hl : s.live = true) (hc : cls ≠ 3) :
    Machine.exec i s = .next (s.respond 0 false) := by
  have hw (p : Bool) : s.apWrite (.regp cls) (0x200018 + 32 * w.toNat) .lo x p = (true, s) :=
    (apWrite_windowCmd (by simp) (by simpa using hc)).trans rfl
  rw [hi, apWriteCmd_other hl (by simp), apWriteBy_regp (v := ⟨x, .int⟩) (hw _)]
  rfl

theorem exec_windowOpen {who : Requester} : Machine.exec (.windowOpen who w) s =
    apWriteCmd who (0x200018 + 32 * w.toNat) .lo ⟨1, .int⟩ s := rfl

theorem exec_windowClose {who : Requester} : Machine.exec (.windowClose who w) s =
    apWriteCmd who (0x200018 + 32 * w.toNat) .lo ⟨2, .int⟩ s := rfl

end

/-! ### OPEN and CLOSE (R374, R376) -/

section
variable {s : State} {n : Nat}

theorem windowLast_setWindow (v : Window) (code : Nat) :
    (s.setWindow n v).windowLast n code = s.setWindow n { v with last := BitVec.ofNat 4 code } := by
  rw [State.windowLast, State.modWindow, setWindow_setWindow, window_setWindow]

theorem windowLast_rewritten (code : Nat) : (s.setWindow n (s.window n)).windowLast n code = s.windowLast n code :=
  windowLast_setWindow ..

/-- R374: the window of a new generation. -/
def windowFresh (v : Window) : Window := { v with gen := v.gen + 1, count := 0, spoil := false }

theorem wEn_setWindow (v : Window) : (s.setWindow n v).wEn n = s.wEn n := rfl

/-- Each outcome of OPEN writes the window. -/
theorem openWindow_rewritten : (s.setWindow n (s.window n)).openWindow n = s.openWindow n := by
  simp only [State.openWindow, window_setWindow, setWindow_setWindow, windowLast_rewritten, wEn_setWindow]

theorem openWindow_disabled (h : s.wEn n = false) : s.openWindow n = s.windowLast n 5 := by
  simp only [State.openWindow, h, Bool.not_false, if_true]

theorem openWindow_busy (h : s.wEn n = true) (hs : (s.window n).st ≠ .closed) : s.openWindow n = s.windowLast n 2 := by
  simp only [State.openWindow, h, Bool.not_true, Bool.false_eq_true, if_false]
  exact if_pos hs

section
variable (h : s.wEn n = true) (hs : (s.window n).st = .closed)
include h hs

theorem openWindow_vaddr (hv : (s.window n).wtgt.bit 0 = true) : s.openWindow n =
    match (s.setWindow n (windowFresh (s.window n))).windowXlate (s.window n).addr (s.window n).bytes with
      | (none, s2) => s2.windowLast n 4
      | (some pa, s2) => (s2.setWindow n { windowFresh (s.window n) with
          st := .opened, last := 0, target := some (.mem, pa), granted := true, evOpened := true }).windowEvent n := by
  simp only [State.openWindow, h, Bool.not_true, Bool.false_eq_true, if_false]
  exact (if_neg (Decidable.not_not.mpr hs)).trans (if_pos hv)

theorem openWindow_baddr (hv : (s.window n).wtgt.bit 0 = false) : s.openWindow n =
    let s1 := s.setWindow n (windowFresh (s.window n))
    if !s1.cur.baddrOk (s.window n).addr (s.window n).bytes then s1.windowLast n 3
    else
      let off := s1.cur.relocate (s.window n).addr
      let (g, tag, b) := s1.buf.acquire off (off + (s.window n).bytes) true (.window n)
      ({ s1 with buf := b }).setWindow n
        { windowFresh (s.window n) with st := .opening, last := 0, target := some (.buf, off), tag := tag, granted := g } := by
  simp only [State.openWindow, h, Bool.not_true, Bool.false_eq_true, if_false]
  exact (if_neg (Decidable.not_not.mpr hs)).trans (if_neg (by rw [hv]; decide))

end

theorem closeByOwner_open (h : (s.window n).st = .opening ∨ (s.window n).st = .opened) :
    (s.setWindow n (s.window n)).closeByOwner n =
      (s.setWindow n { s.window n with st := .closing, spoil := false }).windowLast n 0 := by
  rw [State.closeByOwner, window_setWindow, if_pos h, State.closeWindow, window_setWindow, if_pos h, setWindow_setWindow]

theorem closeByOwner_other (h : (s.window n).st ≠ .opening) (h' : (s.window n).st ≠ .opened) :
    (s.setWindow n (s.window n)).closeByOwner n = s.windowLast n 2 := by
  rw [State.closeByOwner, window_setWindow, if_neg fun hx => hx.elim h h', windowLast_rewritten]

end

/-! ### The second phase of CLOSE (R376, R377) -/

section
variable {s : State} {n : Nat}

theorem windowEvent_accessed (s : State) (n : Nat) : Accessed s (s.windowEvent n) := raiseEvent_accessed ..

theorem windowEvent_ras (s : State) (n : Nat) : (s.windowEvent n).ras = s.ras := State.raiseEvent_ras ..

/-- R377: buffer memory after the target of a window has been given up. -/
def targetReleased (s : State) (v : Window) : Buffer :=
  match v.target with
  | some (.buf, off) => s.buf.drop off (off + v.bytes) true v.granted false v.spoil v.tag
  | _ => s.buf

/-- The window of a finished CLOSE. -/
def windowClosed (v : Window) : Window := { v with st := .closed, evClosed := true, target := none, granted := false }

/-- R458: the record of a short window. -/
def shortRecord (s : State) (n : Nat) : ErrRec :=
  { ErrRec.mk0 0x10A 0xC 8 (some (s.wOwner n)) with
    unit := BitVec.ofNat 16 n, info := Word.ofNat ((s.window n).count % 2 ^ 32 + (s.window n).expect * 2 ^ 32) }

theorem finishClose_eq : s.finishClose n =
    let s1 := ({ s with buf := targetReleased s (s.window n) }).setWindow n (windowClosed (s.window n))
    (if (s.window n).expect ≠ 0 ∧ (s.window n).count < (s.window n).expect then s1.record (shortRecord s n)
      else s1).windowEvent n := rfl

theorem finishClose_parts : (s.finishClose n).window n = windowClosed (s.window n) ∧
    (s.finishClose n).buf = targetReleased s (s.window n) := by
  have h : ∀ s1 : State, (if (s.window n).expect ≠ 0 ∧ (s.window n).count < (s.window n).expect then s1.record (shortRecord s n)
      else s1).windows = s1.windows ∧ (if (s.window n).expect ≠ 0 ∧ (s.window n).count < (s.window n).expect then
        s1.record (shortRecord s n) else s1).buf = s1.buf := fun s1 => by
    split
    · obtain ⟨_, _, _, _, _, _, _, _, _, hr⟩ := record_accessed s1 (shortRecord s n)
      rw [hr]
      exact ⟨rfl, rfl⟩
    · exact ⟨rfl, rfl⟩
  rw [finishClose_eq]
  dsimp only
  obtain ⟨_, _, _, _, _, _, _, _, _, he⟩ := windowEvent_accessed
    (if (s.window n).expect ≠ 0 ∧ (s.window n).count < (s.window n).expect then
      (({ s with buf := targetReleased s (s.window n) } : State).setWindow n (windowClosed (s.window n))).record (shortRecord s n)
      else ({ s with buf := targetReleased s (s.window n) } : State).setWindow n (windowClosed (s.window n))) n
  rw [he]
  obtain ⟨hw, hb⟩ := h (({ s with buf := targetReleased s (s.window n) } : State).setWindow n (windowClosed (s.window n)))
  exact ⟨(congrArg (fun t => Tbl.get Window.empty t n) hw).trans (window_setWindow _), hb⟩

theorem finishClose_full (h : (s.window n).expect = 0 ∨ (s.window n).expect ≤ (s.window n).count) :
    (s.finishClose n).ras = s.ras := by
  rw [finishClose_eq]
  dsimp only
  rw [windowEvent_ras, if_neg fun hx => h.elim hx.1 fun hle => absurd hx.2 (by omega)]
  rfl

theorem finishClose_short (he : (s.window n).expect ≠ 0) (hc : (s.window n).count < (s.window n).expect)
    (hf : s.ras.fifo.length < 16) : (s.finishClose n).ras.fifo =
      s.ras.fifo ++ [{ shortRecord s n with seq := s.ras.nextSeq, gstamp := s.gcount }] := by
  rw [finishClose_eq]
  dsimp only
  rw [windowEvent_ras, if_pos ⟨he, hc⟩, record_ras]
  exact congrArg Ras.fifo (if_pos hf)

end

/-! ### The bytes of a remote write (R375, R336) -/

/-- What a chunk's bytes with their enables make of the byte at `x`. -/
def chunkByte (data : List (Byte × Bool)) (x : Nat) (old : Byte) : Byte :=
  match data[x % 16]? with
  | some (b, true) => b
  | _ => old

theorem byte_putByte (m : Store) (a x : Nat) (b : Byte) : (m.putByte a b).byte x = if x = a then b else m.byte x := by
  by_cases h : x = a
  · rw [h, if_pos rfl]
    exact Tbl.get_put_same ..
  · rw [if_neg h]
    exact Tbl.get_put_other _ _ _ h

/-- The enabled bytes of a list, stored from `a + k` on. -/
theorem byte_foldl_enabled (data : List (Byte × Bool)) (a k x : Nat) (m : Store) :
    ((data.zipIdx k).foldl (fun m p => if p.1.2 then m.putByte (a + p.2) p.1.1 else m) m).byte x =
      if a + k ≤ x then (match data[x - (a + k)]? with | some (b, true) => b | _ => m.byte x) else m.byte x := by
  induction data generalizing k m with
  | nil => simp
  | cons d data ih =>
    obtain ⟨b, en⟩ := d
    have hm : (if en then m.putByte (a + k) b else m).byte x = if en = true ∧ x = a + k then b else m.byte x := by
      cases en
      · simp
      · simp [byte_putByte]
    rw [List.zipIdx_cons, List.foldl_cons, ih]
    simp only [hm]
    rcases Nat.lt_trichotomy x (a + k) with h | h | h
    · rw [if_neg (by omega), if_neg (by omega), if_neg (by omega)]
    · subst h
      rw [if_neg (by omega), if_pos (Nat.le_refl _), Nat.sub_self]
      cases en <;> simp
    · have hn : ¬ (en = true ∧ x = a + k) := fun hx => absurd hx.2 (by omega)
      simp only [if_pos (show a + (k + 1) ≤ x by omega), if_pos (show a + k ≤ x by omega), if_neg hn]
      rw [show x - (a + k) = x - (a + (k + 1)) + 1 by omega, List.getElem?_cons_succ]

theorem byte_writeChunk {data : List (Byte × Bool)} (h : data.length ≤ 16) (m : Store) (k : Nat) (p : Bool) (x : Nat) :
    (m.writeChunk k data p).byte x = if x / 16 = k then chunkByte data x (m.byte x) else m.byte x := by
  have hb : (m.writeChunk k data p).byte x =
      ((data.zipIdx).foldl (fun m p => if p.1.2 then m.putByte (16 * k + p.2) p.1.1 else m) m).byte x := by
    unfold Store.writeChunk
    dsimp only
    split
    · rw [Store.byte_putMark]
    · split
      · rw [Store.byte_putMark]
      · rfl
  rw [hb, byte_foldl_enabled, Nat.add_zero]
  by_cases hk : x / 16 = k
  · rw [if_pos hk, if_pos (by omega), chunkByte, show x - 16 * k = x % 16 by omega]
  · rw [if_neg hk]
    split
    · rw [List.getElem?_eq_none (by omega)]
    · rfl

theorem chunkByte_idem (data : List (Byte × Bool)) (x : Nat) (old : Byte) :
    chunkByte data x (chunkByte data x old) = chunkByte data x old := by
  unfold chunkByte
  split <;> simp_all

/-- The chunks of a list, written in order. -/
def writeChunks (m : Store) (cs : List (Nat × List (Byte × Bool) × Bool)) : Store :=
  cs.foldl (fun m p => m.writeChunk p.1 p.2.1 p.2.2) m

/-- Chunks written in any order, where those of one number are equal. -/
theorem byte_writeChunks {x : Nat} {c : List (Byte × Bool)} {z : Bool} {L : List (Nat × List (Byte × Bool) × Bool)}
    (hl : ∀ p ∈ L, p.2.1.length ≤ 16) (m : Store) (hu : ∀ p ∈ L, p.1 = x / 16 → p.2 = (c, z)) :
    (writeChunks m L).byte x =
      if ∃ p ∈ L, p.1 = x / 16 then chunkByte c x (m.byte x) else m.byte x := by
  induction L generalizing m with
  | nil => simp [writeChunks]
  | cons q L ih =>
    rw [writeChunks, List.foldl_cons]
    refine (ih (fun p hp => hl p (List.mem_cons_of_mem q hp)) _ fun p hp => hu p (List.mem_cons_of_mem q hp)).trans ?_
    rw [byte_writeChunk (hl q List.mem_cons_self)]
    by_cases hq : x / 16 = q.1
    · have hc : q.2.1 = c := congrArg Prod.fst (hu q List.mem_cons_self hq.symm)
      rw [if_pos hq, hc, if_pos (⟨q, List.mem_cons_self, hq.symm⟩ : ∃ p ∈ q :: L, p.1 = x / 16), chunkByte_idem, ite_self]
    · rw [if_neg hq]
      refine ite_congr_iff ⟨fun ⟨p, hp, he⟩ => ⟨p, List.mem_cons_of_mem q hp, he⟩, fun ⟨p, hp, he⟩ => ?_⟩ rfl rfl
      rcases List.mem_cons.mp hp with rfl | hp
      · exact absurd he.symm hq
      · exact ⟨p, hp, he⟩

/-! ### The requests of a remote write -/

theorem cuts_bounds {size fuel o n : Nat} {q : Nat × Nat} (h : q ∈ cuts size fuel o n) : o ≤ q.1 ∧ q.1 + q.2 ≤ o + n := by
  induction fuel generalizing o n with
  | zero => exact absurd h List.not_mem_nil
  | succ fuel ih =>
    rw [cuts] at h
    split at h
    · exact absurd h List.not_mem_nil
    · rcases List.mem_cons.mp h with rfl | h
      · exact ⟨Nat.le_refl o, by dsimp only; omega⟩
      · have := ih h
        omega

/-- Every byte of the run lies in one of its parts. -/
theorem cuts_covers {size fuel o n x : Nat} (hs : 0 < size) (hf : o % size + n ≤ fuel * size) (h1 : o ≤ x) (h2 : x < o + n) :
    ∃ q ∈ cuts size fuel o n, q.1 ≤ x ∧ x < q.1 + q.2 := by
  induction fuel generalizing o n with
  | zero => omega
  | succ fuel ih =>
    rw [cuts, if_neg (by omega)]
    have ho : o % size < size := Nat.mod_lt _ hs
    by_cases hx : x < o + min n (size - o % size)
    · exact ⟨_, List.mem_cons_self, h1, hx⟩
    · have hk : min n (size - o % size) = size - o % size := by omega
      have hm : (o + (size - o % size)) % size = 0 := by
        have hd := Nat.div_add_mod o size
        have he : o + (size - o % size) = size * (o / size + 1) := by rw [Nat.mul_add]; omega
        rw [he, Nat.mul_mod_right]
      have hf' : (o + (size - o % size)) % size + (n - (size - o % size)) ≤ fuel * size := by
        rw [hm]
        have : (fuel + 1) * size = fuel * size + size := Nat.succ_mul ..
        omega
      dsimp only
      rw [hk] at hx ⊢
      obtain ⟨q, hq, hc⟩ := ih hf' (by omega) (by omega)
      exact ⟨q, List.mem_cons_of_mem _ hq, hc⟩

theorem mem_chunked {data : List (Byte × Bool)} {n : Nat} :
    (chunked data n) = (List.range n).map fun i => (data.drop (16 * i)).take 16 := by
  induction n generalizing data with
  | zero => rfl
  | succ n ih =>
    rw [chunked, ih, List.range_succ_eq_map, List.map_cons, List.map_map]
    refine List.cons_eq_cons.mpr ⟨by simp, List.map_congr_left fun i _ => ?_⟩
    simp only [Function.comp_apply, List.drop_drop]
    rw [show 16 + 16 * i = 16 * (i + 1) by omega]

/-- The chunks of a remote write: those with an enabled byte or a poison bit. -/
theorem mem_remoteChunks {a : Nat} {data : List (Byte × Bool)} {pz : List Bool} {p : Nat × List (Byte × Bool) × Bool} :
    p ∈ remoteChunks a data pz ↔ ∃ i, i < (data.length + 15) / 16 ∧
      p = (a / 16 + i, (data.drop (16 * i)).take 16, pz.getD i false) ∧ (p.2.1.any (·.2) || p.2.2) = true := by
  unfold remoteChunks
  rw [List.mem_filter, mem_chunked, List.mem_map]
  constructor
  · rintro ⟨⟨q, hq, rfl⟩, hp⟩
    have hg := List.mem_zipIdx_iff_getElem?.mp hq
    rw [List.getElem?_map, Option.map_eq_some_iff] at hg
    obtain ⟨j, hj, hjq⟩ := hg
    obtain ⟨hlt, he⟩ := List.getElem?_eq_some_iff.mp hj
    rw [List.getElem_range] at he
    rw [List.length_range] at hlt
    subst he
    exact ⟨q.2, hlt, by rw [hjq], hp⟩
  · rintro ⟨i, hi, rfl, hp⟩
    refine ⟨⟨((data.drop (16 * i)).take 16, i), List.mem_zipIdx_iff_getElem?.mpr ?_, rfl⟩, hp⟩
    rw [List.getElem?_map, List.getElem?_range hi]
    rfl

section
variable {a : Nat} {data : List (Byte × Bool)} {pz : List Bool} {p : Nat × List (Byte × Bool) × Bool}
  (h : p ∈ remoteChunks a data pz)
include h

theorem remoteChunks_length : p.2.1.length ≤ 16 := by
  obtain ⟨i, -, rfl, -⟩ := mem_remoteChunks.mp h
  exact List.length_take_le ..

theorem remoteChunks_unique {x : Nat} (hx : p.1 = x / 16) :
    p.2 = ((data.drop (16 * (x / 16 - a / 16))).take 16, pz.getD (x / 16 - a / 16) false) := by
  obtain ⟨i, -, rfl, -⟩ := mem_remoteChunks.mp h
  have hi : i = x / 16 - a / 16 := by
    have hx' : a / 16 + i = x / 16 := hx
    omega
  rw [← hi]

end

/-- The chunks of a write that lie in a request. -/
def chunksIn (cs : List (Nat × List (Byte × Bool) × Bool)) (q : Nat × Nat) : List (Nat × List (Byte × Bool) × Bool) :=
  cs.filter fun p => decide (q.1 ≤ 16 * p.1) && decide (16 * p.1 < q.1 + q.2)

theorem targetBuf_inside {s : State} {c : Option Nat} {cs : List (Nat × List (Byte × Bool) × Bool)} {q : Nat × Nat}
    (h : q.1 + q.2 ≤ s.buf.size) : s.targetBuf c cs q =
      { s with buf := { s.buf with store := writeChunks s.buf.store (chunksIn cs q) } } := by
  unfold State.targetBuf
  dsimp only
  split
  next he =>
    have hc : chunksIn cs q = [] := List.isEmpty_iff.mp he
    rw [hc]
    rfl
  next => rw [if_neg (Nat.not_lt.mpr h)]; rfl

theorem foldl_targetBuf {c : Option Nat} {cs : List (Nat × List (Byte × Bool) × Bool)} (rs : List (Nat × Nat)) (s : State)
    (h : ∀ q ∈ rs, q.1 + q.2 ≤ s.buf.size) : rs.foldl (fun s q => s.targetBuf c cs q) s =
      { s with buf := { s.buf with store := writeChunks s.buf.store (rs.flatMap (chunksIn cs)) } } := by
  induction rs generalizing s with
  | nil => rfl
  | cons q rs ih =>
    rw [List.foldl_cons, targetBuf_inside (h q List.mem_cons_self)]
    refine (ih _ ?_).trans ?_
    · exact fun r hr => h r (List.mem_cons_of_mem q hr)
    rw [List.flatMap_cons, writeChunks, writeChunks, writeChunks, List.foldl_append]

theorem chunkByte_slice {a x : Nat} {data : List (Byte × Bool)} {old : Byte} (h16 : a % 16 = 0) (hx : a ≤ x) :
    chunkByte ((data.drop (16 * (x / 16 - a / 16))).take 16) x old =
      match data[x - a]? with | some (b, true) => b | _ => old := by
  unfold chunkByte
  rw [List.getElem?_take_of_lt (Nat.mod_lt _ (by decide)), List.getElem?_drop,
    show 16 * (x / 16 - a / 16) + x % 16 = x - a by omega]

/-- R375: what an accepted write into buffer memory, at an aligned address within it, leaves there. -/
theorem targetWrite_buf {s : State} {a : Nat} {data : List (Byte × Bool)} {pz : List Bool} {c : Option Nat} (h16 : a % 16 = 0)
    (hs : a + data.length ≤ s.buf.size) :
    ∃ m : Store, s.targetWrite .buf a data pz c = { s with buf := { s.buf with store := m } } ∧
      (∀ i b en, i < data.length → data.getD i (0, false) = (b, en) →
        m.byte (a + i) = if en then b else s.buf.store.byte (a + i)) ∧
      (∀ x, x < a ∨ a + data.length ≤ x → m.byte x = s.buf.store.byte x) := by
  have hreq : ∀ q ∈ bufRequests (data.length / 512 + 2) a data.length, q.1 + q.2 ≤ s.buf.size := fun q hq =>
    Nat.le_trans (cuts_bounds hq).2 hs
  obtain ⟨L, hL⟩ : ∃ L, L = (bufRequests (data.length / 512 + 2) a data.length).flatMap (chunksIn (remoteChunks a data pz)) :=
    ⟨_, rfl⟩
  have hmem : ∀ p ∈ L, p ∈ remoteChunks a data pz := fun p hp => by
    rw [hL, List.mem_flatMap] at hp
    obtain ⟨q, -, hq⟩ := hp
    exact (List.mem_filter.mp hq).1
  have hbyte (x : Nat) := byte_writeChunks (x := x) (fun p hp => remoteChunks_length (hmem p hp)) s.buf.store
    fun p hp hx => remoteChunks_unique (hmem p hp) hx
  refine ⟨writeChunks s.buf.store L, ?_, fun i b en hi hd => ?_, fun x hx => ?_⟩
  · rw [hL]
    exact foldl_targetBuf _ s hreq
  · have hget : data[i]? = some (b, en) := by
      rw [List.getElem?_eq_getElem hi, ← hd, getD_getElem _ _ hi]
    rw [hbyte]
    split
    next h => rw [chunkByte_slice h16 (Nat.le_add_right a i), Nat.add_sub_cancel_left, hget]; cases en <;> rfl
    next h =>
      cases en with
      | false => rfl
      | true =>
        refine absurd ?_ h
        obtain ⟨q, hq, hq1, hq2⟩ := cuts_covers (size := 512) (fuel := data.length / 512 + 2) (o := a) (n := data.length)
          (x := 16 * ((a + i) / 16)) (by decide) (by omega) (by omega) (by omega)
        have hin : (a / 16 + i / 16, (data.drop (16 * (i / 16))).take 16, pz.getD (i / 16) false) ∈ remoteChunks a data pz := by
          refine mem_remoteChunks.mpr ⟨i / 16, by omega, rfl, Bool.or_eq_true_iff.mpr (.inl (List.any_eq_true.mpr ⟨(b, true), ?_, rfl⟩))⟩
          refine List.mem_of_getElem? (i := i % 16) ?_
          rw [List.getElem?_take_of_lt (Nat.mod_lt _ (by decide)), List.getElem?_drop, show 16 * (i / 16) + i % 16 = i by omega, hget]
        refine ⟨_, hL ▸ List.mem_flatMap.mpr ⟨q, hq, List.mem_filter.mpr ⟨hin, ?_⟩⟩, by dsimp only; omega⟩
        simp only [Bool.and_eq_true, decide_eq_true_eq]
        omega
  · rw [hbyte]
    split
    next h =>
      obtain ⟨p, hp, hpx⟩ := h
      obtain ⟨j, -, rfl, -⟩ := mem_remoteChunks.mp (hmem p hp)
      have hax : a ≤ x := by
        have hpx' : a / 16 + j = x / 16 := hpx
        omega
      rw [chunkByte_slice h16 hax, List.getElem?_eq_none (by omega)]
    next => rfl

/-! ### The answer of a remote write (R375, R378) -/

section
variable {s : State} {w : Nat} {gen : BitVec 8} {off : Nat} {data : List (Byte × Bool)}

/-- R375: a window that takes remote writes. -/
def WindowThere (s : State) (w : Nat) : Prop :=
  w < 1024 ∧ s.wEn w = true ∧ (s.window w).st = .opened ∧ s.power.pfDone = false

/-- R375: the bytes that a remote write enables lie within the window. -/
def InsideWindow (s : State) (w off : Nat) (data : List (Byte × Bool)) : Prop :=
  ∀ i, i < data.length → (data.getD i (0, false)).2 = true → 16 * off + i < (s.window w).bytes

theorem windowCheck_closed (h : ¬ WindowThere s w) : s.windowCheck w gen off data = 1 := by
  refine if_pos (Classical.byContradiction fun hn => h ?_)
  simp only [not_or, Nat.not_le, Bool.not_eq_true', Bool.not_eq_false, ne_eq, Decidable.not_not, Bool.not_eq_true] at hn
  exact ⟨hn.1, hn.2.1, hn.2.2.1, hn.2.2.2⟩

section
variable (h : WindowThere s w)
include h

theorem windowCheck_open : s.windowCheck w gen off data = if gen ≠ (s.window w).gen then 2
    else if (data.zipIdx).any fun p => p.1.2 && decide ((s.window w).bytes ≤ 16 * off + p.2) then 3 else 0 := by
  obtain ⟨h1, h2, h3, h4⟩ := h
  unfold State.windowCheck
  exact if_neg (by simp [h2, h3, h4]; omega)

theorem windowCheck_stale (hg : gen ≠ (s.window w).gen) : s.windowCheck w gen off data = 2 := by
  rw [windowCheck_open h, if_pos hg]

omit h in
theorem any_outside_iff : ((data.zipIdx).any fun p => p.1.2 && decide ((s.window w).bytes ≤ 16 * off + p.2)) = true ↔
    ¬ InsideWindow s w off data := by
  unfold InsideWindow
  rw [List.any_eq_true]
  constructor
  · rintro ⟨⟨d, i⟩, hm, hp⟩ hall
    obtain ⟨hen, hle⟩ := Bool.and_eq_true_iff.mp hp
    have hg := List.mem_zipIdx_iff_getElem?.mp hm
    obtain ⟨hi, he⟩ := List.getElem?_eq_some_iff.mp hg
    refine absurd (hall i hi ?_) (Nat.not_lt.mpr (of_decide_eq_true hle))
    rw [getD_getElem _ _ hi, he]
    exact hen
  · refine fun hn => Classical.byContradiction fun hx => hn fun i hi hen => Nat.lt_of_not_le fun hle => hx ?_
    rw [getD_getElem _ _ hi] at hen
    exact ⟨(data[i], i), List.mem_zipIdx_iff_getElem?.mpr (List.getElem?_eq_getElem hi),
      Bool.and_eq_true_iff.mpr ⟨hen, decide_eq_true hle⟩⟩

theorem windowCheck_bound (hg : gen = (s.window w).gen) (hi : ¬ InsideWindow s w off data) : s.windowCheck w gen off data = 3 := by
  rw [windowCheck_open h, if_neg (Decidable.not_not.mpr hg), if_pos (any_outside_iff.mpr hi)]

theorem windowCheck_accepts (hg : gen = (s.window w).gen) (hi : InsideWindow s w off data) : s.windowCheck w gen off data = 0 := by
  rw [windowCheck_open h, if_neg (Decidable.not_not.mpr hg), if_neg fun hx => any_outside_iff.mp hx hi]

end

end

section
variable {s : State} {w off : Nat} {gen : BitVec 8} {data : List (Byte × Bool)} {pz : List Bool} {tag : BitVec 16}

theorem acceptWrite_count : ((s.acceptWrite w off data pz).window w).count = (s.window w).count + enabledChunks data := by
  unfold State.acceptWrite
  extract_lets v s1 n full s2
  have h2 : (s2.window w).count = n := congrArg Window.count (window_setWindow _)
  split
  · obtain ⟨_, _, _, _, _, _, _, _, _, he⟩ := windowEvent_accessed s2 w
    rw [he]
    exact h2
  · exact h2

theorem acceptWrite_buf {a : Nat} (ht : (s.window w).target = some (.buf, a)) :
    (s.acceptWrite w off data pz).buf = (s.targetWrite .buf (a + 16 * off) data pz (some (s.wOwner w))).buf := by
  unfold State.acceptWrite
  extract_lets v s1 n full s2
  have h1 : s1 = s.targetWrite .buf (a + 16 * off) data pz (some (s.wOwner w)) := by
    unfold s1 v
    rw [ht]
  have h2 : s2.buf = s1.buf := rfl
  rw [← h1, ← h2]
  split
  · obtain ⟨_, _, _, _, _, _, _, _, _, he⟩ := windowEvent_accessed s2 w
    rw [he]
  · rfl

theorem windowWrite_accepted (h : s.windowCheck w gen off data = 0) : s.windowWrite w gen off data pz tag =
    let t := s.acceptWrite w off data pz
    { t with ports := { t.ports with wi := some (tag, BitVec.ofNat 2 (s.windowCheck w gen off data)) } } := by
  unfold State.windowWrite
  dsimp only
  rw [if_pos h]

theorem windowWrite_outside (h : s.windowCheck w gen off data ≠ 0) (hw : 1024 ≤ w) : s.windowWrite w gen off data pz tag =
    { s with ports := { s.ports with wi := some (tag, BitVec.ofNat 2 (s.windowCheck w gen off data)) } } := by
  unfold State.windowWrite
  dsimp only
  rw [if_neg h, if_pos hw]

theorem windowWrite_rejected (h : s.windowCheck w gen off data ≠ 0) (hw : w < 1024) : s.windowWrite w gen off data pz tag =
    let t := (s.modWindow w fun v => { v with evRejected := true }).windowEvent w
    { t with ports := { t.ports with wi := some (tag, BitVec.ofNat 2 (s.windowCheck w gen off data)) } } := by
  unfold State.windowWrite
  dsimp only
  rw [if_neg h, if_neg (by omega)]

theorem windowWrite_refused (h : s.windowCheck w gen off data ≠ 0) : (s.windowWrite w gen off data pz tag).mem = s.mem ∧
    (s.windowWrite w gen off data pz tag).buf = s.buf ∧
    (w < 1024 → (s.windowWrite w gen off data pz tag).window w = { s.window w with evRejected := true }) := by
  by_cases hw : w < 1024
  · obtain ⟨_, _, _, _, _, _, _, _, _, he⟩ :=
      windowEvent_accessed (s.modWindow w fun v => { v with evRejected := true }) w
    rw [windowWrite_rejected h hw, he]
    exact ⟨rfl, rfl, fun _ => window_setWindow _⟩
  · rw [windowWrite_outside h (by omega)]
    exact ⟨rfl, rfl, fun h => absurd h hw⟩

end

/-- Settles O37: the owner's commands by the state of the window, the grant, the close, and the answer of a remote write, whose
chunks each lie in one request. -/
theorem windowCommands : Obligations.WindowCommands := by
  unfold Obligations.WindowCommands
  refine ⟨fun s w hl => ?_, fun s w gen off data pz tag hp => ?_⟩
  · intro v fresh owns closed
    have cmd : ∀ {x : Word} {i : Instr} {r : State}, owns → Machine.exec i s = apWriteCmd .core (0x200018 + 32 * w.toNat) .lo ⟨x, .int⟩ s →
        s.windowCmd w.toNat .lo x = r → Machine.exec i s = .next r := fun {x i r} ho hi hr => by
      rw [exec_windowCmd hi hl ho.1, if_pos ho.2, hr]
    refine ⟨fun ho hc hv hb => ?_, fun ho hc hv pa s2 hx => cmd ho exec_windowOpen ?_, fun ho he => cmd ho exec_windowOpen ?_,
      fun ho he hs => cmd ho exec_windowOpen ?_, fun ho hc hv hb => cmd ho exec_windowOpen ?_,
      fun ho hc hv s2 hx => cmd ho exec_windowOpen ?_, fun hs hg => ?_,
      fun ho hs => ⟨_, cmd ho exec_windowClose (windowCmd_close.trans (closeByOwner_open hs)), rfl⟩,
      fun ho h1 h2 => cmd ho exec_windowClose (windowCmd_close.trans (closeByOwner_other h1 h2)), fun hs => ?_, fun hc ho => ⟨?_, ?_⟩,
      fun cls hc => ⟨exec_windowCmd_regp exec_windowOpen hl hc, exec_windowCmd_regp exec_windowClose hl hc⟩⟩
    · refine ⟨_, cmd ho exec_windowOpen (windowCmd_open.trans (openWindow_rewritten.trans (openWindow_baddr hc.1 hc.2 hv))), ?_⟩
      have hb' : (s.setWindow w.toNat (windowFresh (s.window w.toNat))).cur.baddrOk (s.window w.toNat).addr
          (s.window w.toNat).bytes = true := hb
      dsimp only
      rw [hb', if_neg (by decide)]
      exact ⟨rfl, window_setWindow _⟩
    · have hx' : (s.setWindow w.toNat (windowFresh (s.window w.toNat))).windowXlate (s.window w.toNat).addr
          (s.window w.toNat).bytes = (some pa, s2) := hx
      rw [windowCmd_open, openWindow_rewritten, openWindow_vaddr hc.1 hc.2 hv, hx']
      rfl
    · rw [windowCmd_open, openWindow_rewritten, openWindow_disabled he]
    · rw [windowCmd_open, openWindow_rewritten, openWindow_busy he hs]
    · have hb' : (s.setWindow w.toNat (windowFresh (s.window w.toNat))).cur.baddrOk (s.window w.toNat).addr
          (s.window w.toNat).bytes = false := hb
      rw [windowCmd_open, openWindow_rewritten, openWindow_baddr hc.1 hc.2 hv]
      exact if_pos (by rw [hb']; rfl)
    · have hx' : (s.setWindow w.toNat (windowFresh (s.window w.toNat))).windowXlate (s.window w.toNat).addr
          (s.window w.toNat).bytes = (none, s2) := hx
      rw [windowCmd_open, openWindow_rewritten, openWindow_vaddr hc.1 hc.2 hv, hx']
    · exact eventStep_runs (f := fun s => (s.modWindow w.toNat fun v => { v with st := .opened, evOpened := true }).windowEvent w.toNat)
        hl (Bool.and_eq_true_iff.mpr ⟨decide_eq_true hs, hg⟩)
    · obtain ⟨hw, hb⟩ := finishClose_parts (s := s) (n := w.toNat)
      refine ⟨_, eventStep_runs (f := fun s => s.finishClose w.toNat) hl (decide_eq_true hs), hw, fun off ho => ?_, finishClose_full,
        fun he hlt hf => ⟨_, finishClose_short he hlt hf, rfl, rfl, ?_⟩⟩
      · have ho' : (s.window w.toNat).target = some (.buf, off) := ho
        rw [hb, targetReleased, ho']
      · exact BitVec.eq_of_toNat_eq (by simp [shortRecord])
    · rw [exec_windowCmd exec_windowOpen hl hc, if_neg ho]
    · rw [exec_windowCmd exec_windowClose hl hc, if_neg ho]
  · intro v code there inside
    refine ⟨_, congrArg Host.Outcome.next (if_neg (by rw [hp]; decide)), rfl, windowCheck_closed, windowCheck_stale, windowCheck_bound, windowCheck_accepts, fun h0 => ?_,
      fun a h0 ht h16 hs => ?_, fun h0 => ?_, fun h0 hw => ?_⟩
    · rw [windowWrite_accepted h0]
      exact ⟨rfl, acceptWrite_count⟩
    · obtain ⟨m, hm, hin, hout⟩ := targetWrite_buf (s := s) (a := a + 16 * off.toNat) (data := data) (pz := pz)
        (c := some (s.wOwner w.toNat)) (by omega) (by omega)
      have hbuf : (s.windowWrite w.toNat gen off.toNat data pz tag).buf = { s.buf with store := m } := by
        rw [windowWrite_accepted h0]
        exact (acceptWrite_buf ht).trans (by rw [hm])
      rw [hbuf]
      exact ⟨hin, hout⟩
    · exact ⟨(windowWrite_refused h0).1, (windowWrite_refused h0).2.1⟩
    · exact (windowWrite_refused h0).2.2 hw

end Sys2Proof.Machine
end

section
/-! PROOFS. The firmware's service of mailbox commands: readings, contexts, runs, persistent state, the gate and licensees
(R437 to R447, R517). -/

namespace Sys2Proof.Machine

section
variable {s : State} {m : BitVec 5} {op c : Nat}

theorem mbRow_served {f : State → State} (h : Served s m op) : mbRow m.toNat op f s = .next (f s) := eventStep_runs h.1 h.2

theorem onCtx_served {f : Nat → State → State} (h : ServedFor s m op c) :
    mbRow m.toNat op (fun s => s.onCtx m.toNat f) s = .next (f c s) := by
  obtain ⟨hs, hc, hlt⟩ := h
  rw [mbRow_served hs, State.onCtx, hc, if_neg (Nat.not_lt.mpr hlt)]

end

/-! ### Readings (R437, R440, R444, R445, R517) -/

section
variable {s : State} {m : BitVec 5}

theorem extRunning_eq (s : State) : s.extRunning =
    ((s.gthread 3).run && (s.gthread 3).ext && s.groom.extOk && s.groom.extEn && !s.groom.extHalted) := by
  show (s.groom.extOk && s.groom.extEn && !s.groom.extHalted && (s.gthread 3).run && (s.gthread 3).ext) = _
  cases (s.gthread 3).run <;> cases (s.gthread 3).ext <;> simp

theorem leBytes_toNat (b : Bool) : leBytes 1 b.toNat = leBytes 1 (if b then 1 else 0) := by cases b <;> rfl

theorem infoPayload_eq (s : State) : s.infoPayload = leBytes 8 s.brInfo.toNat ++ leBytes 8 s.blkId.toNat ++
    leBytes 2 s.bridle.minor.toNat ++ leBytes 2 0 ++ leBytes 4 s.bridle.svn.toNat ++ leBytes 4 ((s.tack.read 2).toNat % 2 ^ 32) ++
    leBytes 1 (if ((s.gthread 3).run && (s.gthread 3).ext && s.groom.extOk && s.groom.extEn && !s.groom.extHalted) = true
      then 1 else 0) ++ leBytes 3 0 := by
  rw [← leBytes_toNat, ← extRunning_eq]
  rfl

theorem runWord_code (s : State) (c : Nat) : (s.runWord c).toNat % 8 = (s.ctx c).runSt.code := by
  have hc : (s.ctx c).runSt.code < 8 := by cases (s.ctx c).runSt <;> decide
  unfold State.runWord Word.ofNat
  rw [BitVec.toNat_ofNat]
  omega

theorem queryPayload_eq (s : State) (c : Nat) : s.queryPayload c =
    leBytes 1 (match (s.ctx c).mode with | .free => 0 | .ready => 1 | .running => 2 | .waiting => 3 | .stopped => 4) ++
    leBytes 1 (if (s.ctx c).stall.isSome then 1 else 0) ++ leBytes 1 ((s.ctx c).stall.getD 0) ++ leBytes 1 (s.ctx c).prio.toNat ++
    leBytes 1 (s.ctx c).pend.toNat ++ leBytes 1 (match s.sadOf c with | none => 0 | some i => 1 + 2 * i) ++
    leBytes 1 ((s.runWord c).toNat % 8) ++ leBytes 1 (if (s.ctx c).lock then 1 else 0) ++
    leBytes 2 (if (s.ctx c).mode = .stopped then (s.ctx c).stopCause.toNat else 0) := by
  have hm : (match (s.ctx c).mode with | .free => 0 | .ready => 1 | .running => 2 | .waiting => 3 | .stopped => 4) =
      (s.ctx c).mode.code := by cases (s.ctx c).mode <;> rfl
  have hs : (match s.sadOf c with | none => 0 | some i => 1 + 2 * i) = (s.sadOf c).isSome.toNat + 2 * (s.sadOf c).getD 0 := by
    cases s.sadOf c <;> rfl
  rw [hm, hs, ← leBytes_toNat, ← leBytes_toNat, runWord_code]
  rfl

theorem inforce_toNat (s : State) : s.inforce.toNat = s.caches.off.toNat := by
  rw [State.inforce, BitVec.toNat_setWidth]
  exact Nat.mod_eq_of_lt (Nat.lt_trans s.caches.off.isLt (by decide))

end

/-! ### CFG_READ (R437) -/

/-- R437: what CFG_READ of mailbox `m` does. -/
def cfgReadBody (m : Nat) (s : State) : State :=
  let b := s.mbox m
  match itemInfo (b.pay 0 2) (b.pay 2 2) with
  | .error false => s.mbFail m mbBAD_FIELD 0
  | .error true => s.mbFail m mbBAD_FIELD 2
  | .ok _ =>
    let act := s.cfgAct (b.pay 0 2) (b.pay 2 2)
    let inSet := b.set.find? fun x => x.item = b.pay 0 2 && x.index = b.pay 2 2
    s.mbDone m mbOK 0 (leBytes 8 act.toNat ++ leBytes 8 ((inSet.map (·.value)).getD act).toNat ++ leBytes 1 inSet.isSome.toNat)

section
variable {s : State} {m : Nat}

theorem cfgReadBody_known {f : Word × Nat × Bool} (h : itemInfo ((s.mbox m).pay 0 2) ((s.mbox m).pay 2 2) = .ok f) :
    cfgReadBody m s =
      let act := s.cfgAct ((s.mbox m).pay 0 2) ((s.mbox m).pay 2 2)
      let inSet := (s.mbox m).set.find? fun x => x.item = (s.mbox m).pay 0 2 && x.index = (s.mbox m).pay 2 2
      s.mbDone m mbOK 0 (leBytes 8 act.toNat ++ leBytes 8 ((inSet.map (·.value)).getD act).toNat ++ leBytes 1 inSet.isSome.toNat) := by
  unfold cfgReadBody
  dsimp only
  rw [h]

theorem cfgReadBody_item (h : itemInfo ((s.mbox m).pay 0 2) ((s.mbox m).pay 2 2) = .error false) :
    cfgReadBody m s = s.mbDone m mbBAD_FIELD 0 [] := by
  unfold cfgReadBody
  dsimp only
  rw [h]
  rfl

theorem cfgReadBody_index (h : itemInfo ((s.mbox m).pay 0 2) ((s.mbox m).pay 2 2) = .error true) :
    cfgReadBody m s = s.mbDone m mbBAD_FIELD 2 [] := by
  unfold cfgReadBody
  dsimp only
  rw [h]
  rfl

end

/-- Settles O42: each reading answers its payload. -/
theorem readingCommands : Obligations.ReadingCommands := by
  unfold Obligations.ReadingCommands
  intro s m c b answers h ext item index active held e
  refine ⟨fun hs => ?_, fun f it hs hi hh => ?_, fun f hs hi hh => ?_, fun hs hi => ?_, fun hs hi => ?_, fun hs => ?_, fun hs => ?_,
    fun hs hn => ?_, fun hs => ?_⟩
  · refine (mbRow_served (f := fun s => s.mbDone m.toNat mbOK 0 s.infoPayload) hs).trans ?_
    rw [infoPayload_eq]
    rfl
  · refine (mbRow_served (f := cfgReadBody m.toNat) hs).trans (congrArg _ ((cfgReadBody_known hi).trans ?_))
    rw [show (s.mbox m.toNat).set.find? _ = some it from hh]
    rfl
  · refine (mbRow_served (f := cfgReadBody m.toNat) hs).trans (congrArg _ ((cfgReadBody_known hi).trans ?_))
    rw [show (s.mbox m.toNat).set.find? _ = none from hh]
    rfl
  · exact (mbRow_served (f := cfgReadBody m.toNat) hs).trans (congrArg _ (cfgReadBody_item hi))
  · exact (mbRow_served (f := cfgReadBody m.toNat) hs).trans (congrArg _ (cfgReadBody_index hi))
  · refine (onCtx_served (f := fun c s => s.mbDone m.toNat mbOK 0 (s.queryPayload c)) hs).trans ?_
    rw [queryPayload_eq]
    rfl
  · refine (mbRow_served (f := fun s => s.mbDone m.toNat mbOK 0 (leBytes 8 (s.tack.read 1).toNat ++ leBytes 8 s.inforce.toNat))
      hs).trans ?_
    rw [inforce_toNat]
    rfl
  · exact (mbRow_served (f := fun s => if 511 < (s.mbox m.toNat).pay 0 2 then s.mbFail m.toNat mbBAD_FIELD 0
      else s.mbDone m.toNat mbOK 0 (leBytes 8 (s.tack.read ((s.mbox m.toNat).pay 0 2)).toNat)) hs).trans
        (congrArg Host.Outcome.next (if_neg (Nat.not_lt.mpr hn)))
  · exact mbRow_served (f := fun s => (s.modMbox m.toNat fun b => { b with set := [] }).mbDone m.toNat mbOK 0 []) hs

end Sys2Proof.Machine
end

section
/-! PROOFS. The context commands (R438 to R442). -/

namespace Sys2Proof.Machine

/-! ### What a stop leaves (R282) -/

section
variable (s : State)

theorem abandonOf_platform (c : Nat) (result : BitVec 8) : PlatformSame s (s.abandonOf c result) := by
  unfold State.abandonOf
  split
  · exact abandonRun_platform ..
  · exact endParked_platform ..

theorem dropRanges_platform (c : Nat) : PlatformSame s (s.dropRanges c) := by
  unfold State.dropRanges
  refine PlatformSame.after (modCtx_platform ?_) ⟨rfl, rfl, rfl, rfl, rfl, rfl, rfl, rfl, .of_ctxs rfl⟩
  exact fun e he => ⟨he, rfl⟩

theorem closeOwned_platform (c : Nat) : PlatformSame s (s.closeOwned c) :=
  foldl_platform (fun s (p : Nat × Window) => closeWindow_platform s p.1 true) _ s

/-- R282: what a stop does once the context is STOPPED. -/
def stopItemsOf (c : Nat) (s : State) : State :=
  let s6 := ((s.abandonOf c 0x0B).failInFlight (fun h => h = c) 0x8002).2
  (((s6.dropRanges c).cancelStreams fun d => d = c).closeOwned c).trigger

theorem stopItemsOf_platform (c : Nat) : PlatformSame s (stopItemsOf c s) := by
  have h := (abandonOf_platform s c 0x0B).trans ((failInFlight_platform _ (fun h => h = c) 0x8002).trans
    ((dropRanges_platform _ c).trans ((cancelStreams_platform _ fun d => d = c).trans (closeOwned_platform _ c))))
  exact h.trans ⟨rfl, rfl, rfl, rfl, rfl, rfl, rfl, rfl, .of_ctxs rfl⟩

theorem stopContext_stopped (c cause : Nat) : ((s.stopContext c cause).2.ctx c).mode = .stopped ∧
    ((s.stopContext c cause).2.ctx c).stopCause = BitVec.ofNat 16 cause := by
  obtain ⟨u, hu⟩ : ∃ u : State, u = ((if s.core.disp = .ctx c then { s with core := { s.core with disp := .idle } } else s).abandonWait
      c).freeStallOf c := ⟨_, rfl⟩
  obtain ⟨v, hv⟩ : ∃ v : State, v = u.modCtx c fun e =>
    { e with mode := .stopped, pend := 0, stopCause := BitVec.ofNat 16 cause, inWait := false } := ⟨_, rfl⟩
  obtain ⟨w, hw⟩ : ∃ w : State, w = { v with core := { v.core with
      switchTo := if v.core.switchTo = some c then none else v.core.switchTo,
      fills := v.core.fills.filter fun f => f.1 ≠ c,
      reserve := { v.core.reserve with requests := v.core.reserve.requests.filter (· ≠ c) } } } := ⟨_, rfl⟩
  have he : (s.stopContext c cause).2 = stopItemsOf c w := by
    rw [hw, hv, hu]
    rfl
  have hm : (w.ctx c).mode = .stopped ∧ (w.ctx c).stopCause = BitVec.ofNat 16 cause := by
    have hx : w.ctx c = v.ctx c := by rw [hw]; rfl
    rw [hx, hv, State.modCtx, State.ctx_setCtx]
    exact ⟨rfl, rfl⟩
  have hs := (stopItemsOf_platform w c).stops c hm.1
  rw [he]
  exact ⟨hs.1, hs.2.trans hm.2⟩

end

/-! ### The commands -/

section
variable {s : State} {m : BitVec 5} {c : Nat}

/-- R439: what CTX_STOP of context `c` does when it is taken up. -/
def stopBody (m c : Nat) (s : State) : State :=
  match (s.mbox m).waitFor with
  | .fresh => s.ctxStop m c
  | .cancelling => s.ctxStopEnd m c ((s.mbox m).resp.leAt 0x10 1) ((s.mbox m).resp.leAt 0x14 4)
  | _ => s

/-- R439: what the end of a grace does. -/
def graceBody (m c : Nat) (s : State) : State :=
  let b := s.mbox m
  let waited := (s.now - b.since) / 2800
  if b.waitFor ≠ .grace then s
  else if b.abortReq then s.mbFail m mbABORTED 0
  else if (s.ctx c).mode = .stopped then s.ctxStopEnd m c 3 waited
  else if s.graceOver c then s.ctxStopNow m c 1 waited
  else if b.since + usec (b.pay 4 4) ≤ s.now then s.ctxStopNow m c 2 waited
  else s

theorem exec_ctxStop (h : ServedFor s m 0x21 c) : Machine.exec (.ctxStop m) s = .next (stopBody m.toNat c s) :=
  onCtx_served (f := fun c s => stopBody m.toNat c s) h

theorem exec_ctxStopGraceEnd (h : ServedFor s m 0x21 c) : Machine.exec (.ctxStopGraceEnd m) s = .next (graceBody m.toNat c s) :=
  onCtx_served (f := fun c s => graceBody m.toNat c s) h

section
variable {m : Nat}

theorem stopBody_fresh (h : (s.mbox m).waitFor = .fresh) : stopBody m c s = s.ctxStop m c := by
  unfold stopBody
  rw [h]

theorem stopBody_cancelling (h : (s.mbox m).waitFor = .cancelling) : stopBody m c s =
    s.ctxStopEnd m c ((s.mbox m).resp.leAt 0x10 1) ((s.mbox m).resp.leAt 0x14 4) := by
  unfold stopBody
  rw [h]

theorem ctxStopEnd_done {how waited : Nat} (h : s.itemsDone c = true) :
    s.ctxStopEnd m c how waited = (s.pendGroom 49).mbDone m 0 0 (stopPayload how waited) := if_pos h

theorem ctxStopEnd_waits {how waited : Nat} (h : s.itemsDone c = false) :
    ((s.ctxStopEnd m c how waited).mbox m).waitFor = .cancelling := by
  have he : s.ctxStopEnd m c how waited = _ := if_neg (by rw [h]; decide)
  rw [he]
  exact congrArg Mailbox.waitFor (State.mbox_setMbox ..)

section
variable (h2 : (s.mbox m).pay 2 2 = 0) (h4 : (s.mbox m).pay 4 4 ≤ 1000000)
include h2 h4

theorem ctxStop_stopped (hs : (s.ctx c).mode = .stopped) : s.ctxStop m c = s.ctxStopEnd m c 3 0 := by
  unfold State.ctxStop
  rw [if_neg (Decidable.not_not.mpr h2), if_neg (Nat.not_lt.mpr h4), hs]

theorem ctxStop_started (hs : (s.ctx c).started = true) : s.ctxStop m c =
    if (s.mbox m).pay 4 4 = 0 then s.ctxStopNow m c 0 0 else (s.raiseAlert c 3).mbWait m .grace := by
  unfold State.ctxStop
  rw [if_neg (Decidable.not_not.mpr h2), if_neg (Nat.not_lt.mpr h4)]
  unfold Ctx.started at hs
  split
  next h => rw [h] at hs; exact absurd hs (by decide)
  next h => rw [h] at hs; exact absurd hs (by decide)
  next => rfl

end

section
variable (hw : (s.mbox m).waitFor = .grace) (ha : (s.mbox m).abortReq = false) (hm : (s.ctx c).mode ≠ .stopped)
include hw ha hm

theorem graceBody_eq : graceBody m c s = if s.graceOver c then s.ctxStopNow m c 1 ((s.now - (s.mbox m).since) / 2800)
    else if (s.mbox m).since + usec ((s.mbox m).pay 4 4) ≤ s.now then s.ctxStopNow m c 2 ((s.now - (s.mbox m).since) / 2800)
    else s := by
  unfold graceBody
  dsimp only
  rw [if_neg (Decidable.not_not.mpr hw), ha, if_neg Bool.false_ne_true, if_neg hm]

end

end

end

/-! ### A start, a removal and an alert -/

section
variable (s : State) (c : Nat)

theorem ctx_wantStall : (s.wantStall c).ctx c = s.ctx c := by
  unfold State.wantStall
  split
  · rfl
  · split
    · rfl
    · split <;> rfl

theorem ctx_startCtx (d : CtxDesc) (lo hi : Nat) : (s.startCtx c d lo hi).ctx c = d.entry lo hi := by
  unfold State.startCtx
  have ht (u : State) : u.trigger.ctx c = u.ctx c := rfl
  dsimp only
  rw [ht]
  split
  · rw [ctx_wantStall]
    exact Tbl.get_set_same ..
  · exact Tbl.get_set_same ..

theorem ctx_removeCtx : (s.removeCtx c).ctx c = Ctx.free := Tbl.get_del_same ..

theorem alert_raiseEvent (k : Nat) : ((s.raiseEvent c k).ctx c).alert = (s.ctx c).alert := by
  unfold State.raiseEvent
  dsimp only
  split
  · have ht (u : State) : u.trigger.ctx c = u.ctx c := rfl
    rw [ht, State.ctx_setCtx]
    split <;> rfl
  · rfl

theorem alert_raiseAlert {b : Nat} (h : (s.ctx c).started = true) :
    ((s.raiseAlert c b).ctx c).alert = (s.ctx c).alert.putBit b true := by
  rw [State.raiseAlert, if_pos h, alert_raiseEvent, State.modCtx, State.ctx_setCtx]

theorem alert_postAlert {code : Nat} (h : (s.ctx c).started = true) :
    ((s.postAlert c code).ctx c).alert = ((s.ctx c).alert.putBits 31 16 code).putBit 0 true := by
  have hm : ((s.modCtx c fun e => { e with alert := e.alert.putBits 31 16 code }).ctx c) =
      { s.ctx c with alert := (s.ctx c).alert.putBits 31 16 code } := State.ctx_setCtx ..
  rw [State.postAlert, if_pos h, alert_raiseAlert _ _ (by rw [hm]; exact h), hm]

theorem alertCode_postAlert {code : Nat} (h : (s.ctx c).started = true) (hc : code < 65536) :
    ((s.postAlert c code).ctx c).alert.bits 31 16 = code := by
  rw [alert_postAlert s c h, Word.putBit, Word.bits_putBits_outside _ _ (by omega),
    Word.bits_putBits_inside _ _ (by omega) (by omega) (by omega)]
  exact Nat.mod_eq_of_lt hc

theorem alertPosted_postAlert {code : Nat} (h : (s.ctx c).started = true) :
    ((s.postAlert c code).ctx c).alert.bit 0 = true := by
  rw [alert_postAlert s c h, Word.bit_putBit _ _ (by omega), if_pos rfl]

/-- R438: CTX_START of a FREE context whose unlocked descriptor and save area are there. -/
theorem ctxStart_ok {m lo hi : Nat} {bs : List Byte} {s1 s2 s3 : State} (h1 : s.cfgAct 1 0 ≠ 0) (hf : (s.ctx c).mode = .free)
    (hr : s.unitRead ((s.cfgAct 1 0).toNat + 256 * c) 128 none = (bs, false, s1)) (ho : (⟨bs⟩ : CtxDesc).ok = true)
    (hlk : (⟨bs⟩ : CtxDesc).locked = false) (hlo : saveAreaOf ((⟨bs⟩ : CtxDesc).word 8) s1 = (some lo, s2))
    (hhi : saveAreaOf ((⟨bs⟩ : CtxDesc).word 8 + 256) s2 = (some hi, s3)) :
    s.ctxStart m c = (s3.startCtx c ⟨bs⟩ lo hi).mbDone m mbOK 0 [] := by
  have hn : ¬(s.cfgAct 1 0 = 0 ∨ (s.ctx c).mode ≠ .free) := by
    rw [hf]
    exact fun h => h.elim h1 fun h => h rfl
  unfold State.ctxStart
  rw [if_neg hn, hr]
  dsimp only
  rw [ho, hlk, Bool.not_true, Bool.or_self, if_neg Bool.false_ne_true, Bool.false_and, if_neg Bool.false_ne_true, hlo]
  dsimp only
  rw [hhi]

end

/-! ### The reserve stall (R442) -/

section
variable (s : State)

theorem stall_undispatch (k : Nat) : s.undispatch.stall k = s.stall k := by
  unfold State.undispatch
  split <;> rfl

/-- R442: what RSV_SETUP leaves in the reserve stall when it has been entered. -/
theorem setupReserve_leaves (asid ptbase tvec : Word) : let u := s.setupReserve asid ptbase tvec
    u.core.disp = .reserve ∧ u.core.reserve.setUp = true ∧ (u.stall 31).asid = asid ∧ (u.stall 31).ptbase = ptbase ∧
    (u.stall 31).tvec = tvec ∧ (u.stall 31).pc = tvec ∧ (u.stall 31).cause = 0 ∧ (u.stall 31).status.bit 0 = true ∧
    (u.stall 31).useRoot = ptbase.bits 51 13 := by
  obtain ⟨v, hv⟩ : ∃ v : Stall, v =
      { ((((s.stall 31).setReg 1 (TVal.int 0)).setReg 2 (TVal.int 0)).setReg 3 (TVal.int 0)).setReg 4 (TVal.int 0) with
        asid := asid, ptbase := ptbase, tvec := tvec } := ⟨_, rfl⟩
  obtain ⟨w, hw⟩ : ∃ w : State, w = s.setStall 31 v := ⟨_, rfl⟩
  obtain ⟨x, hx⟩ : ∃ x : State, x = { w with core := { w.core with reserve := { w.core.reserve with
      setUp := true, current := none } } } := ⟨_, rfl⟩
  have he : s.setupReserve asid ptbase tvec = x.enterReserve 0 := by
    rw [hx, hw, hv]
    rfl
  have hs : x.undispatch.stall 31 = v := by
    rw [stall_undispatch, hx]
    refine Eq.trans (b := w.stall 31) rfl ?_
    rw [hw, State.stall_setStall]
  have hu : (x.enterReserve 0).stall 31 =
      ({ v with pc := v.tvec, cause := Word.ofNat 0, tval := 0, status := v.status ||| 1 } : Stall).loadInUse := by
    refine Eq.trans (State.stall_setStall ..) ?_
    rw [hs]
  have hset : (x.enterReserve 0).core.reserve.setUp = true := by
    refine Eq.trans (b := x.core.reserve.setUp) ?_ (by rw [hx])
    unfold State.enterReserve State.undispatch
    dsimp only
    split <;> rfl
  rw [he]
  intro u
  have hb : (v.status ||| 1).bit 0 = true := by simp [Word.bit]
  rw [hu]
  exact ⟨rfl, hset, by rw [hv]; rfl, by rw [hv]; rfl, by rw [hv]; rfl, by rw [hv]; rfl, rfl, hb, by rw [hv]; rfl⟩

end

/-- R442: RSV_SETUP as its body reads, outside the reserve stall. -/
def rsvBody (m : Nat) (s : State) : State :=
  let b := s.mbox m
  match b.rsvFault with
  | some d => s.mbFail m mbBAD_FIELD d
  | none =>
    if s.core.disp = .reserve then (if b.waitFor = .fresh then s.mbWait m .reserve else s)
    else (s.setupReserve (Word.ofNat (b.pay 0 8)) (Word.ofNat (b.pay 8 8)) (Word.ofNat (b.pay 16 8))).mbDone m mbOK 0 []

theorem rsvBody_ok {s : State} {m : Nat} (hr : (s.mbox m).rsvFault = none) (hd : s.core.disp ≠ .reserve) : rsvBody m s =
    (s.setupReserve (Word.ofNat ((s.mbox m).pay 0 8)) (Word.ofNat ((s.mbox m).pay 8 8))
      (Word.ofNat ((s.mbox m).pay 16 8))).mbDone m mbOK 0 [] := by
  unfold rsvBody
  dsimp only
  rw [hr]
  exact if_neg hd

/-- R440: CTX_REMOVE of context `c`. -/
def removeBody (m c : Nat) (s : State) : State :=
  if (s.ctx c).mode ≠ .stopped ∨ s.named c then s.mbFail m mbBAD_STATE 0
  else if !s.itemsDone c || !s.tileIdle (some c) then s
  else (s.removeCtx c).mbDone m mbOK 0 []

theorem removeBody_ok {s : State} {m c : Nat} (hm : (s.ctx c).mode = .stopped) (hn : s.named c = false)
    (hi : s.itemsDone c = true) (ht : s.tileIdle (some c) = true) :
    removeBody m c s = (s.removeCtx c).mbDone m mbOK 0 [] := by
  unfold removeBody
  rw [hn, hi, ht, if_neg (fun h => h.elim (fun h => h hm) Bool.false_ne_true)]
  rfl

/-- R441: ALERT_POST for context `c`. -/
def alertBody (m c : Nat) (s : State) : State :=
  let code := (s.mbox m).pay 2 2
  if 0xFF00 ≤ code ∧ code ≤ 0xFF1F then s.mbFail m mbBAD_FIELD 2
  else if !(s.ctx c).started then s.mbFail m mbBAD_STATE 0
  else (s.postAlert c code).mbDone m mbOK 0 []

theorem alertBody_ok {s : State} {m c : Nat} (hc : ¬(0xFF00 ≤ (s.mbox m).pay 2 2 ∧ (s.mbox m).pay 2 2 ≤ 0xFF1F))
    (hs : (s.ctx c).started = true) :
    alertBody m c s = (s.postAlert c ((s.mbox m).pay 2 2)).mbDone m mbOK 0 [] := by
  unfold alertBody
  dsimp only
  rw [if_neg hc, hs]
  rfl

/-- Settles O44. -/
theorem contextCommands : Obligations.ContextCommands := by
  unfold Obligations.ContextCommands
  intro s s1 s2 s3 m c bs lo hi b
  refine ⟨fun hs h1 hf hr ho hlk hlo hhi => ⟨?_, ctx_startCtx ..⟩, fun hs hw h2 h4 hst => ?_, fun hs hw h2 h4 hle hst => ?_,
    fun hs hw ha hm hg => ?_, fun hs hw ha hm hg ht => ?_, fun hs hw h2 hle hm => ?_,
    fun hs hw hd => ⟨b.resp.leAt 0x10 1, b.resp.leAt 0x14 4, ?_⟩,
    fun how waited => ⟨ctxStopEnd_done, ctxStopEnd_waits, stopContext_stopped s c 0⟩,
    fun hs hm hn hd ht => ⟨?_, ctx_removeCtx ..⟩,
    fun hs hc hst => ⟨?_, alertCode_postAlert s c hst ?_, alertPosted_postAlert s c hst⟩, fun hs hr hd => ?_,
    setupReserve_leaves s⟩
  · exact (onCtx_served (f := fun c s => s.ctxStart m.toNat c) hs).trans
      (congrArg Host.Outcome.next (ctxStart_ok s c h1 hf hr ho hlk hlo hhi))
  · rw [exec_ctxStop hs, stopBody_fresh hw, ctxStop_started h2 (h4 ▸ Nat.zero_le _) hst, if_pos h4]
  · rw [exec_ctxStop hs, stopBody_fresh hw, ctxStop_started h2 hle hst, if_neg h4]
  · rw [exec_ctxStopGraceEnd hs, graceBody_eq hw ha hm, if_pos hg]
  · rw [exec_ctxStopGraceEnd hs, graceBody_eq hw ha hm, hg, if_neg Bool.false_ne_true]
    exact congrArg Host.Outcome.next (if_pos ht)
  · rw [exec_ctxStop hs, stopBody_fresh hw, ctxStop_stopped h2 hle hm]
  · rw [exec_ctxStop hs, stopBody_cancelling hw, ctxStopEnd_done hd]
  · exact (onCtx_served (f := fun c s => removeBody m.toNat c s) hs).trans (congrArg Host.Outcome.next (removeBody_ok hm hn hd ht))
  · exact (onCtx_served (f := fun c s => alertBody m.toNat c s) hs).trans (congrArg Host.Outcome.next (alertBody_ok hc hst))
  · exact leAt_lt _ _ 2
  · exact (mbRow_served (f := rsvBody m.toNat) hs).trans (congrArg Host.Outcome.next (rsvBody_ok hr hd))

end Sys2Proof.Machine
end

section
/-! PROOFS. The run commands (R443). -/

namespace Sys2Proof.Machine

/-! ### The images of the saddles -/

theorem Tbl.find?_set {α : Type} (t : Tbl α) (k : Nat) (v : α) : (t.set k v).find? (fun p => p.1 = k) = some (k, v) := by
  induction t with
  | nil => simp [Tbl.set]
  | cons p t ih =>
    obtain ⟨j, w⟩ := p
    simp only [Tbl.set]
    split
    · simp
    next hkj =>
      split
      · simp
      · rw [List.find?_cons_of_neg (by simpa using Ne.symm hkj), ih]

section
variable {s : State} {c i : Nat}

theorem run_setRun (s : State) (i : Nat) (r : Option Run) : (s.setRun i r).run i = r := by
  unfold State.setRun State.run
  split <;> rfl

/-- The image that another takes the place of, of the same context, leaves its saddle to it. -/
theorem runOf_setRun {r u : Run} (h : s.runOf c = some i) (hr : s.run i = some r) (hu : u.ctx = r.ctx) :
    (s.setRun i (some u)).runOf c = some i := by
  unfold State.runOf at h ⊢
  unfold State.run at hr
  unfold State.setRun
  by_cases hi : i = 0
  · subst hi
    rw [if_pos rfl] at hr ⊢
    rw [hr] at h
    simpa [hu] using h
  · rw [if_neg hi] at hr ⊢
    rw [hr] at h
    simpa [hu] using h

theorem admitted_of_runOf (h : s.runOf c = some i) : s.admitted c = s.run i := by
  unfold State.admitted
  rw [h]

theorem parkedOf_parkRun {r : Run} (hr : s.run i = some r) :
    ∃ p : Run, (s.parkRun i).parkedOf r.ctx = some p ∧ p.phase = .parked ∧ p.pins = [] := by
  obtain ⟨q, hq⟩ : ∃ q : Run, q = if r.phase = .armed then r else r.pause := ⟨_, rfl⟩
  have hc : q.ctx = r.ctx := by
    rw [hq]
    split <;> rfl
  refine ⟨{ q with phase := .parked, pins := [], parkReq := false, pauseReq := false }, ?_, rfl, rfl⟩
  unfold State.parkRun State.parkedOf
  rw [hr]
  dsimp only
  rw [← hq, ← hc, Tbl.find?_set]
  rfl

theorem run_parkRun {r : Run} (hr : s.run i = some r) : (s.parkRun i).run i = none := by
  unfold State.parkRun
  rw [hr]
  exact run_setRun ..

theorem continueRun_run (r : Run) : ∃ u : Run, (s.continueRun i r).run i = some u ∧
    u.phase = (if s.tile.active.toNat = i then RunPhase.running else .preempted) := by
  unfold State.continueRun
  split
  · exact ⟨_, run_setRun .., rfl⟩
  · exact ⟨_, run_setRun .., rfl⟩

end

/-! ### The commands -/

section
variable {s : State} {m c i : Nat} {r : Run}

section
variable (h : s.admitted c = none)
include h

theorem runPause_absent : s.runPause m c = s.mbFail m mbBAD_STATE 0 := by
  unfold State.runPause
  rw [h]

theorem runPark_absent : s.runPark m c = s.mbFail m mbBAD_STATE 0 := by
  unfold State.runPark
  rw [h]

theorem runResume_absent : s.runResume m c = s.mbFail m mbBAD_STATE 0 := by
  unfold State.runResume
  rw [h]

theorem runCancel_absent : s.runCancel m c = if (s.mbox m).waitFor = .cancelling
    then s.mbDone m mbOK 0 (leBytes 1 (s.ctx c).runix.toNat) else s.mbFail m mbBAD_STATE 0 := by
  unfold State.runCancel
  rw [h]
  rfl

end

section
variable (ho : s.runOf c = some i) (hr : s.run i = some r)

section
include hr

theorem askPause_armed (hp : r.phase = .armed) : s.askPause i = s.setRun i (some { r with pauseReq := true }) := by
  unfold State.askPause
  rw [hr]
  dsimp only
  rw [hp]

theorem askPause_running (hp : r.phase = .running) : s.askPause i = s.setRun i (some { r with pauseReq := true }) := by
  unfold State.askPause
  rw [hr]
  dsimp only
  rw [hp]

theorem askPause_preempted (hp : r.phase = .preempted) : s.askPause i = s.setRun i (some { r with holdBack := true }) := by
  unfold State.askPause
  rw [hr]
  dsimp only
  rw [hp]

theorem askPause_paused (hp : r.phase = .paused) : s.askPause i = s := by
  unfold State.askPause
  rw [hr]
  dsimp only
  rw [hp]

end

include ho hr

/-- RUN_PAUSE where the image, asked to pause, is as `u`. -/
theorem runPause_asked {u : Run} (hu : (s.askPause i).run i = some u) : s.runPause m c =
    if u.held then (s.askPause i).mbDone m mbOK 0 u.wherePayload else (s.askPause i).mbWaitOnce m .pausing := by
  unfold State.runPause
  rw [ho, admitted_of_runOf ho, hr]
  dsimp only
  rw [hu]

theorem runPark_asked {u : Run} (hu : (s.askPause i).run i = some u) : s.runPark m c =
    if u.held && ((s.askPause i).sad i).queue.isEmpty then ((s.askPause i).parkRun i).mbDone m mbOK 0 u.wherePayload
    else (s.askPause i).mbWaitOnce m .parking := by
  unfold State.runPark
  rw [ho, admitted_of_runOf ho, hr]
  dsimp only
  rw [hu]

theorem runResume_paused (hp : r.phase = .paused) : s.runResume m c = (s.continueRun i r).resumeDone m c := by
  unfold State.runResume Run.held
  rw [ho, admitted_of_runOf ho, hr]
  dsimp only
  rw [hp]
  rfl

theorem runResume_running (hp : r.phase = .running) : s.runResume m c = s.mbFail m mbBAD_STATE 0 := by
  unfold State.runResume Run.held
  rw [ho, admitted_of_runOf ho, hr]
  dsimp only
  rw [hp]
  rfl

theorem runCancel_eq : s.runCancel m c = if ((s.abandonOf c 0x0B).admitted c).isNone
    then (s.abandonOf c 0x0B).mbDone m mbOK 0 (leBytes 1 ((s.abandonOf c 0x0B).ctx c).runix.toNat)
    else (s.abandonOf c 0x0B).mbWaitOnce m .cancelling := by
  unfold State.runCancel
  rw [admitted_of_runOf ho, hr]
  rfl

theorem abandonOf_running (result : BitVec 8) (hp : r.phase = .running) (ha : r.abandon = none) :
    s.abandonOf c result = s.setRun i (some { r with abandon := some result }) := by
  unfold State.abandonOf State.abandonRun
  rw [ho]
  dsimp only
  rw [hr]
  dsimp only
  rw [hp, ha]
  rfl

theorem runCancel_running (hp : r.phase = .running) (ha : r.abandon = none) :
    s.runCancel m c = (s.setRun i (some { r with abandon := some 0x0B })).mbWaitOnce m .cancelling := by
  have ht : (s.setRun i (some { r with abandon := some 0x0B })).admitted c = some { r with abandon := some 0x0B } := by
    rw [admitted_of_runOf (runOf_setRun (u := { r with abandon := some 0x0B }) ho hr rfl), run_setRun]
  rw [runCancel_eq ho hr, abandonOf_running ho hr _ hp ha, ht]
  rfl

end

end

/-- Settles O45. -/
theorem runCommands : Obligations.RunCommands := by
  unfold Obligations.RunCommands
  refine ⟨fun s m c h => ⟨fun p hp hs => ?_, fun hs hw => ?_, fun hs hw => ?_⟩, fun s m c i r ho _ hr =>
    ⟨fun hs hp => ?_, fun hs hp => ?_, fun hs hp hq => ⟨?_, run_parkRun hr, parkedOf_parkRun hr⟩,
     fun hs hp => ⟨?_, continueRun_run r⟩,
     fun hp => ⟨fun hs => ?_, fun hs => ?_, fun hs => ?_, fun hs ha => ?_⟩, fun hs hp => ?_, fun hs ha => ?_⟩⟩
  · simp only [List.mem_cons, List.not_mem_nil, or_false] at hp
    obtain rfl | rfl | rfl := hp
    · exact (onCtx_served (f := fun c s => s.runPause m.toNat c) hs).trans (congrArg _ (runPause_absent h))
    · exact (onCtx_served (f := fun c s => s.runPark m.toNat c) hs).trans (congrArg _ (runPark_absent h))
    · exact (onCtx_served (f := fun c s => s.runResume m.toNat c) hs).trans (congrArg _ (runResume_absent h))
  · exact (onCtx_served (f := fun c s => s.runCancel m.toNat c) hs).trans
      (congrArg _ ((runCancel_absent h).trans (if_neg hw)))
  · exact (onCtx_served (f := fun c s => s.runCancel m.toNat c) hs).trans
      (congrArg _ ((runCancel_absent h).trans (if_pos hw)))
  · have ha : s.askPause i = s := askPause_paused hr hp
    refine (onCtx_served (f := fun c s => s.runPause m.toNat c) hs).trans (congrArg _ ?_)
    rw [runPause_asked ho hr (ha.symm ▸ hr), ha, Run.held, hp]
    rfl
  · have ha : s.askPause i = s.setRun i (some { r with pauseReq := true }) := askPause_armed hr hp
    refine (onCtx_served (f := fun c s => s.runPause m.toNat c) hs).trans (congrArg _ ?_)
    rw [runPause_asked ho hr (ha ▸ run_setRun ..), ha, Run.held, hp]
    rfl
  · have ha : s.askPause i = s := askPause_paused hr hp
    refine (onCtx_served (f := fun c s => s.runPark m.toNat c) hs).trans (congrArg _ ?_)
    rw [runPark_asked ho hr (ha.symm ▸ hr), ha, Run.held, hp, hq]
    rfl
  · exact (onCtx_served (f := fun c s => s.runResume m.toNat c) hs).trans (congrArg _ (runResume_paused ho hr hp))
  · have ha : s.askPause i = s.setRun i (some { r with pauseReq := true }) := askPause_running hr hp
    refine (onCtx_served (f := fun c s => s.runPause m.toNat c) hs).trans (congrArg _ ?_)
    rw [runPause_asked ho hr (ha ▸ run_setRun ..), ha, Run.held, hp]
    rfl
  · have ha : s.askPause i = s.setRun i (some { r with pauseReq := true }) := askPause_running hr hp
    refine (onCtx_served (f := fun c s => s.runPark m.toNat c) hs).trans (congrArg _ ?_)
    rw [runPark_asked ho hr (ha ▸ run_setRun ..), ha, Run.held, hp]
    rfl
  · exact (onCtx_served (f := fun c s => s.runResume m.toNat c) hs).trans (congrArg _ (runResume_running ho hr hp))
  · exact (onCtx_served (f := fun c s => s.runCancel m.toNat c) hs).trans (congrArg _ (runCancel_running ho hr hp ha))
  · have ha : s.askPause i = s.setRun i (some { r with holdBack := true }) := askPause_preempted hr hp
    refine (onCtx_served (f := fun c s => s.runPause m.toNat c) hs).trans (congrArg _ ?_)
    rw [runPause_asked ho hr (ha ▸ run_setRun ..), ha, Run.held, hp]
    rfl
  · refine (onCtx_served (f := fun c s => s.runCancel m.toNat c) hs).trans (congrArg _ ?_)
    rw [runCancel_eq ho hr, ha]
    rfl

end Sys2Proof.Machine
end

section
/-! PROOFS. The commands of persistent state, of the gate's calibration and of the licensee (R382, R415, R444 to R447). -/

namespace Sys2Proof.Machine

/-! ### Writes of the Tack store (R444, R445) -/

section
variable {s : State} {m : Nat}

theorem mbTack_fresh (n : Nat) (v : Word) (h : (s.mbox m).waitFor = .fresh) :
    s.mbTack m n v = (s.mbWait m .tack).tackWrite n v (.mailbox m) := if_pos h

end

/-! ### The calibration of the gate (R382, R446) -/

section
variable {s : State} {m : Nat}

theorem driveGate_cal (s : State) : s.driveGate.gate.cal = s.gate.cal := by
  unfold State.driveGate
  split <;> rfl

theorem driveGate_rtt (s : State) : s.driveGate.gate.rtt = s.gate.rtt := by
  unfold State.driveGate
  split <;> rfl

theorem driveGate_cfg (s : State) : s.driveGate.cfg = s.cfg := by
  unfold State.driveGate
  split <;> rfl

theorem driveGate_groom (s : State) : s.driveGate.groom = s.groom := by
  unfold State.driveGate
  split <;> rfl

/-- What a gate point keeps: it drives GATE_OUT and begins or ends a calibration. -/
structure GateKeeps (s t : State) : Prop where
  cfg : t.cfg = s.cfg
  groom : t.groom = s.groom
  rtt : t.gate.rtt = s.gate.rtt

theorem driveGate_keeps (s : State) : GateKeeps s s.driveGate := ⟨driveGate_cfg s, driveGate_groom s, driveGate_rtt s⟩

theorem calRaise_keeps (s : State) : GateKeeps s s.calRaise := by
  unfold State.calRaise
  split
  · split <;> exact ⟨rfl, rfl, rfl⟩
  · exact ⟨rfl, rfl, rfl⟩

theorem calBegin_keeps (s : State) : GateKeeps s s.calBegin := by
  obtain ⟨hc, hg, hr⟩ := calRaise_keeps { s with gate := { s.gate with cal := some { left := 16, best := 0, high := false } } }
  exact ⟨hc, hg, hr⟩

theorem afterGate_keeps (s : State) (old : Word) : GateKeeps s (s.afterGate old) := by
  unfold State.afterGate
  split
  · exact calBegin_keeps s
  · split
    · obtain ⟨hc, hg, hr⟩ := driveGate_keeps { s with gate := { s.gate with out := s.gate.out && s.gate.cal.isNone, cal := none } }
      exact ⟨hc, hg, hr⟩
    · exact driveGate_keeps s

/-- R382: a calibration begins with sixteen measurements to go. -/
theorem calBegin_cal (s : State) : ∃ up, s.calBegin.gate.cal = some { left := 16, best := 0, high := up } := by
  unfold State.calBegin State.calRaise
  dsimp only
  split <;> exact ⟨_, rfl⟩

theorem afterGate_begins {old : Word} (h0 : old.bit 20 = false) (h1 : s.gateCfg.bit 20 = true) :
    s.afterGate old = s.calBegin := by
  unfold State.afterGate
  rw [h0, h1]
  rfl

theorem afterGate_ends {old : Word} (h0 : old.bit 20 = true) (h1 : s.gateCfg.bit 20 = false) :
    (s.afterGate old).gate.cal = none := by
  unfold State.afterGate
  rw [h0, h1]
  exact driveGate_cal _

/-- R446: GATE_CFG with CALMODE as committed, before the gate point takes effect. -/
def calModeSet (s : State) (on : Bool) : State :=
  { s with cfg := {
    active := s.cfg.active.set (cfgKey 0x30 0) (s.gateCfg.putBit 20 on),
    staged := s.cfg.staged.set (cfgKey 0x30 0) ((s.cfg.stg 0x30 0).putBit 20 on) } }

theorem gateCfg_calModeSet (s : State) (on : Bool) : (calModeSet s on).gateCfg = s.gateCfg.putBit 20 on := Tbl.get_set_same ..

theorem setCalMode_eq (s : State) (on : Bool) : s.setCalMode on = ((calModeSet s on).afterGate s.gateCfg).pendGroom 48 := rfl

theorem gateCfg_setCalMode (s : State) (on : Bool) : (s.setCalMode on).gateCfg = s.gateCfg.putBit 20 on := by
  rw [← gateCfg_calModeSet]
  exact congrArg (fun c => Cfg.act c 0x30 0) (afterGate_keeps (calModeSet s on) s.gateCfg).cfg

theorem ipend_setCalMode (s : State) (on : Bool) : (s.setCalMode on).groom.ipend = s.groom.ipend.putBit 48 true :=
  congrArg (fun g : Groom => g.ipend.putBit 48 true) (afterGate_keeps (calModeSet s on) s.gateCfg).groom

theorem rtt_setCalMode (s : State) (on : Bool) : (s.setCalMode on).gate.rtt = s.gate.rtt :=
  (afterGate_keeps (calModeSet s on) s.gateCfg).rtt

theorem setCalMode_begins (h : s.gateCfg.bit 20 = false) :
    ∃ up, (s.setCalMode true).gate.cal = some { left := 16, best := 0, high := up } := by
  have hb : (calModeSet s true).gateCfg.bit 20 = true := by
    rw [gateCfg_calModeSet, Word.bit_putBit _ _ (by omega), if_pos rfl]
  rw [setCalMode_eq, afterGate_begins h hb]
  exact calBegin_cal _

theorem setCalMode_ends (h : s.gateCfg.bit 20 = true) : (s.setCalMode false).gate.cal = none := by
  have hb : (calModeSet s false).gateCfg.bit 20 = false := by
    rw [gateCfg_calModeSet, Word.bit_putBit _ _ (by omega), if_pos rfl]
  rw [setCalMode_eq]
  exact afterGate_ends h hb

theorem gateCal_parts (hw : (s.mbox m).waitFor = .fresh) (hp : s.gParts ≠ 0) : s.gateCal m = s.mbFail m mbBAD_STATE 0 := by
  unfold State.gateCal
  dsimp only
  rw [if_pos hw, if_pos hp]

theorem gateCal_begins (hw : (s.mbox m).waitFor = .fresh) (hp : s.gParts = 0) (ha : (s.mbox m).abortReq = false)
    (hg : s.calGate = true) : s.gateCal m = (s.setCalMode true).mbWait m .calibrating := by
  unfold State.gateCal
  dsimp only
  rw [if_pos hw, if_neg (Decidable.not_not.mpr hp), ha, if_neg Bool.false_ne_true, if_pos hg]

theorem gateCal_over (hw : (s.mbox m).waitFor = .calibrating) (he : ((s.mbox m).abortReq || s.calEnded) = true)
    (hg : s.calGate = true) : s.gateCal m = if (s.mbox m).abortReq then (s.setCalMode false).mbFail m mbABORTED 0
      else (s.setCalMode false).mbDone m mbOK 0 (leBytes 2 s.gate.rtt.toNat) := by
  unfold State.gateCal
  dsimp only
  rw [if_neg (by rw [hw]; decide), he, hg, Bool.and_self, if_pos rfl, rtt_setCalMode]

end

/-! ### Licensee commands (R415, R447) -/

section
variable {s : State}

theorem gRegion_dram {a : Nat} (h1 : 0x20000000 ≤ a) (h2 : a < 0x20040000) : gRegion a = .dram := by
  unfold gRegion
  rw [if_neg (by omega), if_neg (by omega), if_pos ⟨h1, h2⟩]

theorem gByte_dram {a o : Nat} (h1 : 0x20000000 ≤ a) (h2 : a < 0x20040000) (ho : a - 0x20000000 = o) :
    s.gByte a = s.groom.dram.get 0 o := by
  unfold State.gByte
  rw [gRegion_dram h1 h2]
  dsimp only
  rw [ho]

theorem gStore_dram {a o : Nat} (n v : Nat) (h1 : 0x20000000 ≤ a) (h2 : a < 0x20040000) (ho : a - 0x20000000 = o) :
    (s.gStore a n v).groom.dram = s.groom.dram.putLe o n v := by
  unfold State.gStore
  rw [gRegion_dram h1 h2]
  dsimp only
  rw [ho]

/-- A store beyond DRAM changes nothing. -/
theorem gStore_beyond {a : Nat} (n v : Nat) (h : 0x20040000 ≤ a) : s.gStore a n v = s := by
  have hr : gRegion a ≠ .iram ∧ gRegion a ≠ .dram := by
    unfold gRegion
    rw [if_neg (by omega), if_neg (by omega), if_neg (by omega)]
    split
    · decide
    · split
      · decide
      · split <;> decide
  unfold State.gStore
  dsimp only
  split
  next hi => exact absurd hi hr.1
  next hd => exact absurd hd hr.2
  next => rfl

/-- `n` words stored at Groom addresses from `a` on. -/
def storeWords (a : Nat) (v : Nat → Nat) (n : Nat) (s : State) : State :=
  (List.range n).foldl (fun s i => s.gStore (a + 4 * i) 4 (v i)) s

theorem storeWords_succ (a : Nat) (v : Nat → Nat) (n : Nat) :
    storeWords a v (n + 1) s = (storeWords a v n s).gStore (a + 4 * n) 4 (v n) := by
  unfold storeWords
  rw [List.range_succ, List.foldl_append, List.foldl_cons, List.foldl_nil]

/-- The bytes in DRAM of the words stored. -/
theorem get_storeWords {a o : Nat} (v : Nat → Nat) {n i j : Nat} (ha : a = 0x20000000 + o) (hi : i < n) (hj : j < 4)
    (hl : a + 4 * i + 4 ≤ 0x20040000) :
    Tbl.get 0 (storeWords a v n s).groom.dram (o + 4 * i + j) = (leBytes 4 (v i)).getD j 0 := by
  induction n with
  | zero => exact absurd hi (Nat.not_lt_zero i)
  | succ n ih =>
    rw [storeWords_succ]
    by_cases hb : a + 4 * n < 0x20040000
    · rw [gStore_dram (o := o + 4 * n) 4 (v n) (by omega) hb (by omega), Tbl.putLe, get_foldl_put, leBytes_length]
      by_cases hin : i = n
      · subst hin
        rw [if_pos (by omega), show o + 4 * i + j - (o + 4 * i + 0) = j by omega]
      · rw [if_neg (by omega)]
        exact ih (by omega)
    · rw [gStore_beyond _ _ (by omega)]
      exact ih (by omega)

/-- A word stored in DRAM reads as it was stored. -/
theorem gRead_storeWords {t : State} {a : Nat} (v : Nat → Nat) {n i : Nat} (h : 0x20000000 ≤ a) (hi : i < n)
    (hl : a + 4 * i + 4 ≤ 0x20040000) (hd : t.groom.dram = (storeWords a v n s).groom.dram) (hv : v i < 256 ^ 4) :
    t.gRead (a + 4 * i) 4 = v i := by
  obtain ⟨o, ho⟩ : ∃ o, a = 0x20000000 + o := ⟨a - 0x20000000, by omega⟩
  have hb : (List.range 4).map (fun j => t.gByte (a + 4 * i + j)) = leBytes 4 (v i) := by
    refine List.ext_getElem (by rw [List.length_map, List.length_range, leBytes_length]) fun j h1 h2 => ?_
    rw [leBytes_length] at h2
    rw [List.getElem_map, List.getElem_range, gByte_dram (o := o + 4 * i + j) (by omega) (by omega) (by omega), hd,
      get_storeWords v ho hi h2 hl, getD_getElem]
  rw [State.gRead, hb, leNat_leBytes, Nat.mod_eq_of_lt hv]

section
variable {m : Nat}

/-- R447: what asking the extension leaves. -/
structure Asked (s t : State) (m : Nat) : Prop where
  waits : (t.mbox m).waitFor = .licensee
  notice : t.groom.ipend.bit 43 = true
  cleared : t.groom.ipend.bit 40 = false
  page : ∀ i, i < 64 → t.gRead (servicePage + 4 * i) 4 = (s.mbox m).cmdAt (4 * i) 4

theorem asked_of_storeWords {u t : State} {v : Nat → Nat} (hv : ∀ i, v i = (s.mbox m).cmdAt (4 * i) 4)
    (hu : u = storeWords servicePage v 64 s) (ht : t = ((u.gClear 40).pendGroom 43).mbWait m .licensee) : Asked s t m := by
  have hi : t.groom.ipend = (u.groom.ipend.putBit 40 false).putBit 43 true := by rw [ht]; rfl
  have hd : t.groom.dram = (storeWords servicePage v 64 s).groom.dram := by rw [ht, ← hu]; rfl
  refine ⟨?_, ?_, ?_, fun i h => ?_⟩
  · rw [ht]
    exact congrArg Mailbox.waitFor (State.mbox_setMbox ..)
  · rw [hi, Word.bit_putBit _ _ (by omega), if_pos rfl]
  · rw [hi, Word.bit_putBit _ _ (by omega), if_neg (by omega), Word.bit_putBit _ _ (by omega), if_pos rfl]
  · rw [gRead_storeWords v ?_ h ?_ hd (hv i ▸ leAt_lt _ _ 4), hv]
    · decide
    · unfold servicePage; omega

theorem gStore_mboxes (a n v : Nat) : (s.gStore a n v).mboxes = s.mboxes := by
  unfold State.gStore
  dsimp only
  split
  · split <;> rfl
  · split <;> rfl
  · rfl

theorem storeWords_mboxes (a : Nat) (v : Nat → Nat) (n : Nat) : (storeWords a v n s).mboxes = s.mboxes :=
  foldl_keeps (P := fun t => t.mboxes = s.mboxes) (fun _ _ ht => (gStore_mboxes ..).trans ht) _ s rfl

/-- R447: the words of the command area, stored one after another. -/
def storeCommand (m n : Nat) (s : State) : State :=
  (List.range n).foldl (fun s i => s.gStore (servicePage + 4 * i) 4 ((s.mbox m).cmdAt (4 * i) 4)) s

theorem storeCommand_eq (s : State) (m n : Nat) : storeCommand m n s = storeWords servicePage (fun i => (s.mbox m).cmdAt (4 * i) 4) n s := by
  induction n with
  | zero => rfl
  | succ n ih =>
    obtain ⟨u, hu⟩ : ∃ u : State, u = storeWords servicePage (fun i => (s.mbox m).cmdAt (4 * i) 4) n s := ⟨_, rfl⟩
    have hm : u.mbox m = s.mbox m := congrArg (fun t => Tbl.get Mailbox.empty t m) (hu ▸ storeWords_mboxes (s := s) _ _ n)
    unfold storeWords at hu
    unfold storeCommand storeWords at ih ⊢
    rw [List.range_succ, List.foldl_append, List.foldl_append, ih, ← hu, List.foldl_cons, List.foldl_nil, List.foldl_cons,
      List.foldl_nil, hm]

theorem extAsk_eq (s : State) (m : Nat) : s.extAsk m = (((storeCommand m 64 s).gClear 40).pendGroom 43).mbWait m .licensee := rfl

theorem extAsk_asked (s : State) (m : Nat) : Asked s (s.extAsk m) m :=
  asked_of_storeWords (fun _ => rfl) rfl ((extAsk_eq s m).trans (by rw [storeCommand_eq]))

theorem licensee_asks (hw : (s.mbox m).waitFor ≠ .licensee)
    (hn : s.mboxes.any (fun (p : Nat × Mailbox) => p.2.st = .busy && p.2.waitFor = .licensee) = false) :
    s.licensee m = s.extAsk m := by
  unfold State.licensee
  rw [if_neg hw, hn]
  rfl

theorem licensee_answered (hw : (s.mbox m).waitFor = .licensee) (hi : s.groom.ipend.bit 40 = true)
    (hx : s.groom.extHalted = false) (ha : answerOk s.extAnswer = true) : s.licensee m =
      (s.gClear 40).mbDone m (le s.extAnswer 0 2) (le s.extAnswer 10 2) ((s.extAnswer.drop 16).take (le s.extAnswer 8 2)) := by
  unfold State.licensee
  rw [if_pos hw, hi, hx, ha]
  rfl

end

end

/-- Settles O46. -/
theorem persistentAndLicenseeCommands : Obligations.PersistentAndLicenseeCommands := by
  unfold Obligations.PersistentAndLicenseeCommands
  intro s m b asks
  refine ⟨fun hs hp hw => ?_, fun hs h1 h2 hw => ?_, fun hs hw hp => ?_, fun hs hw hp ha hg =>
    ⟨s.setCalMode true, ?_, gateCfg_setCalMode .., ipend_setCalMode .., setCalMode_begins⟩,
    fun hs hw he hg ha => ⟨s.setCalMode false, ?_, gateCfg_setCalMode .., setCalMode_ends⟩,
    fun hs hw ha hg => ⟨s.setCalMode false, ?_, gateCfg_setCalMode ..⟩,
    fun ha hw hn => ?_, fun ha hw hi hx hok => ?_, fun ha hw ht => ?_⟩
  · refine (mbRow_served (f := fun s => if 2 ^ 28 ≤ (s.mbox m.toNat).pay 0 8 then s.mbFail m.toNat mbBAD_FIELD 0
      else s.mbTack m.toNat 1 (s.tack.read 1 &&& ~~~(Word.ofNat ((s.mbox m.toNat).pay 0 8)))) hs).trans (congrArg _ ?_)
    rw [if_neg (Nat.not_le.mpr hp), mbTack_fresh _ _ hw]
    rfl
  · refine (mbRow_served (f := fun s => if (s.mbox m.toNat).pay 0 2 < 384 ∨ 511 < (s.mbox m.toNat).pay 0 2
      then s.mbFail m.toNat mbNOT_PERMITTED 0
      else s.mbTack m.toNat ((s.mbox m.toNat).pay 0 2) (Word.ofNat ((s.mbox m.toNat).pay 2 8))) hs).trans (congrArg _ ?_)
    rw [if_neg (not_or.mpr ⟨Nat.not_lt.mpr h1, Nat.not_lt.mpr h2⟩), mbTack_fresh _ _ hw]
    rfl
  · exact (mbRow_served (f := fun s => s.gateCal m.toNat) hs).trans (congrArg _ (gateCal_parts hw hp))
  · exact (mbRow_served (f := fun s => s.gateCal m.toNat) hs).trans (congrArg _ (gateCal_begins hw hp ha hg))
  · refine (mbRow_served (f := fun s => s.gateCal m.toNat) hs).trans (congrArg _ ?_)
    rw [gateCal_over hw (by rw [he, Bool.or_true]) hg, if_neg (by rw [show (s.mbox m.toNat).abortReq = false from ha]; decide)]
    rfl
  · refine (mbRow_served (f := fun s => s.gateCal m.toNat) hs).trans (congrArg _ ?_)
    rw [gateCal_over hw (by rw [show (s.mbox m.toNat).abortReq = true from ha, Bool.true_or]) hg, if_pos ha]
    rfl
  · obtain ⟨h1, h2, h3, h4⟩ := extAsk_asked s m.toNat
    exact ⟨s.extAsk m.toNat, (eventStep_runs (f := fun s => s.licensee m.toNat) ha.1 ha.2).trans
      (congrArg _ (licensee_asks hw hn)), h1, h2, h3, h4⟩
  · exact (eventStep_runs (f := fun s => s.licensee m.toNat) ha.1 ha.2).trans (congrArg _ (licensee_answered hw hi hx hok))
  · refine eventStep_runs (f := fun s => s.mbFail m.toNat mbEXT_TIMEOUT 0) ha.1 ?_
    rw [ha.2, show (s.mbox m.toNat).waitFor = .licensee from hw,
      decide_eq_true (p := (s.mbox m.toNat).since + usec 10000 ≤ s.now) ht]
    rfl

end Sys2Proof.Machine
end

section
/-! PROOFS. The events of the Groom (R399, R401 to R408, R414 to R416). -/

namespace Sys2Proof.Machine

/-! ### What a store of the Groom changes -/

section
variable {s : State}

theorem gStore_groom (s : State) (a n v : Nat) : ∃ iram dram bad, (s.gStore a n v).groom =
    { s.groom with iram := iram, dram := dram, bad := bad } ∧ bad.Subset s.groom.bad := by
  unfold State.gStore
  have hd (k : Nat) : (s.groom.bad.del k).Subset s.groom.bad := fun _ => Tbl.mem_del
  have hs : s.groom.bad.Subset s.groom.bad := fun _ h => h
  dsimp only
  split
  · split
    · exact ⟨_, _, _, rfl, hd _⟩
    · exact ⟨_, _, _, rfl, hs⟩
  · split
    · exact ⟨_, _, _, rfl, hd _⟩
    · exact ⟨_, _, _, rfl, hs⟩
  · exact ⟨_, _, _, rfl, hs⟩

theorem storeWords_groom (s : State) (a : Nat) (v : Nat → Nat) (n : Nat) : ∃ iram dram bad, (storeWords a v n s).groom =
    { s.groom with iram := iram, dram := dram, bad := bad } ∧ bad.Subset s.groom.bad := by
  induction n with
  | zero => exact ⟨_, _, _, rfl, fun _ h => h⟩
  | succ n ih =>
    obtain ⟨i, d, b, hg, hb⟩ := ih
    obtain ⟨i', d', b', hg', hb'⟩ := gStore_groom (storeWords a v n s) (a + 4 * n) 4 (v n)
    rw [storeWords_succ]
    refine ⟨i', d', b', ?_, fun x hx => hb ?_⟩
    · rw [hg', hg]
    · have := hb' hx
      rwa [hg] at this

theorem gBad_of_subset {t : State} {a : Nat} (hb : t.groom.bad.Subset s.groom.bad) (h : s.gBad a = none) : t.gBad a = none := by
  unfold State.gBad at h ⊢
  rw [Option.map_eq_none_iff, List.find?_eq_none] at h ⊢
  exact fun p hp => h p (hb hp)

end

/-! ### The entry of a source (R403) -/

/-- A thread whose results have all taken effect. -/
theorem settleAll_eq (h : GThread) : h.settleAll = { h with w := h.late.foldl (fun w e => w.set e.1 e.2.1) h.w, late := [] } := by
  have hf (l : List (Nat × Half × Nat)) (h : GThread) : l.foldl (fun h e => h.setReg e.1 e.2.1) h =
      { h with w := l.foldl (fun w e => w.set e.1 e.2.1) h.w } := by
    induction l generalizing h with
    | nil => rfl
    | cons e l ih => exact ih _
  rw [GThread.settleAll, hf]

section
variable {s : State} {t n : Nat}

theorem gSync_empty (h : (s.gthread t).pending = []) :
    s.gSync t = s.modGthread t fun h => { h with pending := [], queue := [] } := by
  unfold State.gSync
  rw [h]
  rfl

theorem gDropDiv_idle (h : s.groom.divBusy.map (·.1) ≠ some t) : s.gDropDiv t = s.modGthread t fun h => { h with divOp := none } :=
  if_neg h

/-- R403: the thread whose entry of a source begins. -/
def entryThread (h : GThread) : GThread := { h.settleAll with pending := [], queue := [], divOp := none }

/-- R403: what precedes the frame: SYNC, the division given up, and the results. -/
def entryState (s : State) (t : Nat) : State := ((s.gSync t).gDropDiv t).modGthread t GThread.settleAll

section
variable (hp : (s.gthread t).pending = []) (hb : s.groom.divBusy.map (·.1) ≠ some t)
include hp hb

theorem entryState_eq : entryState s t = ((s.modGthread t fun h => { h with pending := [], queue := [] }).modGthread t
    fun h => { h with divOp := none }).modGthread t GThread.settleAll := by
  unfold entryState
  rw [gSync_empty hp, gDropDiv_idle (by exact hb)]

theorem gthread_entryState : (entryState s t).gthread t = entryThread (s.gthread t) := by
  rw [entryState_eq hp hb]
  simp only [State.modGthread, State.gthread_setGthread]
  rw [entryThread, settleAll_eq, settleAll_eq]

theorem entryState_groom : ∃ threads, (entryState s t).groom = { s.groom with threads := threads } := by
  rw [entryState_eq hp hb]
  exact ⟨_, rfl⟩

end

/-- R403: the address of the frame that the thread stacks. -/
def frameAt (h : GThread) : Nat := (h.settleAll.reg 15).toNat - 32

/-- R403: the state once the frame is stacked and the source's pending bit cleared. -/
def frameStored (s : State) (t n : Nat) : State :=
  let h := entryThread (s.gthread t)
  let s2 := storeWords (frameAt (s.gthread t)) (fun i => (h.frameWords.getD i 0).toNat) 8 (entryState s t)
  if gLevelSource n then s2 else s2.gClear n

theorem frame_foldl (h : GThread) (a : Nat) (x : State) :
    (h.frameWords.zipIdx).foldl (fun s p => s.gStore (a + 4 * p.2) 4 p.1.toNat) x =
      storeWords a (fun i => (h.frameWords.getD i 0).toNat) 8 x := rfl

section
variable (hp : (s.gthread t).pending = []) (hb : s.groom.divBusy.map (·.1) ≠ some t)
include hp hb

theorem frameStored_groom : ∃ threads iram dram bad ipend, (frameStored s t n).groom =
    { s.groom with threads := threads, iram := iram, dram := dram, bad := bad, ipend := ipend } ∧ bad.Subset s.groom.bad ∧
    threads.get GThread.reset t = entryThread (s.gthread t) ∧ (gLevelSource n = false → ipend.bit n = false) ∧
    dram = (storeWords (frameAt (s.gthread t)) (fun i => ((s.gthread t).settleAll.frameWords.getD i 0).toNat) 8
      (entryState s t)).groom.dram := by
  obtain ⟨th, hth⟩ := entryState_groom hp hb
  obtain ⟨i, d, b, hg, hs⟩ := storeWords_groom (entryState s t) (frameAt (s.gthread t))
    (fun i => ((entryThread (s.gthread t)).frameWords.getD i 0).toNat) 8
  have ht : th.get GThread.reset t = entryThread (s.gthread t) := by
    rw [← gthread_entryState hp hb, State.gthread, hth]
  rw [hth] at hg hs
  have hd := congrArg Groom.dram hg
  unfold frameStored
  dsimp only
  split
  next hl =>
    exact ⟨_, _, _, _, _, hg, hs, ht, fun h => absurd (hl.symm.trans h) (by decide), hd.symm⟩
  next hl =>
    refine ⟨th, i, d, b, s.groom.ipend.putBit n false, ?_, hs, ht, fun h => ?_, hd.symm⟩
    · rw [State.gClear, hg]
    · have hn : n < 64 := by
        simp only [gLevelSource, Bool.or_eq_false_iff, decide_eq_false_iff_not] at h
        omega
      rw [Word.bit_putBit _ _ hn, if_pos rfl]

theorem gVectorBad_frameStored (hv : s.gBad ((s.gthread t).vbase.toNat + 4 * n) = none) :
    (frameStored s t n).gVectorBad t n = none := by
  obtain ⟨th, i, d, b, p, hg, hs, ht, _, _⟩ := frameStored_groom (n := n) hp hb
  have hvb : ((frameStored s t n).gthread t).vbase = (s.gthread t).vbase := by
    rw [State.gthread, hg]
    refine (congrArg GThread.vbase ht).trans ?_
    rw [entryThread, settleAll_eq]
  rw [State.gVectorBad, hvb, gBad_of_subset (s := s) (by rw [hg]; exact hs) hv]
  rfl

variable (hf : (s.gthread t).settleAll.frameOk = true)
  (hd : (s.gthread t).frameDenied true (frameAt (s.gthread t)) = none)
  (hv : s.gBad ((s.gthread t).vbase.toNat + 4 * n) = none)
include hf hd hv

theorem gEnter_ok : s.gEnter t n = (frameStored s t n).modGthread t fun h =>
    { h.setReg 15 (BitVec.ofNat 32 (frameAt (s.gthread t))) with
      level := (frameStored s t n).gPrio n, causeSrc := n,
      pc := (frameStored s t n).gWord ((s.gthread t).vbase.toNat + 4 * n), wfi := false,
      entered := if n = 34 then none else some n } := by
  obtain ⟨x, hx⟩ : ∃ x, x = entryState s t := ⟨_, rfl⟩
  have hth : x.gthread t = entryThread (s.gthread t) := by rw [hx, gthread_entryState hp hb]
  have hvb : (entryThread (s.gthread t)).vbase = (s.gthread t).vbase := by rw [entryThread, settleAll_eq]
  have hd' : (entryThread (s.gthread t)).frameDenied true (((entryThread (s.gthread t)).reg 15).toNat - 32) = none := by
    rw [← hd, entryThread, settleAll_eq, frameAt]
    rw [settleAll_eq]
    rfl
  have hf' : (entryThread (s.gthread t)).frameOk = true := hf
  have hst : frameStored s t n = if gLevelSource n
      then storeWords (((entryThread (s.gthread t)).reg 15).toNat - 32)
        (fun i => ((entryThread (s.gthread t)).frameWords.getD i 0).toNat) 8 x
      else (storeWords (((entryThread (s.gthread t)).reg 15).toNat - 32)
        (fun i => ((entryThread (s.gthread t)).frameWords.getD i 0).toNat) 8 x).gClear n := by
    rw [hx]
    rfl
  have hv3 := gVectorBad_frameStored hp hb hv
  unfold State.gEnter
  rw [show ((s.gSync t).gDropDiv t).modGthread t GThread.settleAll = x from hx.symm]
  dsimp only
  rw [hth, hf', Bool.not_true, if_neg Bool.false_ne_true, hd']
  dsimp only
  rw [frame_foldl, ← hst, hv3, hvb]
  rfl

/-- R403: what the entry of a source leaves. -/
theorem gEnter_leaves : let u := (s.gEnter t n).gthread t
    u.causeSrc = n ∧ u.level = s.gPrio n ∧ u.wfi = false ∧ u.reg 15 = BitVec.ofNat 32 (frameAt (s.gthread t)) ∧
    u.pc = (s.gEnter t n).gWord ((s.gthread t).vbase.toNat + 4 * n) ∧
    (gLevelSource n = false → (s.gEnter t n).groom.ipend.bit n = false) ∧
    (∀ i, i < 8 → frameAt (s.gthread t) + 4 * i + 4 ≤ 0x20040000 →
      (s.gEnter t n).gWord (frameAt (s.gthread t) + 4 * i) = (s.gthread t).settleAll.frameWords.getD i 0) := by
  obtain ⟨th, i, d, b, p, hg, _, _, hi, hdr⟩ := frameStored_groom (n := n) hp hb
  have hprio : (frameStored s t n).gPrio n = s.gPrio n := by rw [State.gPrio, hg, State.gPrio]
  rw [gEnter_ok hp hb hf hd hv]
  intro u
  have hu : u = _ := State.gthread_setGthread ..
  rw [hu]
  refine ⟨rfl, hprio, rfl, GThread.reg_setReg .., rfl, fun h => ?_, fun k hk hl => ?_⟩
  · refine Eq.trans (b := (frameStored s t n).groom.ipend.bit n) rfl ?_
    rw [hg]
    exact hi h
  · have hlo : 0x20000000 ≤ frameAt (s.gthread t) := by
      simp only [GThread.frameOk, Bool.and_eq_true, decide_eq_true_eq] at hf
      rw [frameAt]
      omega
    rw [State.gWord, gRead_storeWords (s := entryState s t) (fun i => ((s.gthread t).settleAll.frameWords.getD i 0).toNat)
      hlo hk hl ?_ ?_, BitVec.ofNat_toNat, BitVec.setWidth_eq]
    · refine Eq.trans (b := (frameStored s t n).groom.dram) rfl ?_
      rw [hg]
      exact hdr
    · exact BitVec.isLt _

end

end

/-! ### A source in the place of one whose handler has not begun (R404) -/

section
variable {s : State} {t n e : Nat}

theorem gTakeSource_enters (h : s.gDisplaced t n = none) : s.gTakeSource t n = s.gEnter t n := by
  unfold State.gTakeSource
  rw [h]

theorem gTakeSource_displaces (h : s.gDisplaced t n = some e) (hv : s.gVectorBad t n = none) {u : State}
    (hu : u = if gLevelSource e then s else s.pendGroom e) : s.gTakeSource t n =
      (u.gChainTo t n).1.modGthread t fun h => { h with pc := (u.gChainTo t n).2 } := by
  unfold State.gTakeSource
  rw [h]
  dsimp only
  rw [hv, ← hu]

theorem gChainTo_groom (s : State) (t n : Nat) (h : n ≠ 33) : ∃ threads, (s.gChainTo t n).1.groom =
    { s.groom with threads := threads, ipend := if gLevelSource n then s.groom.ipend else s.groom.ipend.putBit n false } := by
  unfold State.gChainTo
  dsimp only
  rw [if_neg h]
  split <;> exact ⟨_, rfl⟩

/-- R404: what the entry of a source in the place of another leaves. -/
theorem displaced_leaves (h : s.gDisplaced t n = some e) (hv : s.gVectorBad t n = none) (hn : n ≠ 33) :
    let r := s.gTakeSource t n
    let u := r.gthread t
    u.causeSrc = n ∧ u.level = s.gPrio n ∧ u.reg 15 = (s.gthread t).reg 15 ∧
    u.pc = s.gWord ((s.gthread t).vbase.toNat + 4 * n) ∧
    r.groom.dram = s.groom.dram ∧ (gLevelSource e = false → e ≠ n → r.groom.ipend.bit e = true) := by
  obtain ⟨u, hu⟩ : ∃ u : State, u = if gLevelSource e then s else s.pendGroom e := ⟨_, rfl⟩
  obtain ⟨hc, hl, hr, hp⟩ := gthread_gChainTo u t n
  obtain ⟨th, hg⟩ := gChainTo_groom u t n hn
  have hsame : u.gthread t = s.gthread t ∧ u.gPrio n = s.gPrio n ∧ (∀ a, u.gWord a = s.gWord a) ∧ u.groom.dram = s.groom.dram := by
    rw [hu]
    split <;> exact ⟨rfl, rfl, fun _ => rfl, rfl⟩
  obtain ⟨hth, hpr, hw, hd⟩ := hsame
  rw [gTakeSource_displaces h hv hu]
  intro r x
  have hx : x = { (u.gChainTo t n).1.gthread t with pc := (u.gChainTo t n).2 } := State.gthread_setGthread ..
  have hrd : r.groom.dram = (u.gChainTo t n).1.groom.dram := rfl
  have hri : r.groom.ipend = (u.gChainTo t n).1.groom.ipend := rfl
  rw [hx, hrd, hri, hg]
  refine ⟨hc, hl.trans hpr, hr.trans (by rw [hth]), hp.trans (by rw [hw, hth]), hd, fun he hne => ?_⟩
  have he64 : e < 64 := by
    simp only [gLevelSource, Bool.or_eq_false_iff, decide_eq_false_iff_not] at he
    omega
  have hub : u.groom.ipend.bit e = true := by
    rw [hu, if_neg (by rw [he]; decide)]
    exact (Word.bit_putBit _ _ he64).trans (if_pos rfl)
  dsimp only
  split
  · exact hub
  · rw [Word.bit_putBit _ _ he64, if_neg hne, hub]

/-! ### Boundaries and machine checks (R402, R408) -/

theorem gBoundary_takes (h : s.gNext t (s.gthread t).level (s.gthread t).ie = some n) (hn : n ≠ 33) :
    s.gBoundary t = s.gTakeSource t n := by
  unfold State.gBoundary
  dsimp only
  rw [h]
  exact if_neg hn

theorem gBoundary_none (h : s.gNext t (s.gthread t).level (s.gthread t).ie = none) : s.gBoundary t = s := by
  unfold State.gBoundary
  dsimp only
  rw [h]

theorem gBoundary_machineCheck (h : s.gNext t (s.gthread t).level (s.gthread t).ie = some 33) :
    s.gBoundary t = s.gTakeMachineCheck := by
  unfold State.gBoundary
  dsimp only
  rw [h]
  rfl

theorem gTakeMachineCheck_nested (h : s.groom.inMc = true) : s.gTakeMachineCheck = s.groomRestart 2 0 := by
  unfold State.gTakeMachineCheck
  rw [if_pos h]

theorem gTakeMachineCheck_inMc (h : s.groom.inMc = false) (hf : (s.gthread 0).settleAll.frameOk = true)
    (hv : s.gBad ((s.gthread 0).vbase.toNat + 132) = none) : s.gTakeMachineCheck.groom.inMc = true := by
  unfold State.gTakeMachineCheck
  rw [h, if_neg Bool.false_ne_true, hf, Bool.not_true, Bool.and_false, if_neg Bool.false_ne_true, hv]

theorem machineCheck_escalated (hi : s.groom.ipend.bit 33 = true) (hr : s.gRuns 0 = true) (hh : (s.gthread 0).held = none) :
    s.machineCheck .escalated = s.gBoundary 0 := by
  unfold State.machineCheck
  dsimp only
  rw [gRestarted_of_same (GroomSame.refl s), if_neg Bool.false_ne_true, hi, hr, hh]
  rfl

theorem record_same (s : State) (r : ErrRec) : GroomSame s (s.record r) := by
  constructor
  · rw [record_ras]
    split <;> rfl
  · rw [record_groom]
    split <;> rfl

theorem record_threads (s : State) (r : ErrRec) : (s.record r).groom.threads = s.groom.threads := by
  rw [record_groom]
  split <;> rfl

theorem record_inMc (s : State) (r : ErrRec) : (s.record r).groom.inMc = s.groom.inMc := by
  rw [record_groom]
  split <;> rfl

theorem record_threaded (s : State) (r : ErrRec) : (s.record r).groom.threaded = s.groom.threaded := by
  rw [record_groom]
  split <;> rfl

theorem machineCheck_corrected (x : Ecc) (hi : s.groom.ipend.bit 33 = false) (hl : s.ras.fifo.length < 16) :
    s.machineCheck (.memoryCorrected x) = s.record (.ecc x 0x101 0xE 0 none) := by
  have hg : (s.record (.ecc x 0x101 0xE 0 none)).groom = s.groom := by rw [record_groom, if_pos hl]
  unfold State.machineCheck
  dsimp only
  rw [gRestarted_of_same (record_same ..), if_neg Bool.false_ne_true, hg, hi]
  rfl

theorem gRuns_congr {u v : State} (hg : u.groom.halted = v.groom.halted) (ht : u.groom.threads = v.groom.threads)
    (hd : u.groom.threaded = v.groom.threaded) (hb : u.boot = v.boot) : u.gRuns t = v.gRuns t := by
  unfold State.gRuns State.gthread
  rw [hg, ht, hd, hb]

/-- R390: the machine check of an uncorrectable error that a read meets. -/
def badMet (s : State) (x : Ecc) : State := (s.record (.ecc x 0x102 0xE 6 none)).raiseMachineCheck

theorem badMet_same (x : Ecc) : GroomSame s (badMet s x) := record_same ..

theorem gBadMet_eq (x : Ecc) (hm : s.groom.inMc = false) : s.gBadMet t x = badMet s x := by
  rw [State.gBadMet, State.gMachineCheck, record_inMc, hm]
  rfl

theorem gMarkBad_groom (s : State) (a : Nat) (x : Ecc) : ∃ bad, s.gMarkBad a x = { s with groom := { s.groom with bad := bad } } := by
  unfold State.gMarkBad
  split <;> exact ⟨_, rfl⟩

theorem gBad_gMarkBad {a : Nat} (x : Ecc) (h : gRegion a = .iram ∨ gRegion a = .dram) : (s.gMarkBad a x).gBad a = some x := by
  rw [State.gMarkBad, if_pos h, State.gBad, Tbl.find?_set]
  rfl

theorem machineCheck_error {word : Half} (x : Ecc) (hm : s.groom.inMc = false) (hr : s.gRuns 0 = true)
    (hh : (s.gthread 0).held = none) :
    s.machineCheck (.memoryError word x) = (badMet (s.gMarkBad word.toNat x) x).gBoundary 0 := by
  obtain ⟨bad, hb⟩ := gMarkBad_groom s word.toNat x
  obtain ⟨v, hv⟩ : ∃ v : State, v = { s with groom := { s.groom with bad := bad } } := ⟨_, rfl⟩
  have hvm : v.groom.inMc = false := by rw [hv]; exact hm
  have hs : GroomSame s (badMet v x) := GroomSame.trans (by rw [hv]; exact ⟨rfl, rfl⟩) (badMet_same x)
  have hth : (badMet v x).groom.threads = s.groom.threads := by
    refine Eq.trans (record_threads v _) ?_
    rw [hv]
  have htd : (badMet v x).groom.threaded = s.groom.threaded := by
    refine Eq.trans (record_threaded v _) ?_
    rw [hv]
  have hbo : (badMet v x).boot = s.boot := by
    refine Eq.trans (record_platform v _).boot ?_
    rw [hv]
  have hi : (badMet v x).groom.ipend.bit 33 = true := (Word.bit_putBit _ _ (by omega)).trans (if_pos rfl)
  have hrun : (badMet v x).gRuns 0 = true := by rw [gRuns_congr hs.2 hth htd hbo, hr]
  have hheld : ((badMet v x).gthread 0).held = none := by rw [State.gthread, hth]; exact hh
  unfold State.machineCheck
  dsimp only
  rw [hb, ← hv, gBadMet_eq x hvm, gRestarted_of_same hs, if_neg Bool.false_ne_true, hi, hrun, hheld]
  rfl

/-! ### ISET, divisions and responses (R391, R399, R406, R415) -/

theorem gDivNext_threads (s : State) : s.gDivNext.groom.threads = s.groom.threads := by
  unfold State.gDivNext
  split
  · rfl
  · dsimp only
    split
    · rfl
    · split <;> rfl

theorem gDivEnd_thread {w : GDiv} (h : (s.gthread n).divOp = some w) : (s.gDivEnd n).gthread n =
    { (s.gthread n).settleAll.setReg w.d w.result with divOp := none, pc := w.pc + 4 } := by
  unfold State.gDivEnd
  rw [h, State.gthread, gDivNext_threads]
  exact State.gthread_setGthread ..

end

/-- R406: the division that holds the divider ends. -/
def divBody (s : State) : State :=
  match s.groom.divBusy with
  | some p => s.gDivEnd p.1
  | none => s

theorem exec_divComplete {s : State} {n e : Nat} (hl : s.live = true) (hb : s.groom.divBusy = some (n, e)) (hg : s.groom.halted = false)
    (he : e ≤ s.now / 4) : Machine.exec .groomDivComplete s = .next (s.gDivEnd n) := by
  refine (eventStep_runs (f := divBody) hl ?_).trans (congrArg _ ?_)
  · rw [hb]
    dsimp only
    rw [hg, decide_eq_true (p := e ≤ s.gclk) he]
    rfl
  · unfold divBody
    rw [hb]

/-- R415: an extension may set bits 0 to 2 of ISET only. -/
theorem extMay_iset (v : Half) : extMay true 0x40000070 v = decide (v &&& 0xFFFFFFF8 = 0) := by
  simp [extMay]

section
variable {s : State} {t : BitVec 2} {v : Half}

theorem iset_set (hl : s.live = true) (h : s.gCanIssue t.toNat = true) (hm : (s.gthread t.toNat).ext = false ∨ v &&& 0xFFFFFFF8 = 0) :
    Machine.exec (.iset t v) s = .next (s.gIset v) := by
  have hx : ((s.gthread t.toNat).ext && !extMay true 0x40000070 v) = false := by
    rw [extMay_iset]
    obtain hm | hm := hm
    · rw [hm, Bool.false_and]
    · rw [decide_eq_true hm, Bool.not_true, Bool.and_false]
  refine (eventStep_runs (f := fun s => s.groomAccess t.toNat true 0x40000070 v fun s => some (s.gIset v)) hl rfl).trans
    (congrArg _ ?_)
  dsimp only [State.groomAccess]
  rw [h, hx]
  rfl

theorem iset_denied (hl : s.live = true) (h : s.gCanIssue t.toNat = true) (he : (s.gthread t.toNat).ext = true)
    (hm : v &&& 0xFFFFFFF8 ≠ 0) : Machine.exec (.iset t v) s = .next (s.groomFault t.toNat 4 (some 0x40000070)) := by
  refine (eventStep_runs (f := fun s => s.groomAccess t.toNat true 0x40000070 v fun s => some (s.gIset v)) hl rfl).trans
    (congrArg _ ?_)
  dsimp only [State.groomAccess]
  rw [h, extMay_iset, he, decide_eq_false hm]
  rfl

theorem iset_stopped (hl : s.live = true) (h : s.gCanIssue t.toNat = false) : Machine.exec (.iset t v) s = .next s := by
  refine (eventStep_runs (f := fun s => s.groomAccess t.toNat true 0x40000070 v fun s => some (s.gIset v)) hl rfl).trans
    (congrArg _ ?_)
  dsimp only [State.groomAccess]
  rw [h]
  rfl

/-- R391: the thread once the response of its access has arrived. -/
def responded (h : GThread) : GThread :=
  let h1 := { h.settleAll with held := none }
  match h.held.bind (·.dest) with
  | some (d, v) => h1.setReg d v
  | none => h1

theorem responded_leaves {h : GThread} {hh : GHeld} (hs : h.held = some hh) : (responded h).held = none ∧
    ∀ d x, hh.dest = some (d, x) → (responded h).reg d = x := by
  unfold responded
  rw [hs]
  dsimp only [Option.bind]
  constructor
  · split <;> rfl
  · intro d x hd
    rw [hd]
    exact GThread.reg_setReg ..

theorem exec_response {hh : GHeld} (hl : s.live = true) (hs : (s.gthread t.toNat).held = some hh)
    (ht : s.tkHolds t.toNat = false) (hg : s.groom.halted = false) :
    Machine.exec (.groomAccessResponse t) s = .next (s.modGthread t.toNat responded) :=
  eventStep_runs (f := fun s => s.modGthread t.toNat responded) hl (by rw [hs, ht, hg]; rfl)

end

/-- Settles O54. -/
theorem groomEvents : Obligations.GroomEvents := by
  unfold Obligations.GroomEvents
  intro t s n e v word w hh hl h next atBoundary checks
  have hentry (hb : atBoundary) : Machine.exec (.groomInterruptEntry t) s = .next (s.gBoundary t.toNat) :=
    eventStep_runs (f := fun s => s.gBoundary t.toNat) hl (by rw [hb.1, hb.2]; rfl)
  have hmc (why : MachineCheck) (hc : checks) : Machine.exec (.groomMachineCheck why) s = .next (s.machineCheck why) :=
    eventStep_runs (f := fun s => s.machineCheck why) hl (by rw [hc.1, decide_eq_true hc.2]; rfl)
  refine ⟨fun hb hn h33 hp hd hf hv hx hbad => ?_, fun hb hn h33 hx hv => ⟨_, hentry hb, ?_⟩,
    fun hb hn => ?_, fun hc hi hr hh => ⟨?_, gBoundary_machineCheck, gTakeMachineCheck_nested, gTakeMachineCheck_inMc⟩,
    fun x hc hi hf => ?_, fun x hc hr hh hm => ⟨?_, gBad_gMarkBad x⟩, fun h0 h1 => ?_, iset_set hl, iset_denied hl, iset_stopped hl,
    ?_, fun hb hg hd hw => ?_, fun hs ht hg => ?_⟩
  · intro f hden
    refine ⟨_, hentry hb, ?_⟩
    rw [gBoundary_takes hn h33, gTakeSource_enters hx]
    exact gEnter_leaves hp hv hf hden hbad
  · rw [gBoundary_takes hn h33]
    exact displaced_leaves hx hv h33
  · rw [hentry hb, gBoundary_none hn]
  · rw [hmc _ hc, machineCheck_escalated hi hr hh]
  · rw [hmc _ hc, machineCheck_corrected x hi hf]
  · rw [hmc _ hc, machineCheck_error x hm hr hh]
    rfl
  · exact eventStep_runs (f := fun s => State.pendGroom { s with groom := { s.groom with
      tmr := s.groom.tmr.set t.toNat (0, s.now) } } (44 + t.toNat)) hl (by rw [decide_eq_true h0, decide_eq_true h1]; rfl)
  · exact eventStep_runs (f := fun s => if s.bridle.ready && (s.pendGroom 38).groom.extHalted then (s.pendGroom 38).loadExtension
      else s.pendGroom 38) hl rfl
  · refine ⟨_, exec_divComplete hl hb hg hd, ?_⟩
    rw [gDivEnd_thread hw]
    exact ⟨GThread.reg_setReg .., rfl, rfl⟩
  · obtain ⟨h1, h2⟩ := responded_leaves hs
    refine ⟨_, exec_response hl hs ht hg, ?_⟩
    rw [State.modGthread, State.gthread_setGthread]
    exact ⟨h1, h2⟩

end Sys2Proof.Machine
end

section
/-! PROOFS. The events of a sealed run (R219 to R244, R453). -/

namespace Sys2Proof.Machine

/-! ### What an event raised for a context changes -/

section
variable (s : State) (c : Nat)

theorem ctx_raiseEvent {k : Nat} (hk : k < 8) : ∃ mode pend, (s.raiseEvent c k).ctx c = { s.ctx c with mode := mode, pend := pend } ∧
    ({ s.ctx c with mode := mode } : Ctx).started = (s.ctx c).started ∧ ((s.ctx c).started = true → pend.getLsbD k = true) := by
  unfold State.raiseEvent
  dsimp only
  split
  next h =>
    have ht (u : State) : u.trigger.ctx c = u.ctx c := rfl
    have hp : ((s.ctx c).pend ||| (1 <<< k : BitVec 8)).getLsbD k = true := by
      have hb : (BitVec.ofNat 8 (1 <<< k)).getLsbD k = true := by
        rw [BitVec.getLsbD_ofNat]
        simp [hk]
      exact (BitVec.getLsbD_or ..).trans (by rw [show (1 <<< k : BitVec 8).getLsbD k = true from hb, Bool.or_true])
    rw [ht, State.ctx_setCtx]
    split
    · exact ⟨_, _, rfl, h.symm, fun _ => hp⟩
    · exact ⟨_, _, rfl, rfl, fun _ => hp⟩
  next h => exact ⟨_, _, rfl, rfl, fun h' => absurd h' h⟩

theorem started_setCtx (n : Nat) {x : Ctx} (h : x.started = (s.ctx n).started) :
    ((s.setCtx n x).ctx c).started = (s.ctx c).started := by
  by_cases hc : c = n
  · subst hc
    rw [State.ctx_setCtx, h]
  · rw [State.ctx_setCtx_other _ _ hc]

theorem started_raiseEvent (n k : Nat) : ((s.raiseEvent n k).ctx c).started = (s.ctx c).started := by
  unfold State.raiseEvent
  dsimp only
  split
  next h =>
    have ht (u : State) : u.trigger.ctx c = u.ctx c := rfl
    rw [ht]
    refine started_setCtx s c n ?_
    split
    · exact h.symm
    · rfl
  · rfl

theorem started_raiseAlert (n b : Nat) : ((s.raiseAlert n b).ctx c).started = (s.ctx c).started := by
  unfold State.raiseAlert
  split
  · exact (started_raiseEvent ..).trans (started_setCtx s c n rfl)
  · rfl

theorem started_record (r : ErrRec) : ((s.record r).ctx c).started = (s.ctx c).started := by
  unfold State.ctx
  rw [record_core]
  split
  · rfl
  · exact started_raiseAlert s c ..

theorem raiseEvent_buf (k : Nat) : (s.raiseEvent c k).buf = s.buf := by
  unfold State.raiseEvent
  dsimp only
  split <;> rfl

theorem raiseAlert_buf (b : Nat) : (s.raiseAlert c b).buf = s.buf := by
  unfold State.raiseAlert
  split
  · exact raiseEvent_buf ..
  · rfl

theorem record_buf (r : ErrRec) : (s.record r).buf = s.buf := by
  simp only [State.record, State.raiseMachineCheck, State.pendGroom, apply_ite State.buf, raiseAlert_buf, ite_self]

end

/-! ### What the end of an image leaves (R243, R244) -/

section
variable (s : State) (r : Run) (v : BitVec 8) (ix : Nat)

theorem imagePoison_keeps : (s.imagePoison r ix).buf = s.buf ∧
    ((s.imagePoison r ix).ctx r.ctx).started = (s.ctx r.ctx).started := by
  unfold State.imagePoison
  split
  · exact ⟨rfl, rfl⟩
  · exact ⟨record_buf .., started_record ..⟩

theorem resultOk_iff : resultOk v = true ↔ v = 1 ∨ v = 2 := by
  simp [resultOk]

/-- R243: the entry of the image's context at its end. -/
def endedCtx (e : Ctx) : Ctx :=
  { e with runSt := if resultOk v then .done else .failed, runResult := v, runix := BitVec.ofNat 4 ix }

theorem pmcAdd_ctx (u : State) (n k c : Nat) : (u.pmcAdd n k).ctx c = u.ctx c := by
  unfold State.pmcAdd
  split <;> rfl

theorem pmcAdd_buf (u : State) (n k : Nat) : (u.pmcAdd n k).buf = u.buf := by
  unfold State.pmcAdd
  split <;> rfl

theorem finishRun_leaves : let t := s.finishRun r v ix
    (t.ctx r.ctx).runResult = v ∧ (t.ctx r.ctx).runix = BitVec.ofNat 4 ix ∧
    (t.ctx r.ctx).runSt = (if v = 1 ∨ v = 2 then .done else .failed) ∧
    t.buf = r.ranges.foldl (HeldRange.giveUp (resultOk v)) s.buf ∧
    ((s.ctx r.ctx).started = true → (t.ctx r.ctx).pend.getLsbD 2 = true) := by
  obtain ⟨hb, hst⟩ := imagePoison_keeps s r ix
  obtain ⟨u, hu⟩ : ∃ u : State, u = { s.imagePoison r ix with
      buf := r.ranges.foldl (HeldRange.giveUp (resultOk v)) (s.imagePoison r ix).buf } := ⟨_, rfl⟩
  obtain ⟨w, hw⟩ : ∃ w : State, w = ((if r.dropImage then { u with runs := { u.runs with images := u.runs.images.del r.ctx } }
      else u).modCtx r.ctx (endedCtx v ix)).pmcAdd 5 1 := ⟨_, rfl⟩
  have hf : s.finishRun r v ix = if v = 0x0B then (w.raiseEvent r.ctx 2).pendGroom 50 else w.raiseEvent r.ctx 2 := by
    rw [hw, hu]
    rfl
  have hwc : w.ctx r.ctx = endedCtx v ix ((s.imagePoison r ix).ctx r.ctx) := by
    rw [hw, pmcAdd_ctx, State.modCtx, State.ctx_setCtx, hu]
    split <;> rfl
  have hwb : w.buf = r.ranges.foldl (HeldRange.giveUp (resultOk v)) s.buf := by
    rw [hw, pmcAdd_buf, ← hb, hu]
    split <;> rfl
  obtain ⟨mode, pend, hc, _, hp⟩ := ctx_raiseEvent w r.ctx (k := 2) (by omega)
  have hfc : (s.finishRun r v ix).ctx r.ctx = (w.raiseEvent r.ctx 2).ctx r.ctx := by
    rw [hf]
    split <;> rfl
  have hfb : (s.finishRun r v ix).buf = w.buf := by
    rw [hf, ← raiseEvent_buf w r.ctx 2]
    split <;> rfl
  intro t
  have htc : t.ctx r.ctx = { endedCtx v ix ((s.imagePoison r ix).ctx r.ctx) with mode := mode, pend := pend } := by
    rw [← hwc, ← hc]
    exact hfc
  rw [htc]
  refine ⟨rfl, rfl, ?_, hfb.trans hwb, fun h => hp ?_⟩
  · exact ite_congr_iff (resultOk_iff v) rfl rfl
  · rw [hwc]
    exact hst.trans h

end

/-! ### Starts, replays and ends -/

section
variable {s : State} {i : Nat} {sad : BitVec 1} {r : Run}

theorem endRun_eq (h : s.run i = some r) (v : BitVec 8) (ix : Nat) : s.endRun i v ix = (s.setRun i none).finishRun r v ix := by
  unfold State.endRun
  rw [h]

theorem runsNow_eq (h : RunsOn s sad r) : s.runsNow sad.toNat = some r := by
  obtain ⟨hr, hp, ha⟩ := h
  unfold State.runsNow
  rw [hr, Option.filter_some, if_pos (by rw [hp, ha, decide_eq_true rfl, decide_eq_true rfl]; rfl)]

theorem runsNow_some (h : s.runsNow i = some r) : s.run i = some r ∧ r.phase = .running ∧ s.tile.active.toNat = i := by
  unfold State.runsNow at h
  rw [Option.filter_eq_some_iff] at h
  obtain ⟨hr, hp⟩ := h
  simp only [Bool.and_eq_true, decide_eq_true_eq] at hp
  exact ⟨hr, hp⟩

theorem startRun_leaves (h : s.run i = some r) : (s.startRun i).run i =
    some { r with phase := .running, goCount := s.gcount, snaps := r.snaps.set 0 (snapOf (s.sad i).status) } ∧
    ((s.startRun i).ctx r.ctx).runSt = .running := by
  unfold State.startRun
  rw [h]
  exact ⟨run_setRun .., congrArg Ctx.runSt (State.ctx_setCtx ..)⟩

theorem replayRun_eq {n tau : Nat} (h : s.run i = some r) (hh : r.halt = some (.charge n tau 0)) (ha : r.abandon = none) :
    s.replayRun i = ((s.modSad i fun d =>
      { d with status := (r.snap n d.status).restore d.status }).setRun i (some (r.replay n tau))).pmcAdd 6 1 := by
  unfold State.replayRun
  rw [h]
  dsimp only
  rw [hh]
  dsimp only
  rw [ha]
  rfl

theorem completeRun_charged {n tau : Nat} {v : BitVec 8} (h : s.run i = some r) (hh : r.halt = some (.charge n tau v)) (hv : v ≠ 0) :
    s.completeRun i = (s.setRun i none).finishRun r v n := by
  unfold State.completeRun
  rw [h]
  dsimp only
  rw [hh]
  exact (if_pos hv).trans (endRun_eq h v n)

theorem completeRun_done (h : s.run i = some r) (hh : r.halt = none) (ht : r.todo = []) (ha : r.abandon = none) :
    s.completeRun i = (s.setRun i none).finishRun r r.goodEnd.1 r.goodEnd.2 := by
  unfold State.completeRun
  rw [h]
  dsimp only
  rw [hh, ht, ha]
  exact endRun_eq h ..

theorem goodEnd_first (h : r.replayed = []) : r.goodEnd = (1, r.image.runs.length - 1) := by
  unfold Run.goodEnd
  rw [h]

/-- The largest of some numbers. -/
theorem foldl_max (n : Nat) (ns : List Nat) : ns.foldl max n ∈ n :: ns ∧ ∀ k ∈ n :: ns, k ≤ ns.foldl max n := by
  induction ns generalizing n with
  | nil => exact ⟨List.mem_singleton_self n, fun k hk => Nat.le_of_eq (List.mem_singleton.mp hk)⟩
  | cons x xs ih =>
    obtain ⟨hm, hle⟩ := ih (max n x)
    rw [List.foldl_cons]
    constructor
    · obtain hm | hm := List.mem_cons.mp hm
      · rw [hm]
        obtain h | h := Nat.le_total n x
        · rw [Nat.max_eq_right h]
          simp
        · rw [Nat.max_eq_left h]
          simp
      · exact List.mem_cons_of_mem _ (List.mem_cons_of_mem _ hm)
    · intro k hk
      have htop := hle _ List.mem_cons_self
      obtain rfl | hk := List.mem_cons.mp hk
      · exact Nat.le_trans (Nat.le_max_left ..) htop
      · obtain rfl | hk := List.mem_cons.mp hk
        · exact Nat.le_trans (Nat.le_max_right ..) htop
        · exact hle k (List.mem_cons_of_mem _ hk)

theorem goodEnd_replayed (h : r.replayed ≠ []) : ∃ ix ∈ r.replayed, (∀ k ∈ r.replayed, k ≤ ix) ∧ r.goodEnd = (2, ix) := by
  unfold Run.goodEnd
  split
  next hn => exact absurd hn h
  next n ns hn =>
    rw [hn]
    obtain ⟨hm, hle⟩ := foldl_max n ns
    exact ⟨_, hm, hle, rfl⟩

theorem limitRun_limit {n : Nat} (h : s.run i = some r) (hh : r.halt = some (.limit n)) :
    s.limitRun i = (s.setRun i none).finishRun r 5 n := by
  unfold State.limitRun
  rw [h]
  dsimp only
  rw [hh]
  exact endRun_eq h ..

theorem limitRun_memory (h : s.run i = some r) (hh : r.halt = none) (hv : r.image.namesVaddr = true) :
    s.limitRun i = (s.setRun i none).finishRun r 5 r.firstOpen := by
  unfold State.limitRun
  rw [h]
  dsimp only
  rw [hh, hv]
  exact endRun_eq h ..

theorem takeAbandon_eq {v : BitVec 8} (h : s.run i = some r) (ha : r.abandon = some v) (hh : r.halt = none) :
    s.takeAbandon i = (s.setRun i none).finishRun r v r.firstOpen := by
  unfold State.takeAbandon
  rw [h]
  dsimp only
  rw [ha, hh]
  exact endRun_eq h ..

/-! ### An instruction of a run (R222, R223) -/

theorem setRun_same (s : State) (i : Nat) (x : Option Run) : (s.setRun i x).tile = s.tile ∧ (s.setRun i x).mem = s.mem ∧
    (s.setRun i x).buf = s.buf := by
  unfold State.setRun
  split <;> exact ⟨rfl, rfl, rfl⟩

theorem operation_beginRun (n start : Nat) (t : TileRec) (hw : HwFault) : (r.beginRun n start t).operation hw = r.operation hw := by
  unfold Run.beginRun
  split <;> rfl

/-- How far an image has come. -/
def progress (r : Run) : Cursor × List Part × List (Nat × Nat × BitVec 8) × RunPhase := (r.cursor, r.todo, r.charged, r.phase)

theorem progress_addPoison (bad : List (Nat × Nat × Nat)) : progress (r.addPoison bad) = progress r := by
  unfold Run.addPoison
  split
  · rfl
  · split <;> rfl

theorem beginRun_keeps (n start : Nat) (t : TileRec) : ∃ x y, r.beginRun n start t = { r with runStart := x, snaps := y } := by
  unfold Run.beginRun
  split <;> exact ⟨_, _, rfl⟩

theorem mayStart_run (h : s.mayStart i = true) (hr : s.run i = some r) : r.phase = .running ∧ ∃ p ps, r.todo = p :: ps := by
  unfold State.mayStart at h
  split at h
  · exact absurd h Bool.false_ne_true
  next u hu =>
    obtain ⟨hu1, hu2, _⟩ := runsNow_some hu
    cases hr.symm.trans hu1
    refine ⟨hu2, ?_⟩
    cases ht : r.todo with
    | nil => simp [ht] at h
    | cons p ps => exact ⟨p, ps, rfl⟩

/-- R223: an instruction that detects no error, and meets none of the hardware. -/
theorem startInsn_leaves {after : Nat} (hm : s.mayStart i = true) (hr : s.run i = some r)
    (he : ((r.operation .none).perform i s).errs = []) :
    let p := (r.operation .none).perform i s
    ∃ u : Run, (s.startInsn i .none after).run i = some u ∧
      (u.cursor, u.todo) = r.image.advance r.cursor r.todo ∧ u.charged = r.charged ∧ u.phase = .running ∧
      (s.startInsn i .none after).tile = p.s.tile ∧ (s.startInsn i .none after).mem = p.s.mem ∧
      (s.startInsn i .none after).buf = p.s.buf := by
  obtain ⟨hp, q, qs, ht⟩ := mayStart_run hm hr
  intro p
  obtain ⟨u, hu, hc⟩ : ∃ u : Run, s.startInsn i .none after = p.s.setRun i (some u) ∧
      progress u = ((r.image.advance r.cursor r.todo).1, (r.image.advance r.cursor r.todo).2, r.charged, r.phase) := by
    unfold State.startInsn
    rw [hr]
    dsimp only
    rw [ht]
    dsimp only
    rw [if_neg (by decide)]
    simp only [operation_beginRun, he, List.filter_nil, State.chargeErrors, List.foldl_nil, State.runBufCorrected]
    refine ⟨_, rfl, ?_⟩
    obtain ⟨x, y, hb⟩ := beginRun_keeps (r := r) q.run ((r.clock.at q).start (r.ready.timed q.run)) (s.sad i).status
    rw [hb, ← ht]
    exact progress_addPoison _
  obtain ⟨h1, h2, h3⟩ := setRun_same p.s i (some u)
  obtain ⟨hcur, htodo, hch, hph⟩ : u.cursor = _ ∧ u.todo = _ ∧ u.charged = _ ∧ u.phase = _ := by
    simpa only [progress, Prod.mk.injEq] using hc
  rw [hu]
  exact ⟨u, run_setRun .., Prod.ext hcur htodo, hch, hph.trans hp, h1, h2, h3⟩

/-! ### Preemption and pause (R230, R231, R237) -/

theorem setActive_run (u : State) (k j : Nat) : (u.setActive k).run j = u.run j := rfl

theorem switchOut_leaves (h : RunsOn s sad r) (hh : r.halt = none) (ha : r.abandon = none) (hp : r.pauseReq = false)
    (ht : r.todo ≠ []) (hd : s.preemptDue sad.toNat = true) : let t := s.switchOut sad.toNat
    t.tile.active = ~~~sad ∧ t.tile.reinL = [] ∧ t.tile.reinR = [] ∧
    t.run sad.toNat = some { r with phase := .preempted, preempts := r.preempts + 1 } ∧ (t.ctx r.ctx).runSt = .preempted := by
  have hte : r.todo.isEmpty = false := by rwa [List.isEmpty_eq_false_iff]
  obtain ⟨u, hu⟩ : ∃ u : State, u = s.setRun sad.toNat (some { r with phase := .preempted, preempts := r.preempts + 1 }) := ⟨_, rfl⟩
  have hs : s.switchOut sad.toNat =
      (u.setActive (1 - sad.toNat)).modCtx r.ctx fun e => { e with runSt := .preempted } := by
    unfold State.switchOut
    rw [runsNow_eq h]
    dsimp only
    rw [if_pos (by rw [hh, ha, hp, hte, hd]; rfl), hu]
  have hb : ∀ b : BitVec 1, BitVec.ofNat 1 (1 - b.toNat) = ~~~b := by decide
  rw [hs]
  exact ⟨hb sad, rfl, rfl, (congrArg (fun u : State => u.run sad.toNat) hu).trans (run_setRun ..), congrArg Ctx.runSt (State.ctx_setCtx ..)⟩

theorem switchBack_leaves (h : s.run sad.toNat = some r) (hp : r.phase = .preempted) (hb : r.holdBack = false)
    (hq : s.otherQuiet sad.toNat = true) : let t := s.switchBack sad.toNat
    t.tile.active = sad ∧ t.run sad.toNat = some { r with phase := .running } ∧ (t.ctx r.ctx).runSt = .running := by
  obtain ⟨u, hu⟩ : ∃ u : State, u = s.setRun sad.toNat (some { r with phase := .running }) := ⟨_, rfl⟩
  have hs : s.switchBack sad.toNat = (u.setActive sad.toNat).modCtx r.ctx fun e => { e with runSt := .running } := by
    unfold State.switchBack
    rw [h]
    dsimp only
    rw [if_pos (by rw [hp, hb, hq]; rfl), hu]
  rw [hs]
  exact ⟨BitVec.ofNat_toNat .. |>.trans (BitVec.setWidth_eq _), (congrArg (fun u : State => u.run sad.toNat) hu).trans (run_setRun ..),
    congrArg Ctx.runSt (State.ctx_setCtx ..)⟩

theorem takePause_leaves (h : RunsOn s sad r) (hp : r.pauseReq = true) (hh : r.halt = none) (ha : r.abandon = none)
    (ht : r.todo ≠ []) : let t := s.takePause sad.toNat
    t.run sad.toNat = some r.pause ∧ (t.ctx r.ctx).runSt = .preempted := by
  have hte : r.todo.isEmpty = false := by rwa [List.isEmpty_eq_false_iff]
  have hs : s.takePause sad.toNat = (s.setRun sad.toNat (some r.pause)).modCtx r.ctx fun e => { e with runSt := .preempted } := by
    unfold State.takePause
    rw [runsNow_eq h]
    dsimp only
    rw [if_pos (by rw [hh, ha, hp, hte]; rfl)]
  rw [hs]
  exact ⟨run_setRun .., congrArg Ctx.runSt (State.ctx_setCtx ..)⟩

end

/-- Settles O28. -/
theorem runEvents : Obligations.RunEvents := by
  unfold Obligations.RunEvents
  refine ⟨fun sad hw after s r n tau v hl => ?_, fun s r v ix => finishRun_leaves s r v ix, fun sad s r hl => ?_⟩
  · intro i ends
    have hrun (h : RunsOn s sad r) : (s.runsNow sad.toNat).isSome = true := by rw [runsNow_eq h]; rfl
    have hend (h : RunsOn s sad r) : Machine.exec (.runEnd sad) s = .next (s.completeRun i) :=
      eventStep_runs (f := fun s => s.completeRun sad.toNat) hl (hrun h)
    have hlim (h : RunsOn s sad r) : Machine.exec (.runTimingLimit sad) s = .next (s.limitRun i) :=
      eventStep_runs (f := fun s => s.limitRun sad.toNat) hl (hrun h)
    have hins (hw : HwFault) (h : s.mayStart i = true) :
        Machine.exec (.runInsnStart sad hw after) s = .next (s.startInsn i hw after.toNat) :=
      eventStep_runs (f := fun s => s.startInsn sad.toNat hw after.toNat) hl h
    refine ⟨fun hr ha hs => ⟨s.startRun i, ?_, startRun_leaves hr⟩, hins hw, fun hm hr => ?_, fun h hh ha => ?_,
      fun h hh ht ha => ⟨fun he => ?_, fun he => ?_⟩, fun h hh hv => ?_, fun h hh => ?_, fun h hh hv => ?_, fun hr ha hh => ?_⟩
    · exact eventStep_runs (f := fun s => s.startRun sad.toNat) hl (by rw [hs, decide_eq_true ha]; rfl)
    · intro p he
      obtain ⟨u, hu⟩ := startInsn_leaves (after := after.toNat) hm hr he
      exact ⟨_, u, hins .none hm, hu⟩
    · exact (eventStep_runs (f := fun s => s.replayRun sad.toNat) hl (hrun h)).trans (congrArg _ (replayRun_eq h.1 hh ha))
    · exact (hend h).trans (congrArg _ (by rw [completeRun_done h.1 hh ht ha, goodEnd_first he]))
    · obtain ⟨ix, hi, hle, hg⟩ := goodEnd_replayed he
      exact ⟨ix, hi, hle, (hend h).trans (congrArg _ (by rw [completeRun_done h.1 hh ht ha, hg]))⟩
    · exact (hend h).trans (congrArg _ (completeRun_charged h.1 hh hv))
    · exact (hlim h).trans (congrArg _ (limitRun_limit h.1 hh))
    · exact (hlim h).trans (congrArg _ (limitRun_memory h.1 hh hv))
    · exact (eventStep_runs (f := fun s => s.takeAbandon sad.toNat) hl rfl).trans (congrArg _ (takeAbandon_eq hr ha hh))
  · exact ⟨fun h hh ha hp ht hd => ⟨_, eventStep_runs (f := fun s => s.switchOut sad.toNat) hl rfl, switchOut_leaves h hh ha hp ht hd⟩,
      fun h hp hb hq => ⟨_, eventStep_runs (f := fun s => s.switchBack sad.toNat) hl rfl, switchBack_leaves h hp hb hq⟩,
      fun h hp hh ha ht => by
        obtain ⟨h1, h2⟩ := takePause_leaves h hp hh ha ht
        exact ⟨_, eventStep_runs (f := fun s => s.takePause sad.toNat) hl rfl, h1, rfl, h2⟩⟩

end Sys2Proof.Machine
end

section
/-! PROOFS. The scheduler (R261, R265 to R267, R301, R451). -/

namespace Sys2Proof.Machine

/-! ### Operations that leave dispatch and stalls as they are -/

/-- The core is as it was, but for its TLB, the context state array and the decision that an event makes due. -/
def CoreKept (s t : State) : Prop := ∃ tlb ctxs due, t.core = { s.core with tlb := tlb, ctxs := ctxs, decideDue := due }

section
variable {s t u : State}

theorem CoreKept.of_core (h : t.core = s.core) : CoreKept s t := ⟨_, _, _, h⟩

theorem CoreKept.refl (s : State) : CoreKept s s := .of_core rfl

theorem CoreKept.trans (h : CoreKept s t) (h' : CoreKept t u) : CoreKept s u := by
  obtain ⟨_, _, _, h⟩ := h
  obtain ⟨a, b, c, h'⟩ := h'
  exact ⟨a, b, c, by rw [h', h]⟩

/-- Composition with the last step first. -/
theorem CoreKept.after (h' : CoreKept t u) (h : CoreKept s t) : CoreKept s u := h.trans h'

theorem CoreKept.switchTo (h : CoreKept s t) : t.core.switchTo = s.core.switchTo := by
  obtain ⟨_, _, _, h⟩ := h
  rw [h]

theorem CoreKept.stall (h : CoreKept s t) (k : Nat) : t.stall k = s.stall k := by
  obtain ⟨_, _, _, h⟩ := h
  rw [State.stall, h, State.stall]

theorem Accessed.coreKept (h : Accessed s t) : CoreKept s t := by
  obtain ⟨_, _, _, _, _, _, _, _, _, rfl⟩ := h
  exact ⟨_, _, _, rfl⟩

theorem UnitAccessed.coreKept (h : UnitAccessed s t) : CoreKept s t := by
  obtain ⟨_, _, _, _, _, _, _, _, _, _, rfl⟩ := h
  exact ⟨_, _, _, rfl⟩

theorem modCtx_coreKept (s : State) (n : Nat) (f : Ctx → Ctx) : CoreKept s (s.modCtx n f) := ⟨_, _, _, rfl⟩

theorem foldl_coreKept {α : Type} {f : State → α → State} (h : ∀ s x, CoreKept s (f s x)) (xs : List α) (s : State) :
    CoreKept s (xs.foldl f s) :=
  foldl_keeps (P := CoreKept s) (fun b x hb => hb.trans (h b x)) xs s (.refl s)

end

section
variable (s : State)

theorem raiseEvent_coreKept (c k : Nat) : CoreKept s (s.raiseEvent c k) := (raiseEvent_accessed s c k).coreKept

theorem record_coreKept (r : ErrRec) : CoreKept s (s.record r) := (record_accessed s r).coreKept

theorem pmcAdd_coreKept (n k : Nat) : CoreKept s (s.pmcAdd n k) := by
  unfold State.pmcAdd
  split <;> exact .of_core rfl

theorem setRun_coreKept (i : Nat) (r : Option Run) : CoreKept s (s.setRun i r) := by
  unfold State.setRun
  split <;> exact .of_core rfl

theorem imagePoison_coreKept (r : Run) (ix : Nat) : CoreKept s (s.imagePoison r ix) := by
  unfold State.imagePoison
  split
  · exact .refl s
  · exact record_coreKept ..

theorem finishRun_coreKept (r : Run) (result : BitVec 8) (ix : Nat) : CoreKept s (s.finishRun r result ix) := by
  have report : ∀ s : State, CoreKept s (let t := (s.pmcAdd 5 1).raiseEvent r.ctx 2
      if result = 0x0B then t.pendGroom 50 else t) := fun s => by
    have h := (pmcAdd_coreKept s 5 1).trans (raiseEvent_coreKept (s.pmcAdd 5 1) r.ctx 2)
    dsimp only
    split
    · exact h.trans (.of_core rfl)
    · exact h
  refine (report _).after ((modCtx_coreKept ..).after ((imagePoison_coreKept s r ix).trans ?_))
  split <;> exact .of_core rfl

theorem endRun_coreKept (i : Nat) (result : BitVec 8) (ix : Nat) : CoreKept s (s.endRun i result ix) := by
  unfold State.endRun
  split
  · exact .refl s
  · exact (setRun_coreKept s i none).trans (finishRun_coreKept ..)

theorem abandonOf_coreKept (c : Nat) (result : BitVec 8) : CoreKept s (s.abandonOf c result) := by
  unfold State.abandonOf State.abandonRun State.endParked
  split
  · split
    · exact .refl s
    · split
      any_goals exact endRun_coreKept ..
      all_goals
        split
        · exact setRun_coreKept ..
        · exact .refl s
  · split
    · exact .refl s
    · exact (finishRun_coreKept ..).after (.of_core rfl)

theorem putRecord_coreKept (q : Nat) (seq : BitVec 32) (status value : Nat) (c : Option Nat) :
    CoreKept s (s.putRecord q seq status value c) := by
  have hr := (unitRead_accessed s (s.qEntryPa q seq) 8 c).coreKept
  unfold State.putRecord
  obtain ⟨x, hx⟩ : ∃ x, x = s.unitRead (s.qEntryPa q seq) 8 c := ⟨_, rfl⟩
  rw [← hx] at hr ⊢
  obtain ⟨tag, bad, s1⟩ := x
  exact hr.trans ((unitWrite_unit ..).coreKept.trans (.of_core rfl))

theorem failEntries_coreKept (q status : Nat) (is : List Nat) : CoreKept s (State.failEntries q status is s) := by
  induction is generalizing s with
  | nil => exact .refl s
  | cons i is ih => exact (putRecord_coreKept ..).trans (ih _)

theorem failInFlight_coreKept (p : Nat → Bool) (status : Nat) : CoreKept s (s.failInFlight p status).2 :=
  foldl_keeps (P := fun r : Nat × State => CoreKept s r.2)
    (fun r e h => h.trans ((failEntries_coreKept r.2 e.1 status _).trans (.of_core rfl))) _ _ (.refl s)

theorem completeDesc_coreKept (c : Nat) (d : StreamD) (status : Nat) : CoreKept s (s.completeDesc c d status) := by
  have hn : ∀ s : State, CoreKept s (if d.notify then s.raiseEvent c 3 else s) := fun s => by
    split
    · exact raiseEvent_coreKept s c 3
    · exact .refl s
  refine .trans ?_ (hn _)
  split
  · exact (unitWrite_unit ..).coreKept.after (.of_core rfl)
  · exact .of_core rfl

theorem cancelSlot_coreKept (k : Nat) : CoreKept s (s.cancelSlot k) := by
  unfold State.cancelSlot
  dsimp only
  split
  · exact (completeDesc_coreKept ..).trans (.of_core rfl)
  · exact .of_core rfl

theorem closeWindow_coreKept (w : Nat) (spoil : Bool) : CoreKept s (s.closeWindow w spoil) := by
  unfold State.closeWindow
  dsimp only
  split <;> exact .of_core rfl

theorem stopItemsOf_coreKept (c : Nat) : CoreKept s (stopItemsOf c s) := by
  have hd (s : State) : CoreKept s (s.dropRanges c) := (modCtx_coreKept ..).after (.of_core rfl)
  have hs (s : State) : CoreKept s (s.cancelStreams fun d => d = c) :=
    foldl_coreKept (fun s (e : Nat × StreamSlot) => cancelSlot_coreKept s e.1) _ s
  have hw (s : State) : CoreKept s (s.closeOwned c) := foldl_coreKept (fun s (p : Nat × Window) => closeWindow_coreKept s p.1 true) _ s
  have h := (abandonOf_coreKept s c 0x0B).trans ((failInFlight_coreKept _ (fun h => h = c) 0x8002).trans
    ((hd _).trans ((hs _).trans (hw _))))
  exact h.trans ⟨_, _, _, rfl⟩

/-- A stop names no context as the next to be dispatched. -/
theorem stopContext_switchTo (c cause : Nat) (h : s.core.switchTo = none) : (s.stopContext c cause).2.core.switchTo = none := by
  obtain ⟨u, hu⟩ : ∃ u : State, u = ((if s.core.disp = .ctx c then { s with core := { s.core with disp := .idle } } else s).abandonWait
      c).freeStallOf c := ⟨_, rfl⟩
  obtain ⟨v, hv⟩ : ∃ v : State, v = u.modCtx c fun e =>
    { e with mode := .stopped, pend := 0, stopCause := BitVec.ofNat 16 cause, inWait := false } := ⟨_, rfl⟩
  obtain ⟨w, hw⟩ : ∃ w : State, w = { v with core := { v.core with
      switchTo := if v.core.switchTo = some c then none else v.core.switchTo,
      fills := v.core.fills.filter fun f => f.1 ≠ c,
      reserve := { v.core.reserve with requests := v.core.reserve.requests.filter (· ≠ c) } } } := ⟨_, rfl⟩
  have he : (s.stopContext c cause).2 = stopItemsOf c w := by
    rw [hw, hv, hu]
    rfl
  have hus : u.core.switchTo = none := by
    rw [hu, ← h]
    unfold State.freeStallOf
    split <;> split <;> rfl
  have hws : w.core.switchTo = none := by
    rw [hw, hv]
    show (if u.core.switchTo = some c then none else u.core.switchTo) = none
    rw [hus]
    rfl
  rw [he, (stopItemsOf_coreKept w c).switchTo, hws]

end

/-! ### The choice of a decision (R265) -/

section
variable {s : State}

/-- The context that runs. -/
def runningCtxs (s : State) : List Nat :=
  match s.curCtx with
  | some n => if (s.ctx n).mode = .running then [n] else []
  | none => []

theorem mem_runningCtxs {c : Nat} : c ∈ runningCtxs s ↔ s.curCtx = some c ∧ (s.ctx c).mode = .running := by
  unfold runningCtxs
  split
  next n hn =>
    rw [hn, Option.some.injEq]
    split
    next hm =>
      rw [List.mem_singleton]
      exact ⟨fun h => ⟨h.symm, h.symm ▸ hm⟩, fun h => h.1.symm⟩
    next hm => exact ⟨fun h => absurd h List.not_mem_nil, fun h => absurd (h.1 ▸ h.2) hm⟩
  next hn =>
    rw [hn]
    exact ⟨fun h => absurd h List.not_mem_nil, fun h => absurd h.1.symm (Option.some_ne_none c)⟩

/-- The smallest of some numbers. -/
theorem foldl_min (n : Nat) (ns : List Nat) : ns.foldl min n ∈ n :: ns ∧ ∀ k ∈ n :: ns, ns.foldl min n ≤ k := by
  induction ns generalizing n with
  | nil => exact ⟨List.mem_singleton_self n, fun k hk => Nat.le_of_eq (List.mem_singleton.mp hk).symm⟩
  | cons x xs ih =>
    obtain ⟨hm, hle⟩ := ih (min n x)
    rw [List.foldl_cons]
    constructor
    · obtain hm | hm := List.mem_cons.mp hm
      · rw [hm]
        obtain h | h := Nat.le_total n x
        · rw [Nat.min_eq_left h]
          simp
        · rw [Nat.min_eq_right h]
          simp
      · exact List.mem_cons_of_mem _ (List.mem_cons_of_mem _ hm)
    · intro k hk
      have htop := hle _ List.mem_cons_self
      obtain rfl | hk := List.mem_cons.mp hk
      · exact Nat.le_trans htop (Nat.min_le_left ..)
      · obtain rfl | hk := List.mem_cons.mp hk
        · exact Nat.le_trans htop (Nat.min_le_right ..)
        · exact hle k (List.mem_cons_of_mem _ hk)

/-- The least recent of some contexts is one of them, and of no later stamp than any. -/
theorem leastRecent_spec (cs : List Nat) : (s.leastRecent cs = none → cs = []) ∧ ∀ b, s.leastRecent cs = some b →
    b ∈ cs ∧ ∀ c ∈ cs, (s.ctx b).stamp ≤ (s.ctx c).stamp := by
  induction cs with
  | nil => exact ⟨fun _ => rfl, fun b h => absurd h (Option.some_ne_none b).symm⟩
  | cons x xs ih =>
    obtain ⟨hn, hs⟩ := ih
    rw [State.leastRecent]
    split
    next h =>
      rw [hn h]
      refine ⟨fun h => absurd h (Option.some_ne_none x), fun b hb => ?_⟩
      cases hb
      exact ⟨List.mem_singleton_self x, fun c hc => (List.mem_singleton.mp hc) ▸ Nat.le_refl _⟩
    next y hy =>
      obtain ⟨hm, hle⟩ := hs y hy
      split
      next hlt =>
        refine ⟨fun h => absurd h (Option.some_ne_none y), fun b hb => ?_⟩
        cases hb
        refine ⟨List.mem_cons_of_mem _ hm, fun c hc => ?_⟩
        obtain rfl | hc := List.mem_cons.mp hc
        · exact Nat.le_of_lt hlt
        · exact hle c hc
      next hlt =>
        refine ⟨fun h => absurd h (Option.some_ne_none x), fun b hb => ?_⟩
        cases hb
        refine ⟨List.mem_cons_self, fun c hc => ?_⟩
        obtain rfl | hc := List.mem_cons.mp hc
        · exact Nat.le_refl _
        · exact Nat.le_trans (Nat.not_lt.mp hlt) (hle c hc)

/-- The contexts of a list whose PRIO is `lo`. -/
def ofPrio (s : State) (lo : Nat) (cs : List Nat) : List Nat := cs.filter fun c => (s.ctx c).prio.toNat = lo

theorem mem_ofPrio {lo c : Nat} {cs : List Nat} : c ∈ ofPrio s lo cs ↔ c ∈ cs ∧ (s.ctx c).prio.toNat = lo := by
  simp [ofPrio]

/-- R265: the choice, where `run` holds the running context. -/
def bestOf (s : State) (run : List Nat) : Option Nat :=
  match (s.readyCtxs ++ run).map fun c => (s.ctx c).prio.toNat with
  | [] => none
  | p :: ps =>
    match ofPrio s (ps.foldl min p) run with
    | r :: _ => if s.core.sliceExpired then some ((s.leastRecent (ofPrio s (ps.foldl min p) s.readyCtxs)).getD r) else some r
    | [] => s.leastRecent (ofPrio s (ps.foldl min p) s.readyCtxs)

theorem best_eq (s : State) : s.best = bestOf s (runningCtxs s) := rfl

/-- R265: of the contexts that a decision chooses from, whose lowest PRIO is `lo`, it chooses the running one or the least recent
READY one. -/
def chosen (s : State) (lo : Nat) : Option Nat :=
  match ofPrio s lo (runningCtxs s) with
  | r :: _ => if s.core.sliceExpired then some ((s.leastRecent (ofPrio s lo s.readyCtxs)).getD r) else some r
  | [] => s.leastRecent (ofPrio s lo s.readyCtxs)

theorem best_cases (s : State) : (s.best = none ∧ s.readyCtxs ++ runningCtxs s = []) ∨ ∃ lo,
    (∃ c ∈ s.readyCtxs ++ runningCtxs s, (s.ctx c).prio.toNat = lo) ∧
    (∀ c ∈ s.readyCtxs ++ runningCtxs s, lo ≤ (s.ctx c).prio.toNat) ∧ s.best = chosen s lo := by
  rw [best_eq, bestOf]
  cases hl : (s.readyCtxs ++ runningCtxs s).map fun c => (s.ctx c).prio.toNat with
  | nil => exact .inl ⟨rfl, List.map_eq_nil_iff.mp hl⟩
  | cons p ps =>
    obtain ⟨hm, hle⟩ := foldl_min p ps
    rw [← hl] at hm hle
    exact .inr ⟨ps.foldl min p, List.mem_map.mp hm, fun c hc => hle _ (List.mem_map_of_mem hc), rfl⟩

theorem chosen_some {lo : Nat} (h : ∃ c ∈ s.readyCtxs ++ runningCtxs s, (s.ctx c).prio.toNat = lo) : ∃ b, chosen s lo = some b := by
  unfold chosen
  split
  · split <;> exact ⟨_, rfl⟩
  next hn =>
    obtain ⟨c, hc, hp⟩ := h
    have hr : c ∈ ofPrio s lo s.readyCtxs := by
      obtain hc | hc := List.mem_append.mp hc
      · exact mem_ofPrio.mpr ⟨hc, hp⟩
      · exact absurd (hn ▸ mem_ofPrio.mpr ⟨hc, hp⟩) List.not_mem_nil
    cases hb : s.leastRecent (ofPrio s lo s.readyCtxs) with
    | none => exact absurd (((leastRecent_spec _).1 hb) ▸ hr) List.not_mem_nil
    | some b => exact ⟨b, rfl⟩

/-- R265: the chosen context has the lowest PRIO; it is the running one, unless a slice has expired beside a READY one; and else
the least recent READY one. -/
theorem chosen_spec {lo b : Nat} (h : chosen s lo = some b) : (s.ctx b).prio.toNat = lo ∧
    (b ∈ runningCtxs s ∧ (s.core.sliceExpired = true → ofPrio s lo s.readyCtxs = []) ∨
      b ∈ s.readyCtxs ∧ (s.core.sliceExpired = true ∨ ofPrio s lo (runningCtxs s) = []) ∧
        ∀ c ∈ ofPrio s lo s.readyCtxs, (s.ctx b).stamp ≤ (s.ctx c).stamp) := by
  obtain ⟨hn, hs⟩ := leastRecent_spec (s := s) (ofPrio s lo s.readyCtxs)
  have hready (x : Nat) (hx : s.leastRecent (ofPrio s lo s.readyCtxs) = some x) : (s.ctx x).prio.toNat = lo ∧ x ∈ s.readyCtxs ∧
      ∀ c ∈ ofPrio s lo s.readyCtxs, (s.ctx x).stamp ≤ (s.ctx c).stamp := by
    obtain ⟨hm, hle⟩ := hs x hx
    obtain ⟨hr, hp⟩ := mem_ofPrio.mp hm
    exact ⟨hp, hr, hle⟩
  unfold chosen at h
  split at h
  next r rs hr =>
    obtain ⟨hrm, hrp⟩ := mem_ofPrio.mp (hr ▸ List.mem_cons_self : r ∈ ofPrio s lo (runningCtxs s))
    split at h
    next he =>
      cases hx : s.leastRecent (ofPrio s lo s.readyCtxs) with
      | none =>
        rw [hx] at h
        cases h
        exact ⟨hrp, .inl ⟨hrm, fun _ => hn hx⟩⟩
      | some x =>
        rw [hx] at h
        cases h
        obtain ⟨h1, h2, h3⟩ := hready _ hx
        exact ⟨h1, .inr ⟨h2, .inl he, h3⟩⟩
    next he =>
      cases h
      exact ⟨hrp, .inl ⟨hrm, fun he' => absurd he' he⟩⟩
  next hr =>
    obtain ⟨h1, h2, h3⟩ := hready b h
    exact ⟨h1, .inr ⟨h2, .inr hr, h3⟩⟩

/-- R265: what a decision chooses. -/
theorem best_spec (s : State) : let runs := fun (c : Nat) => s.curCtx = some c ∧ (s.ctx c).mode = .running
    let cand := fun (c : Nat) => c ∈ s.readyCtxs ∨ runs c
    (s.best = none → ∀ c, ¬ cand c) ∧
    ∀ b, s.best = some b → cand b ∧ (∀ c, cand c → (s.ctx b).prio.toNat ≤ (s.ctx c).prio.toNat) ∧
      (∀ n, runs n → (s.ctx n).prio = (s.ctx b).prio → s.core.sliceExpired = false → b = n) ∧
      (s.core.sliceExpired = true → (∃ c ∈ s.readyCtxs, (s.ctx c).prio = (s.ctx b).prio) → b ∈ s.readyCtxs) ∧
      (¬ runs b → ∀ c ∈ s.readyCtxs, (s.ctx c).prio = (s.ctx b).prio → (s.ctx b).stamp ≤ (s.ctx c).stamp) := by
  intro runs cand
  have hcand (c : Nat) : c ∈ s.readyCtxs ++ runningCtxs s ↔ cand c := by
    rw [List.mem_append, mem_runningCtxs]
  obtain ⟨hn, he⟩ | ⟨lo, hlo, hle, hb⟩ := best_cases s
  · exact ⟨fun _ c hc => absurd (he ▸ (hcand c).mpr hc) List.not_mem_nil, fun b hb => absurd (hn.symm.trans hb) (Option.some_ne_none b).symm⟩
  · obtain ⟨b0, hb0⟩ := chosen_some hlo
    refine ⟨fun hn => absurd ((hb.symm.trans hn).symm.trans hb0) (Option.some_ne_none b0).symm, fun b hbb => ?_⟩
    obtain ⟨hp, hc⟩ := chosen_spec (hb.symm.trans hbb)
    have hprio (c : Nat) (h : (s.ctx c).prio = (s.ctx b).prio) : (s.ctx c).prio.toNat = lo := by rw [h, hp]
    refine ⟨?_, fun c h => hp.symm ▸ hle c ((hcand c).mpr h), fun n hn hpn hx => ?_, fun hx ⟨c, hcr, hcp⟩ => ?_, fun hnr c hcr hcp => ?_⟩
    · exact hc.elim (fun h => .inr (mem_runningCtxs.mp h.1)) fun h => .inl h.1
    · obtain ⟨hbr, _⟩ | ⟨_, hor, _⟩ := hc
      · exact Option.some.inj ((mem_runningCtxs.mp hbr).1.symm.trans hn.1)
      · obtain h | h := hor
        · exact absurd (hx.symm.trans h) Bool.false_ne_true
        · exact absurd (h ▸ mem_ofPrio.mpr ⟨mem_runningCtxs.mpr hn, hprio n hpn⟩) List.not_mem_nil
    · obtain ⟨_, hex⟩ | ⟨hbr, _⟩ := hc
      · exact absurd (hex hx ▸ mem_ofPrio.mpr ⟨hcr, hprio c hcp⟩) List.not_mem_nil
      · exact hbr
    · obtain ⟨hbr, _⟩ | ⟨_, _, hst⟩ := hc
      · exact absurd (mem_runningCtxs.mp hbr) hnr
      · exact hst c (mem_ofPrio.mpr ⟨hcr, hprio c hcp⟩)

end

/-! ### Decisions (R265) -/

section
variable {s : State} {b k j : Nat}

/-- The core as a decision begins. -/
def decided (s : State) : State := { s with core := { s.core with decideDue := false, switchTo := none } }

theorem wantStall_fills {c : Nat} (hn : ∀ f ∈ s.core.fills, f.1 ≠ c) (hf : s.freeStall = some j) :
    s.wantStall c = { s with core := { s.core with fills := s.core.fills ++ [(c, j)] } } := by
  unfold State.wantStall
  rw [if_neg (by rw [List.any_eq_true]; exact fun ⟨f, hf, hc⟩ => hn f hf (of_decide_eq_true hc)), hf]

theorem wantStall_overflows {c : Nat} (hn : ∀ f ∈ s.core.fills, f.1 ≠ c) (hf : s.freeStall = none)
    (hr : c ∉ s.core.reserve.requests) : s.wantStall c =
      { s with core := { s.core with reserve := { s.core.reserve with requests := s.core.reserve.requests ++ [c] } } } := by
  unfold State.wantStall
  rw [if_neg (by rw [List.any_eq_true]; exact fun ⟨f, hf, hc⟩ => hn f hf (of_decide_eq_true hc)), hf]
  exact if_neg (by simpa using hr)

theorem wantLocked_none (h : s.core.ctxs.all (fun p => !p.2.lock) = true) : s.wantLocked = s := by
  unfold State.wantLocked
  rw [List.find?_eq_none.mpr fun p hp => by simp [by simpa using List.all_eq_true.mp h p hp]]

theorem wantLocked_some {p : Nat × Ctx}
    (h : s.core.ctxs.find? (fun p => p.2.lock && p.2.stall.isNone && p.2.mode = .ready) = some p) : s.wantLocked = s.wantStall p.1 := by
  unfold State.wantLocked
  rw [h]

theorem schedule_reserve (h : s.core.disp = .reserve) : s.schedule = decided s := by
  unfold State.schedule
  rw [h]
  rfl

/-- A decision outside the reserve stall that chooses context `b`. -/
theorem schedule_best (h : s.core.disp ≠ .reserve) (hb : s.best = some b) : s.schedule =
    if (s.ctx b).stall.isNone then (decided s).wantLocked.wantStall b
    else if s.curCtx = some b then { (decided s).wantLocked with core := { (decided s).wantLocked.core with sliceExpired := false } }
    else { (decided s).wantLocked with core := { (decided s).wantLocked.core with switchTo := some b } } := by
  unfold State.schedule
  rw [hb]
  cases hd : s.core.disp with
  | reserve => exact absurd hd h
  | idle => rfl
  | ctx n => rfl

theorem schedule_switches (h : s.core.disp ≠ .reserve) (hc : s.curCtx ≠ some b) (hb : s.best = some b) (hk : (s.ctx b).stall = some k)
    (hl : s.core.ctxs.all (fun p => !p.2.lock) = true) :
    s.schedule = { s with core := { s.core with decideDue := false, switchTo := some b } } := by
  rw [schedule_best h hb, hk, if_neg (by rw [Option.isNone_some]; exact Bool.false_ne_true), if_neg hc, wantLocked_none (s := decided s) hl]
  rfl

theorem schedule_asks (h : s.core.disp ≠ .reserve) (hb : s.best = some b) (hk : (s.ctx b).stall = none)
    (hl : s.core.ctxs.all (fun p => !p.2.lock) = true) : s.schedule = (decided s).wantStall b := by
  rw [schedule_best h hb, hk, wantLocked_none (s := decided s) hl]
  rfl

/-- A context marked LOCK asks for a stall, whichever resident context is chosen. -/
theorem fills_schedule_locked {p : Nat × Ctx} (h : s.core.disp ≠ .reserve) (hb : s.best = some b) (hk : (s.ctx b).stall = some k)
    (hp : s.core.ctxs.find? (fun p => p.2.lock && p.2.stall.isNone && p.2.mode = .ready) = some p)
    (hn : ∀ f ∈ s.core.fills, f.1 ≠ p.1) (hf : s.freeStall = some j) :
    s.schedule.core.fills = s.core.fills ++ [(p.1, j)] := by
  have hw : (decided s).wantLocked.core.fills = s.core.fills ++ [(p.1, j)] := by
    rw [wantLocked_some (s := decided s) hp, wantStall_fills (s := decided s) hn hf]
    rfl
  rw [schedule_best h hb, hk, if_neg (by rw [Option.isNone_some]; exact Bool.false_ne_true)]
  split <;> exact hw

end

/-! ### The switch (R266, R301) -/

section
variable {s : State} {b k n : Nat}

theorem switch_stays (h : s.core.switchTo = none) : s.switch = s := by
  unfold State.switch
  rw [h]
  split <;> simp_all

theorem switch_dispatches (hd : s.core.disp ≠ .reserve) (h : s.core.switchTo = some b) (hk : (s.ctx b).stall = some k)
    (hm : (s.ctx b).mode = .ready) : s.switch = s.dispatch b k := by
  unfold State.switch
  rw [h]
  cases hx : s.core.disp with
  | reserve => exact absurd hx hd
  | idle =>
    dsimp only
    rw [hk, hm]
  | ctx n =>
    dsimp only
    rw [hk, hm]

/-- R263: the entry of a context at its dispatch. -/
def dispatchedCtx (now : Nat) (e : Ctx) : Ctx :=
  { (if e.inWait then e.consume else e) with mode := .running, stamp := now, inWait := false }

/-- R266: the core at a dispatch, but for the outgoing context. -/
def dispatched (u : State) (b k : Nat) : State :=
  let s3 := (u.modCtx b (dispatchedCtx u.now)).loadInUse b k
  { s3 with core := { s3.core with disp := .ctx b, switchTo := none, dispatchedAt := u.now, sliceExpired := false } }

theorem undispatch_now (s : State) : s.undispatch.now = s.now := by
  unfold State.undispatch
  split <;> rfl

theorem dispatch_eq (s : State) (b k : Nat) : s.dispatch b k = (dispatched s.undispatch b k).pmcAdd 2 1 := by
  unfold dispatched
  rw [undispatch_now]
  rfl

theorem pmcAdd_core (u : State) (n k : Nat) : (u.pmcAdd n k).core = u.core := by
  unfold State.pmcAdd
  split <;> rfl

theorem pmcAdd_stall (u : State) (n k j : Nat) : (u.pmcAdd n k).stall j = u.stall j := by
  rw [State.stall, pmcAdd_core, State.stall]

theorem ctx_loadInUse (u : State) (b k : Nat) : (u.loadInUse b k).ctx b = { u.ctx b with
    useAsid := (u.stall k).loadInUse.useAsid, useRoot := (u.stall k).loadInUse.useRoot } := by
  unfold State.loadInUse
  have hs : (u.modStall k Stall.loadInUse).stall k = (u.stall k).loadInUse := State.stall_setStall ..
  dsimp only
  rw [State.modCtx, State.ctx_setCtx, hs]
  rfl

theorem ctx_dispatched (u : State) (b k : Nat) : (dispatched u b k).ctx b = { dispatchedCtx u.now (u.ctx b) with
    useAsid := (u.stall k).loadInUse.useAsid, useRoot := (u.stall k).loadInUse.useRoot } := by
  refine (ctx_loadInUse (u.modCtx b (dispatchedCtx u.now)) b k).trans ?_
  rw [show (u.modCtx b (dispatchedCtx u.now)).ctx b = dispatchedCtx u.now (u.ctx b) from State.ctx_setCtx ..]
  rfl

theorem ctx_dispatched_other (u : State) (b k : Nat) {m : Nat} (h : m ≠ b) : (dispatched u b k).ctx m = u.ctx m :=
  (Tbl.get_set_other _ _ _ h).trans (Tbl.get_set_other _ _ _ h)

theorem stall_dispatched (u : State) (b k : Nat) : (dispatched u b k).stall k = (u.stall k).loadInUse := State.stall_setStall ..

theorem undispatch_idle (h : s.core.disp = .idle) : s.undispatch = s := by
  have hc : s.curCtx = none := by rw [State.curCtx, h]
  unfold State.undispatch
  rw [hc]
  dsimp only
  rw [← h]

/-- R266: the outgoing context. -/
theorem undispatch_running (h : s.core.disp = .ctx n) (hm : (s.ctx n).mode = .running) :
    s.undispatch.ctx n = { s.ctx n with mode := .ready, waitAt := none, askedRanges := [] } ∧
    ∀ m, m ≠ n → s.undispatch.ctx m = s.ctx m := by
  have hc : s.curCtx = some n := by rw [State.curCtx, h]
  have hw : (s.abandonWait n).ctx n = { s.ctx n with waitAt := none, askedRanges := [] } := State.ctx_setCtx ..
  unfold State.undispatch
  rw [hc]
  dsimp only
  refine ⟨(State.ctx_setCtx ..).trans ?_, fun m hne => (Tbl.get_set_other _ _ _ hne).trans (Tbl.get_set_other _ _ _ hne)⟩
  rw [hw]
  dsimp only
  rw [if_pos hm]

/-- R266, R301: a dispatch in an idle core. -/
theorem dispatch_idle (h : s.core.disp = .idle) (hi : (s.ctx b).inWait = false) : let t := s.dispatch b k
    t.core.disp = .ctx b ∧ t.core.switchTo = none ∧ t.core.dispatchedAt = s.now ∧ t.core.sliceExpired = false ∧
    t.stall k = (s.stall k).loadInUse ∧
    t.ctx b = { s.ctx b with
      mode := .running, stamp := s.now, useAsid := (s.stall k).loadInUse.useAsid, useRoot := (s.stall k).loadInUse.useRoot } ∧
    ∀ m, m ≠ b → t.ctx m = s.ctx m := by
  rw [dispatch_eq, undispatch_idle h]
  intro t
  have hcore : t.core = (dispatched s b k).core := pmcAdd_core ..
  have hctx (m : Nat) : t.ctx m = (dispatched s b k).ctx m := pmcAdd_ctx ..
  refine ⟨congrArg Core.disp hcore, congrArg Core.switchTo hcore, congrArg Core.dispatchedAt hcore, congrArg Core.sliceExpired hcore,
    (pmcAdd_stall ..).trans (stall_dispatched ..), (hctx b).trans ((ctx_dispatched s b k).trans ?_), fun m hm =>
    (hctx m).trans (ctx_dispatched_other s b k hm)⟩
  rw [dispatchedCtx, hi, if_neg Bool.false_ne_true, ← hi]

/-- R266: a dispatch in the place of another context. -/
theorem dispatch_replaces (h : s.core.disp = .ctx n) (hm : (s.ctx n).mode = .running) (hne : n ≠ b) : let t := s.dispatch b k
    t.core.disp = .ctx b ∧ (t.ctx b).mode = .running ∧ (t.ctx b).stamp = s.now ∧ (t.ctx b).inWait = false ∧
    (t.ctx n).mode = .ready ∧ (t.ctx n).stall = (s.ctx n).stall ∧ (t.ctx n).waitAt = none := by
  rw [dispatch_eq]
  intro t
  have hcore : t.core = (dispatched s.undispatch b k).core := pmcAdd_core ..
  have hctx (m : Nat) : t.ctx m = (dispatched s.undispatch b k).ctx m := pmcAdd_ctx ..
  rw [hctx b, hctx n, ctx_dispatched, ctx_dispatched_other _ _ _ hne, (undispatch_running h hm).1, undispatch_now]
  exact ⟨congrArg Core.disp hcore, rfl, rfl, rfl, rfl, rfl, rfl⟩

/-! ### Errors of the arrays (R451) -/

theorem exec_switch {e : StallErr} (hl : s.live = true) (hd : s.dispatching = true) :
    Machine.exec (.contextSwitch e) s = .next ((s.stallError e).switch) :=
  eventStep_runs (f := fun s => (s.stallError e).switch) hl hd

theorem stopByError_switchTo (c cause : Nat) (r : ErrRec) (h : s.core.switchTo = none) : (s.stopByError c cause r).core.switchTo = none :=
  ((record_coreKept ..).switchTo).trans (stopContext_switchTo s c cause h)

theorem stopByError_stops (s : State) (c cause : Nat) (r : ErrRec) : ((s.stopByError c cause r).ctx c).mode = .stopped ∧
    ((s.stopByError c cause r).ctx c).stopCause = BitVec.ofNat 16 cause := by
  obtain ⟨hm, hc⟩ := stopContext_stopped s c cause
  obtain ⟨hm', hc'⟩ := staysStopped_record (s.stopContext c cause).2 { r with items := BitVec.ofNat 32 (s.stopContext c cause).1 } c hm
  exact ⟨hm', hc'.trans hc⟩

theorem arrayStop_eq {c : Nat} (e : Ecc) (h : (s.ctx c).started = true) : ∃ r, s.arrayStop c e =
    (s.record (.ecc e 0x102 4 5 (some c))).stopByError c 0x83 r := by
  unfold State.arrayStop
  rw [if_pos h]
  exact ⟨_, rfl⟩

theorem arrayStop_leaves {c : Nat} (e : Ecc) (h : (s.ctx c).started = true) (ht : s.core.switchTo = none) :
    (s.arrayStop c e).core.switchTo = none ∧ ((s.arrayStop c e).ctx c).mode = .stopped ∧
    ((s.arrayStop c e).ctx c).stopCause = 0x83 := by
  obtain ⟨r, hr⟩ := arrayStop_eq e h
  rw [hr]
  exact ⟨stopByError_switchTo c _ r (((record_coreKept ..).switchTo).trans ht), stopByError_stops ..⟩

/-- R451: an error in a general register. -/
theorem register_leaves (j : BitVec 5) {r : Reg} (e : Ecc) (hr : r ≠ 0) : let t := s.stallError (.register j r e)
    t.core.switchTo = s.core.switchTo ∧
    (t.stall j.toNat).reg r.toNat = ⟨((s.stall j.toNat).reg r.toNat).data, .poison⟩ ∧ t.ras = s.ras ∧
    ∀ i, i ≠ r.toNat → (t.stall j.toNat).reg i = (s.stall j.toNat).reg i := by
  have hr0 : r.toNat ≠ 0 := fun h => hr (BitVec.eq_of_toNat_eq h)
  obtain ⟨t, ht⟩ : ∃ t, t = s.stallError (.register j r e) := ⟨_, rfl⟩
  rw [← ht]
  rw [State.stallError, if_neg hr] at ht
  obtain ⟨v, hv⟩ : ∃ v : TVal, v = ⟨((s.stall j.toNat).reg r.toNat).data, .poison⟩ := ⟨_, rfl⟩
  have hregs : (t.stall j.toNat).regs = (s.stall j.toNat).regs.set r.toNat v := by
    rw [ht]
    refine (congrArg Stall.regs (State.stall_setStall ..)).trans ?_
    show ((s.stall j.toNat).setReg r.toNat ⟨((s.stall j.toNat).reg r.toNat).data, .poison⟩).regs = _
    unfold Stall.setReg
    rw [if_neg hr0, hv]
  refine ⟨by rw [ht]; rfl, ?_, by rw [ht]; rfl, fun i hi => ?_⟩
  · rw [Stall.reg, if_neg hr0, hregs, Tbl.get_set_same, hv]
  · rw [Stall.reg, Stall.reg, hregs, Tbl.get_set_other _ _ _ hi]

/-- R267: a slice as it expires. -/
def sliceBody (s : State) : State :=
  match s.curCtx with
  | some n =>
    let slice := (s.cfgAct 2 0).toNat
    if slice ≠ 0 ∧ slice ≤ s.now - s.core.dispatchedAt ∧ (s.readyCtxs.any fun c => (s.ctx c).prio = (s.ctx n).prio) then
      ({ s with core := { s.core with sliceExpired := true } }).trigger
    else s
  | none => s

theorem sliceExpiry_expires (h : s.core.disp = .ctx n) (h0 : s.cfgAct 2 0 ≠ 0) (hs : (s.cfgAct 2 0).toNat ≤ s.now - s.core.dispatchedAt)
    (ha : s.readyCtxs.any (fun c => (s.ctx c).prio = (s.ctx n).prio) = true) (hl : s.live = true) :
    Machine.exec .sliceExpiry s = .next { s with core := { s.core with sliceExpired := true, decideDue := true } } := by
  have hn0 : (s.cfgAct 2 0).toNat ≠ 0 := fun h => h0 (BitVec.eq_of_toNat_eq h)
  have hc : s.curCtx = some n := by rw [State.curCtx, h]
  refine (eventStep_runs (f := sliceBody) hl rfl).trans (congrArg _ ?_)
  unfold sliceBody
  rw [hc]
  exact if_pos ⟨hn0, hs, ha⟩

end

/-- Settles O29. -/
theorem schedulerEvents : Obligations.SchedulerEvents := by
  unfold Obligations.SchedulerEvents
  refine ⟨best_spec, fun s b n k j p hl => ⟨fun h hb hk hp hn hf => fills_schedule_locked h hb hk hp hn hf,
    fun hd h hne hm ht hk hr => ?_⟩, fun s b k n c hl => ⟨fun hd hs => ?_, fun h hc hb hk hL => schedule_switches h hc hb hk hL,
    fun h => schedule_reserve h, fun h hb hk hL hn => ?_, fun hd h ht hk hm hi => ?_, fun hd ht => ⟨fun e => ?_, fun j r e hr => ?_,
    fun e j hj hres hst => ?_, fun e hst => ?_⟩, fun h h0 hs ha => sliceExpiry_expires h h0 hs ha hl, fun ht hs => ?_⟩⟩
  · refine ⟨_, exec_switch hl hd, ?_⟩
    rw [show s.stallError .none = s from rfl, switch_dispatches (by rw [h]; exact Disp.noConfusion) ht hk hr]
    exact dispatch_replaces h hm hne
  · exact eventStep_runs (f := State.schedule) hl (by rw [hd, hs]; rfl)
  · intro u asked
    rw [schedule_asks h hb hk hL]
    exact ⟨fun hf => wantStall_fills (s := decided s) hn hf, fun hf hr => wantStall_overflows (s := decided s) hn hf hr⟩
  · obtain ⟨h1, h2, h3, h4, h5, h6, h7⟩ := dispatch_idle (s := s) (k := k) h hi
    refine ⟨s.dispatch b k, (exec_switch hl hd).trans (congrArg _ ?_), h1, h2, h3, h4, h5, rfl, ⟨rfl, h6⟩, h7⟩
    exact switch_dispatches (s := s) (by rw [h]; exact Disp.noConfusion) ht hk hm
  · rw [exec_switch hl hd]
    exact congrArg _ (switch_stays ((record_coreKept ..).switchTo.trans ht))
  · obtain ⟨h1, h2⟩ := register_leaves (s := s) j e hr
    exact ⟨_, (exec_switch hl hd).trans (congrArg _ (switch_stays (h1.trans ht))), h2⟩
  · obtain ⟨h1, h2, h3⟩ := arrayStop_leaves e hst ht
    refine ⟨?_, h2, h3⟩
    have he : s.stallError (.control j e) = s.arrayStop b e := by
      unfold State.stallError
      dsimp only
      rw [if_neg hj, hres]
    rw [exec_switch hl hd, he, switch_stays h1]
  · obtain ⟨h1, h2, _⟩ := arrayStop_leaves e hst ht
    exact ⟨(exec_switch hl hd).trans (congrArg _ (switch_stays h1)), h2⟩
  · exact eventStep_runs (f := fun s => (s.modCtx c.toNat fun e => { e with evmask := e.evmask.putBit 8 false }).raiseEvent
      c.toNat 1) hl (by rw [ht, hs]; rfl)

end Sys2Proof.Machine
end

section
/-! PROOFS. Alerts, fills of a stall and overflows (R269, R271, R275, R277). -/

namespace Sys2Proof.Machine

/-! ### Fields of a context's entry that events and records leave as they are -/

section
variable {α : Type} {f : Ctx → α}

/-- What `f` reads of each context's entry is as it was. -/
def FieldKept (f : Ctx → α) (s t : State) : Prop := ∀ c, f (t.ctx c) = f (s.ctx c)

theorem FieldKept.refl (s : State) : FieldKept f s s := fun _ => rfl

theorem FieldKept.trans {s t u : State} (h : FieldKept f s t) (h' : FieldKept f t u) : FieldKept f s u := fun c => (h' c).trans (h c)

theorem FieldKept.of_core {s t : State} (h : t.core = s.core) : FieldKept f s t := fun c => by
  rw [State.ctx, h, State.ctx]

theorem fieldKept_setCtx (s : State) (n : Nat) {x : Ctx} (h : f x = f (s.ctx n)) : FieldKept f s (s.setCtx n x) := fun c => by
  by_cases hc : c = n
  · subst hc
    rw [State.ctx_setCtx, h]
  · rw [State.ctx_setCtx_other _ _ hc]

theorem readRequests_core (s : State) (lines : List Nat) : (s.readRequests lines).core = s.core := by
  refine foldl_keeps (P := fun t : State => t.core = s.core) (fun t ls ht => ?_) _ s rfl
  unfold State.maLines
  split
  · exact ht
  · exact ht

section
variable (hf : ∀ (e : Ctx) m p a, f { e with mode := m, pend := p, alert := a } = f e) (s : State)
include hf

theorem fieldKept_raiseEvent (c k : Nat) : FieldKept f s (s.raiseEvent c k) := by
  unfold State.raiseEvent
  dsimp only
  split
  · refine (fieldKept_setCtx s c ?_).trans (t := s.setCtx c _) (fun _ => rfl)
    split
    · exact hf (s.ctx c) _ _ _
    · exact hf (s.ctx c) _ _ _
  · exact .refl s

theorem fieldKept_raiseAlert (c b : Nat) : FieldKept f s (s.raiseAlert c b) := by
  unfold State.raiseAlert
  split
  · exact (fieldKept_setCtx s c (hf (s.ctx c) _ _ _)).trans (fieldKept_raiseEvent hf _ c 6)
  · exact .refl s

theorem fieldKept_record (r : ErrRec) : FieldKept f s (s.record r) := fun c => by
  unfold State.ctx
  rw [record_core]
  split
  · rfl
  · exact fieldKept_raiseAlert hf s _ 1 c

theorem fieldKept_unitRead (pa n : Nat) (c : Option Nat) : FieldKept f s (s.unitRead pa n c).2.2 := by
  unfold State.unitRead
  refine foldl_keeps (P := fun r : List Byte × Bool × State => FieldKept f s r.2.2) (fun r x h => h.trans ?_) _ _ (.refl s)
  have hq : FieldKept f r.2.2 (r.2.2.readRequests [(pa + x.1) / 128]) := .of_core (readRequests_core ..)
  dsimp only
  split
  · exact hq.trans (fieldKept_record hf (r.2.2.readRequests [(pa + x.1) / 128]) _)
  · exact hq

theorem fieldKept_readArea (pa : Nat) (c : Option Nat) : FieldKept f s (s.readArea pa c).2 := by
  unfold State.readArea
  exact foldl_keeps (P := fun r : Area × State => FieldKept f s r.2)
    (fun r i h => h.trans (fieldKept_unitRead hf r.2 (pa + 16 * i) 16 c)) _ _ (.refl s)

end

end

theorem readArea_coreKept (s : State) (pa : Nat) (c : Option Nat) : CoreKept s (s.readArea pa c).2 := by
  unfold State.readArea
  exact foldl_keeps (P := fun r : Area × State => CoreKept s r.2)
    (fun r i h => h.trans (unitRead_accessed r.2 (pa + 16 * i) 16 c).coreKept) _ _ (.refl s)

/-! ### Fills (R275, R277) -/

section
variable {s : State} {c k : Nat}

/-- R277: the fill is no longer under way. -/
def fillRead (c k : Nat) (u : State) : State := { u with core := { u.core with fills := u.core.fills.filter fun f => f ≠ (c, k) } }

section
variable {lo hi : Area} {s1 s2 : State}
  (h1 : s.readArea (s.ctx c).saveLo (some c) = (lo, s1)) (h2 : s1.readArea (s.ctx c).saveHi (some c) = (hi, s2))
include h1 h2

theorem fillStall_eq (k : Nat) : ∃ r, s.fillStall c k =
    if fillOk lo hi c && (s.ctx c).stall.isNone then
      ((((fillRead c k s2).setStall k ((fillRead c k s2).bindInUse c (hi.loadUpper (lo.loadLower Stall.fresh)))).modCtx c
        fun e => { e with stall := some k })).trigger
    else (fillRead c k s2).stopByError c 0x83 r := by
  unfold State.fillStall
  dsimp only
  rw [h1]
  dsimp only
  rw [h2]
  exact ⟨_, rfl⟩

theorem fillRead_fills : (fillRead c k s2).core.fills = s.core.fills.filter fun f => f ≠ (c, k) := by
  have hk := readArea_coreKept s (s.ctx c).saveLo (some c)
  have hk' := readArea_coreKept s1 (s.ctx c).saveHi (some c)
  rw [h1] at hk
  rw [h2] at hk'
  obtain ⟨_, _, _, h⟩ := hk.trans hk'
  show s2.core.fills.filter (fun f => f ≠ (c, k)) = _
  rw [h]

theorem fillRead_inUse (t : Stall) : (fillRead c k s2).bindInUse c t = s.bindInUse c t := by
  have hk := fieldKept_readArea (f := fun e => (e.useAsid, e.useRoot)) (fun _ _ _ _ => rfl) s (s.ctx c).saveLo (some c)
  have hk' := fieldKept_readArea (f := fun e => (e.useAsid, e.useRoot)) (fun _ _ _ _ => rfl) s1 (s.ctx c).saveHi (some c)
  rw [h1] at hk
  rw [h2] at hk'
  obtain ⟨ha, hr⟩ := Prod.ext_iff.mp ((hk.trans hk') c)
  show ({ t with useAsid := (s2.ctx c).useAsid, useRoot := (s2.ctx c).useRoot } : Stall) = _
  rw [show (s2.ctx c).useAsid = (s.ctx c).useAsid from ha, show (s2.ctx c).useRoot = (s.ctx c).useRoot from hr, State.bindInUse]

theorem fillStall_binds (hok : fillOk lo hi c = true) (hn : (s.ctx c).stall = none) :
    ((s.fillStall c k).ctx c).stall = some k ∧ (s.fillStall c k).core.decideDue = true ∧
    (s.fillStall c k).core.fills = s.core.fills.filter (fun f => f ≠ (c, k)) ∧
    (s.fillStall c k).stall k = s.bindInUse c (hi.loadUpper (lo.loadLower Stall.fresh)) := by
  obtain ⟨r, hr⟩ := fillStall_eq h1 h2 k
  rw [if_pos (by rw [hok, hn]; rfl), fillRead_inUse h1 h2] at hr
  rw [hr, ← fillRead_fills h1 h2]
  exact ⟨congrArg Ctx.stall (State.ctx_setCtx ..), rfl, rfl, State.stall_setStall ..⟩

theorem fillStall_stops (h : fillOk lo hi c = false ∨ (s.ctx c).stall ≠ none) :
    ((s.fillStall c k).ctx c).mode = .stopped ∧ ((s.fillStall c k).ctx c).stopCause = 0x83 := by
  have hc : ¬(fillOk lo hi c && (s.ctx c).stall.isNone) = true := by
    rw [Bool.and_eq_true, Option.isNone_iff_eq_none]
    exact fun ⟨h1, h2⟩ => h.elim (fun h => absurd (h1.symm.trans h) (by decide)) fun h => h h2
  obtain ⟨r, hr⟩ := fillStall_eq h1 h2 k
  rw [hr, if_neg hc]
  exact stopByError_stops ..

end

end

/-! ### Overflows (R271) -/

section
variable {s : State} {c v k : Nat} {cs : List Nat}

/-- R271: g1 to g4 of the reserve stall. -/
def overflowRegs (c more : Nat) (a : Word × Word) (t : Stall) : Stall :=
  (((t.setReg 1 (TVal.int (Word.ofNat c))).setReg 2 (TVal.int a.1)).setReg 3 (TVal.int a.2)).setReg 4 (TVal.int (Word.ofNat more))

theorem overflowRegs_reg (c more : Nat) (a : Word × Word) (t : Stall) : let u := overflowRegs c more a t
    u.reg 1 = ⟨BitVec.ofNat 64 c, .int⟩ ∧ u.reg 2 = ⟨a.1, .int⟩ ∧ u.reg 3 = ⟨a.2, .int⟩ ∧ u.reg 4 = ⟨BitVec.ofNat 64 more, .int⟩ ∧
    u.pc = t.pc ∧ u.cause = t.cause := by
  unfold overflowRegs
  refine ⟨?_, ?_, ?_, Stall.reg_setReg _ _ _ (by decide), rfl, rfl⟩
  · rw [Stall.reg_setReg_other _ _ (by decide), Stall.reg_setReg_other _ _ (by decide), Stall.reg_setReg_other _ _ (by decide),
      Stall.reg_setReg _ _ _ (by decide)]
    rfl
  · rw [Stall.reg_setReg_other _ _ (by decide), Stall.reg_setReg_other _ _ (by decide), Stall.reg_setReg _ _ _ (by decide)]
    rfl
  · rw [Stall.reg_setReg_other _ _ (by decide), Stall.reg_setReg _ _ _ (by decide)]
    rfl

/-- R271: how many other READY contexts have no stall. -/
def otherReady (s : State) (c : Nat) : Nat := (s.core.ctxs.filter fun p => p.2.mode = .ready && p.2.stall.isNone && p.1 ≠ c).length

theorem victimArgs_keeps (s : State) : ∃ n, s.victimArgs.2 = { s with free := n } := by
  unfold State.victimArgs
  split <;> exact ⟨_, rfl⟩

theorem victimArgs_victim (h : s.victim = some (v, k)) : s.victimArgs.1 = (Word.ofNat k, Word.ofNat v) := by
  unfold State.victimArgs
  rw [h]

theorem overflowArgs_leaves (s : State) (c : Nat) : let t := s.overflowArgs c
    t.core.disp = s.core.disp ∧ t.core.reserve.current = some c ∧ t.core.reserve.requests = s.core.reserve.requests ∧
    t.stall 31 = overflowRegs c (otherReady s c) s.victimArgs.1 (s.stall 31) := by
  obtain ⟨n, hn⟩ := victimArgs_keeps s
  have he : s.overflowArgs c = (let s1 := s.victimArgs.2.modStall 31 (overflowRegs c (otherReady s c) s.victimArgs.1)
    { s1 with core := { s1.core with reserve := { s1.core.reserve with current := some c } } }) := rfl
  rw [he, hn]
  exact ⟨rfl, rfl, rfl, State.stall_setStall ..⟩

theorem enterReserve_idle (h : s.core.disp = .idle) (code : Nat) : let t := s.enterReserve code
    t.core.disp = .reserve ∧ t.core.reserve.requests = s.core.reserve.requests ∧ t.core.ctxs = s.core.ctxs ∧
    t.stall 31 = ({ s.stall 31 with pc := (s.stall 31).tvec, cause := Word.ofNat code, tval := 0,
                                    status := (s.stall 31).status ||| 1 } : Stall).loadInUse := by
  unfold State.enterReserve
  rw [undispatch_idle h]
  exact ⟨rfl, rfl, rfl, State.stall_setStall ..⟩

theorem leastRecent_congr {t : State} (h : ∀ c, (t.ctx c).stamp = (s.ctx c).stamp) (l : List Nat) :
    t.leastRecent l = s.leastRecent l := by
  induction l with
  | nil => rfl
  | cons x xs ih => rw [State.leastRecent, State.leastRecent, ih, h x]; simp only [h]

theorem victim_congr {t : State} (h : t.core.ctxs = s.core.ctxs) : t.victim = s.victim := by
  have hc (c : Nat) : t.ctx c = s.ctx c := by rw [State.ctx, h, State.ctx]
  unfold State.victim
  rw [h, leastRecent_congr (s := s) fun c => by rw [hc]]
  simp only [hc]

/-- R271: an overflow. -/
def overflowBody (s : State) : State :=
  match s.liveRequests with
  | [] => { s with core := { s.core with reserve := { s.core.reserve with requests := [] } } }
  | c :: cs =>
    let s1 := { s with core := { s.core with reserve := { s.core.reserve with requests := cs } } }
    ((s1.enterReserve 0x80).overflowArgs c).pmcAdd 3 1

theorem overflowBody_leaves (hd : s.core.disp = .idle) (hr : s.liveRequests = c :: cs) : let t := overflowBody s
    t.core.disp = .reserve ∧ t.core.reserve.current = some c ∧ t.core.reserve.requests = cs ∧
    (t.stall 31).pc = (s.stall 31).tvec ∧ (t.stall 31).cause = 0x80 ∧ (t.stall 31).reg 1 = ⟨BitVec.ofNat 64 c, .int⟩ ∧
    (s.victim = some (v, k) → (t.stall 31).reg 2 = ⟨BitVec.ofNat 64 k, .int⟩ ∧ (t.stall 31).reg 3 = ⟨BitVec.ofNat 64 v, .int⟩) ∧
    (t.stall 31).reg 4 = ⟨BitVec.ofNat 64 (otherReady s c), .int⟩ := by
  obtain ⟨s1, hs1⟩ : ∃ s1, s1 = { s with core := { s.core with reserve := { s.core.reserve with requests := cs } } } := ⟨_, rfl⟩
  obtain ⟨u, hu⟩ : ∃ u, u = s1.enterReserve 0x80 := ⟨_, rfl⟩
  have he : overflowBody s = (u.overflowArgs c).pmcAdd 3 1 := by
    unfold overflowBody
    rw [hr, hu, hs1]
  obtain ⟨h1, h2, h3, h4⟩ := enterReserve_idle (s := s1) (by rw [hs1]; exact hd) 0x80
  rw [← hu] at h1 h2 h3 h4
  obtain ⟨g1, g2, g3, g4⟩ := overflowArgs_leaves u c
  obtain ⟨r1, r2, r3, r4, rp, rc⟩ := overflowRegs_reg c (otherReady u c) u.victimArgs.1 (u.stall 31)
  have hct : u.core.ctxs = s.core.ctxs := h3.trans (by rw [hs1])
  have hst : s1.stall 31 = s.stall 31 := by rw [hs1]; rfl
  have hmore : otherReady u c = otherReady s c := by rw [otherReady, hct, otherReady]
  rw [he]
  intro t
  have hcore : t.core = (u.overflowArgs c).core := pmcAdd_core ..
  have hstall : t.stall 31 = overflowRegs c (otherReady u c) u.victimArgs.1 (u.stall 31) := (pmcAdd_stall ..).trans g4
  rw [hcore, hstall]
  refine ⟨g1.trans h1, g2, g3.trans (h2.trans (by rw [hs1])), rp.trans ?_, rc.trans ?_, r1, fun hv => ?_, hmore ▸ r4⟩
  · rw [h4, hst]
    rfl
  · rw [h4]
    rfl
  · have hva := victimArgs_victim ((victim_congr hct).trans hv)
    exact ⟨r2.trans (by rw [hva]; rfl), r3.trans (by rw [hva]; rfl)⟩

/-! ### Alerts (R269), and the fill that began first (R277) -/

/-- R277: the fill that began first completes. -/
def fillBody (s : State) : State :=
  match s.core.fills with
  | (c, k) :: _ => s.fillStall c k
  | [] => s

theorem fillBody_first {fs : List (Nat × Nat)} (h : s.core.fills = (c, k) :: fs) : fillBody s = s.fillStall c k := by
  unfold fillBody
  rw [h]

/-- R269: an alert that is due. -/
def alertEntry (s : State) : State :=
  match s.curCtx, s.curStall with
  | some n, some k =>
    if s.alertDue n then s.trapEntry n k 0x81 0 .none true (Word.ofNat ((s.ctx n).alert.bits 31 0)) s.cur.pc else s
  | _, _ => s

theorem alertEntry_due {n : Nat} (hd : s.core.disp = .ctx n) (hk : s.curStall = some k) (hs : s.cur.status.bit 2 = true)
    (ha : (s.ctx n).alert.bits 3 0 ≠ 0) :
    alertEntry s = s.trapEntry n k 0x81 0 .none true (BitVec.ofNat 64 ((s.ctx n).alert.toNat % 2 ^ 32)) s.cur.pc := by
  have hc : s.curCtx = some n := by rw [State.curCtx, hd]
  have hdue : s.alertDue n = true := by
    rw [State.alertDue, hs, Bool.true_and]
    exact decide_eq_true ha
  unfold alertEntry
  rw [hc, hk]
  exact if_pos hdue

end

/-- Settles O30. -/
theorem stallEvents : Obligations.StallEvents := by
  unfold Obligations.StallEvents
  refine fun s n k c v cs fs hl => ⟨fun hd hk hs ha => ?_, fun hf => ?_, ?_, fun hr hd hi hq => ?_⟩
  · exact (eventStep_runs (f := alertEntry) hl rfl).trans (congrArg _ (alertEntry_due hd hk hs ha))
  · exact (eventStep_runs (f := fillBody) hl rfl).trans (congrArg _ (fillBody_first hf))
  · intro lo s1 hi
    have h1 : s.readArea (s.ctx c).saveLo (some c) = (lo, s1) := (Prod.eta _).symm
    have h2 : s1.readArea (s.ctx c).saveHi (some c) = (hi, (s1.readArea (s.ctx c).saveHi (some c)).2) := (Prod.eta _).symm
    exact ⟨fillStall_binds h1 h2, fillStall_stops h1 h2⟩
  · refine ⟨overflowBody s, eventStep_runs (f := overflowBody) hl ?_, overflowBody_leaves hi hq⟩
    rw [hr, hd, Bool.and_self, Bool.true_and]
    exact decide_eq_true (by rw [hi]; exact Disp.noConfusion)

end Sys2Proof.Machine
end

section
/-! PROOFS. The events of the stream engines and of the range-check port (R340, R349 to R358). -/

namespace Sys2Proof.Machine

/-! ### Bytes that a move leaves (R358) -/

section
variable (src dst : Store) (a b n : Nat)

theorem byte_copyMarks (m x : Nat) : (copyMarks src dst a b m).byte x = dst.byte x := by
  induction m with
  | zero => rfl
  | succ m ih => rw [copyMarks, Store.byte_putMark, ih]

theorem read_length : (src.read a n).length = n := by
  rw [Store.read, List.length_map, List.length_range]

theorem byte_move_inside {i : Nat} (h : i < n) : (src.move dst a b n).byte (b + i) = src.byte (a + i) := by
  have hi : i < (src.read a n).length := by rwa [read_length]
  rw [Store.move, byte_copyMarks, Store.byte_putBytes_inside _ _ _ _ hi, List.getElem_of_eq rfl]
  simp only [Store.read, List.getElem_map, List.getElem_range]

theorem byte_move_outside {x : Nat} (h : x < b ∨ b + n ≤ x) : (src.move dst a b n).byte x = dst.byte x := by
  rw [Store.move, byte_copyMarks, Store.byte_putBytes_outside _ _ _ _ (by rwa [read_length])]

end

/-! ### What an engine acquires and releases (R351, R352) -/

section
variable (d : StreamD) (b : Buffer)

theorem acquire_keeps : ∃ g sb, d.acquire b = ({ d with granted := g }, { b with sb := sb }) := by
  unfold StreamD.acquire Buffer.tryAcquire
  split
  · exact ⟨d.granted, b.sb, rfl⟩
  · split
    next h =>
      split at h
      · cases h
        exact ⟨true, _, rfl⟩
      · exact absurd (congrArg Prod.fst h) Bool.false_ne_true
    · exact ⟨d.granted, b.sb, rfl⟩

theorem acquire_idle (h : d.granted = true ∨ d.rows ≤ d.rowsDone) : d.acquire b = (d, b) := by
  unfold StreamD.acquire
  rw [if_pos]
  obtain h | h := h
  · rw [h]
    rfl
  · rw [decide_eq_true h, Bool.or_true]

theorem byte_release (spoil : Bool) (x : Nat) : (d.release spoil b).store.byte x = b.store.byte x := by
  unfold StreamD.release Buffer.relWrite Buffer.relRead
  split
  · split
    · dsimp only
      split
      · exact Store.byte_putMarks ..
      · rfl
    · rfl
  · rfl

theorem sb_release {b c : Buffer} (spoil : Bool) (h : b.sb = c.sb) : (d.release spoil b).sb = (d.release spoil c).sb := by
  unfold StreamD.release Buffer.relWrite Buffer.relRead
  split
  · split
    · dsimp only
      split <;> exact congrArg (fun sb => sbUpdate sb d.interval.1 d.interval.2 SbState.relWrite) h
    · exact congrArg (fun sb => sbUpdate sb d.interval.1 d.interval.2 (SbState.relRead d.consume)) h
  · exact h

end

section
variable {s : State} {k : Nat} {d : StreamD}

theorem stream_setStream_other {j : Nat} (t : StreamSlot) (h : j ≠ k) : (s.setStream k t).stream j = s.stream j :=
  Tbl.get_set_other _ _ _ h

theorem engineAcquire_none (h : (s.stream k).act = none) : s.engineAcquire k = s := by
  unfold State.engineAcquire
  dsimp only
  rw [h]

theorem engineAcquire_some (h : (s.stream k).act = some d) : s.engineAcquire k =
    State.setStream { s with buf := (d.acquire s.buf).2 } k { s.stream k with act := some (d.acquire s.buf).1 } := by
  unfold State.engineAcquire
  dsimp only
  rw [h]

theorem engineAcquire_keeps (s : State) (k : Nat) : (s.engineAcquire k).mem = s.mem ∧ (s.engineAcquire k).core = s.core ∧
    (∀ j, j ≠ k → (s.engineAcquire k).stream j = s.stream j) ∧ ((s.engineAcquire k).stream k).shadow = (s.stream k).shadow := by
  cases h : (s.stream k).act with
  | none =>
    rw [engineAcquire_none h]
    exact ⟨rfl, rfl, fun _ _ => rfl, rfl⟩
  | some d =>
    rw [engineAcquire_some h]
    exact ⟨rfl, rfl, fun j hj => stream_setStream_other _ hj, (congrArg StreamSlot.shadow (State.stream_setStream ..)).trans rfl⟩

/-! ### A row (R349) -/

theorem moveRow_fills {r pa : Nat} (hp : s.rowPa d r = some pa) (hf : d.fills = true) : (s.moveRow d r).2 =
    { s with buf := { s.buf with store := s.mem.store.move s.buf.store pa (d.rowOff r) d.rowLen } } := by
  unfold State.moveRow
  rw [hp, hf]
  rfl

theorem moveRow_drains {r pa : Nat} (hp : s.rowPa d r = some pa) (hf : d.fills = false) : (s.moveRow d r).2 =
    if windowSpace (pa / 128) then s
    else { s with mem := { s.mem with store := s.buf.store.move s.mem.store (d.rowOff r) pa d.rowLen } } := by
  unfold State.moveRow
  rw [hp, hf]
  rfl

theorem moveRow_sb (r : Nat) : (s.moveRow d r).2.buf.sb = s.buf.sb := by
  unfold State.moveRow
  dsimp only
  split
  · split <;> rfl
  · split
    · rfl
    · dsimp only
      split <;> rfl

/-- The descriptor once a row is done. -/
def rowNext (d : StreamD) (x : Bool × Nat × Nat) : StreamD :=
  { d with
    granted := !d.lastHold, rowsDone := d.rowsDone + 1, pchunks := d.pchunks + x.2.1,
    firstBad := if d.pchunks = 0 then x.2.2 else d.firstBad, badRows := d.badRows + x.1.toNat }

/-- What the engine holds after a row. -/
def rowHeld (d : StreamD) (b : Buffer) : Buffer :=
  if d.lastHold then d.release (!d.flow && decide (d.rowsDone + 1 < d.rows)) b else b

theorem byte_rowHeld (b : Buffer) (x : Nat) : (rowHeld d b).store.byte x = b.store.byte x := by
  unfold rowHeld
  split
  · exact byte_release ..
  · rfl

theorem streamRow_leaves (s : State) (k : Nat) (t : StreamSlot) (d : StreamD) : ∃ e sb, let u := s.streamRow k t d
    let b := rowHeld d (s.moveRow d d.rowsDone).2.buf
    (rowNext d (s.moveRow d d.rowsDone).1).acquire b = (e, { b with sb := sb }) ∧
    u.mem = (s.moveRow d d.rowsDone).2.mem ∧ u.buf = { b with sb := sb } ∧ u.stream k = { t with act := some e } ∧
    (d.flow = true → (u.ctx t.ctx).flowCount = 0) := by
  obtain ⟨x, hx⟩ : ∃ x, x = s.moveRow d d.rowsDone := ⟨_, rfl⟩
  obtain ⟨s3, hs3⟩ : ∃ s3, s3 = State.setStream { x.2 with buf := rowHeld d x.2.buf } k { t with act := some (rowNext d x.1) } :=
    ⟨_, rfl⟩
  obtain ⟨s4, hs4⟩ : ∃ s4, s4 = if d.flow then s3.modCtx t.ctx fun e => { e with flowCount := 0, flowSince := s.now } else s3 :=
    ⟨_, rfl⟩
  have hk : (s4.stream k) = { t with act := some (rowNext d x.1) } ∧ s4.mem = x.2.mem ∧ s4.buf = rowHeld d x.2.buf := by
    rw [hs4]
    split
    all_goals
      rw [hs3]
      exact ⟨State.stream_setStream .., rfl, rfl⟩
  have hu : s.streamRow k t d = s4.engineAcquire k := by
    unfold State.streamRow
    dsimp only
    rw [← hx, hs4, hs3]
    unfold rowHeld rowNext
    obtain ⟨⟨ix, n, first⟩, s1⟩ := x
    dsimp only
    cases d.lastHold <;> rfl
  obtain ⟨hk, hm, hb⟩ := hk
  obtain ⟨g, sb, hacq⟩ := acquire_keeps (rowNext d x.1) (rowHeld d x.2.buf)
  have he := engineAcquire_some (s := s4) (k := k) (d := rowNext d x.1) (by rw [hk])
  rw [hb, hk, hacq] at he
  refine ⟨{ rowNext d x.1 with granted := g }, sb, ?_⟩
  rw [← hx, hu, he]
  refine ⟨hacq, hm, rfl, State.stream_setStream .., fun hf => ?_⟩
  rw [if_pos hf] at hs4
  show (s4.ctx t.ctx).flowCount = 0
  rw [hs4]
  exact congrArg Ctx.flowCount (State.ctx_setCtx ..)

/-- R349: a row that is moved. -/
theorem streamRow_moves {pa : Nat} (t : StreamSlot) (hp : s.rowPa d d.rowsDone = some pa) : let u := s.streamRow k t d
    (d.fills = true → u.mem = s.mem ∧
      (∀ i, i < d.rowLen → u.buf.store.byte (d.rowOff d.rowsDone + i) = s.mem.store.byte (pa + i)) ∧
      (∀ x, x < d.rowOff d.rowsDone ∨ d.rowOff d.rowsDone + d.rowLen ≤ x → u.buf.store.byte x = s.buf.store.byte x)) ∧
    (d.fills = false → (∀ x, u.buf.store.byte x = s.buf.store.byte x) ∧
      (windowSpace (pa / 128) = true → u.mem = s.mem) ∧
      (windowSpace (pa / 128) = false →
        (∀ i, i < d.rowLen → u.mem.store.byte (pa + i) = s.buf.store.byte (d.rowOff d.rowsDone + i)) ∧
        (∀ x, x < pa ∨ pa + d.rowLen ≤ x → u.mem.store.byte x = s.mem.store.byte x))) := by
  obtain ⟨e, sb, _, hm, hb, _, _⟩ := streamRow_leaves s k t d
  intro u
  have hbyte (x : Nat) : u.buf.store.byte x = (s.moveRow d d.rowsDone).2.buf.store.byte x := by
    rw [show u.buf = _ from hb]
    exact byte_rowHeld ..
  refine ⟨fun hf => ?_, fun hf => ?_⟩
  · have hr := moveRow_fills hp hf
    refine ⟨hm.trans (by rw [hr]), fun i hi => ?_, fun x hx => ?_⟩
    · rw [hbyte, hr]
      exact byte_move_inside _ _ _ _ _ hi
    · rw [hbyte, hr]
      exact byte_move_outside _ _ _ _ _ hx
  · have hr := moveRow_drains hp hf
    refine ⟨fun x => ?_, fun hw => ?_, fun hw => ?_⟩
    · rw [hbyte, hr]
      split <;> rfl
    · exact hm.trans (by rw [hr, if_pos hw])
    · rw [if_neg (by rw [hw]; decide)] at hr
      have hmem : u.mem = _ := hm
      rw [hmem, hr]
      exact ⟨fun i hi => byte_move_inside _ _ _ _ _ hi, fun x hx => byte_move_outside _ _ _ _ _ hx⟩

/-- R351: the last row gives up what the descriptor holds. -/
theorem streamRow_last (t : StreamSlot) (hf : d.flow = false) (hl : d.rowsDone + 1 = d.rows) : let u := s.streamRow k t d
    u.buf.sb = (d.release false s.buf).sb ∧ ∃ e, u.stream k = { t with act := some e } ∧ e.granted = false := by
  obtain ⟨e, sb, ha, _, hb, hk, _⟩ := streamRow_leaves s k t d
  have hlast : d.lastHold = true := by
    rw [StreamD.lastHold, decide_eq_true (hl ▸ Nat.le_refl _), Bool.or_true]
  rw [acquire_idle _ _ (.inr (show d.rows ≤ d.rowsDone + 1 from hl ▸ Nat.le_refl _))] at ha
  obtain ⟨rfl, hbuf⟩ := Prod.mk.inj ha
  intro u
  refine ⟨?_, _, hk, ?_⟩
  · rw [show u.buf = _ from hb.trans hbuf.symm]
    rw [rowHeld, if_pos hlast, hf, decide_eq_false (by omega : ¬ d.rowsDone + 1 < d.rows)]
    exact sb_release _ _ (moveRow_sb _)
  · show (!d.lastHold) = false
    rw [hlast]
    rfl

/-- R351: a row that is not the last keeps it. -/
theorem streamRow_between (t : StreamSlot) (hf : d.flow = false) (hc : d.cancel = false) (hl : d.rowsDone + 1 < d.rows) :
    let u := s.streamRow k t d
    u.buf.sb = s.buf.sb ∧ ∃ e, u.stream k = { t with act := some e } ∧ e.granted = true := by
  obtain ⟨e, sb, ha, _, hb, hk, _⟩ := streamRow_leaves s k t d
  have hlast : d.lastHold = false := by
    rw [StreamD.lastHold, hf, hc, decide_eq_false (Nat.not_le.mpr hl)]
    rfl
  have hg : (rowNext d (s.moveRow d d.rowsDone).1).granted = true := by
    show (!d.lastHold) = true
    rw [hlast]
    rfl
  rw [acquire_idle _ _ (.inl hg)] at ha
  obtain ⟨rfl, hbuf⟩ := Prod.mk.inj ha
  intro u
  refine ⟨?_, _, hk, hg⟩
  rw [show u.buf = _ from hb.trans hbuf.symm]
  rw [rowHeld, hlast, if_neg Bool.false_ne_true, moveRow_sb]

theorem streamRow_counts (s : State) (k : Nat) (t : StreamSlot) (d : StreamD) : ∃ e, (s.streamRow k t d).stream k = { t with act := some e } ∧
    e.rowsDone = d.rowsDone + 1 ∧ e.rows = d.rows := by
  obtain ⟨e, sb, ha, _, _, hk, _⟩ := streamRow_leaves s k t d
  obtain ⟨g, sb', hacq⟩ := acquire_keeps (rowNext d (s.moveRow d d.rowsDone).1) (rowHeld d (s.moveRow d d.rowsDone).2.buf)
  rw [hacq] at ha
  obtain ⟨rfl, _⟩ := Prod.mk.inj ha
  exact ⟨_, hk, rfl, rfl⟩

/-- R352: a row of flow mode restarts the watchdog. -/
theorem streamRow_flow (t : StreamSlot) (hf : d.flow = true) : ((s.streamRow k t d).ctx t.ctx).flowCount = 0 := by
  obtain ⟨e, sb, _, _, _, _, h⟩ := streamRow_leaves s k t d
  exact h hf

/-- R349: what an engine does when it completes a row. -/
def rowBody (k : Nat) (s : State) : State :=
  match (s.stream k).act with
  | none => s
  | some d =>
    if d.rowsDone < d.rows ∧ !s.rowLost d d.rowsDone then
      match d.acquire s.buf with
      | (d1, b) => if d1.granted then State.streamRow { s with buf := b } k (s.stream k) d1 else s
    else s

theorem rowBody_moves (ha : (s.stream k).act = some d) (hr : d.rowsDone < d.rows) (hl : s.rowLost d d.rowsDone = false)
    (hg : (d.acquire s.buf).1.granted = true) :
    rowBody k s = State.streamRow { s with buf := (d.acquire s.buf).2 } k (s.stream k) (d.acquire s.buf).1 := by
  unfold rowBody
  rw [ha]
  dsimp only
  rw [if_pos ⟨hr, by rw [hl]; rfl⟩]
  exact if_pos hg

end

/-! ### The end of a descriptor (R354 to R356) -/

section
variable {s : State} {k : Nat}

theorem UnitAccessed.streams {s t : State} (h : UnitAccessed s t) : t.streams = s.streams := by
  obtain ⟨_, _, _, _, _, _, _, _, _, _, rfl⟩ := h
  rfl

theorem raiseEvent_unit (s : State) (c n : Nat) : UnitAccessed s (s.raiseEvent c n) := (raiseEvent_accessed s c n).unit

theorem record_unit (s : State) (r : ErrRec) : UnitAccessed s (s.record r) := (record_accessed s r).unit

/-- The record of a descriptor's completion is written. -/
def writeRecord (c : Nat) (d : StreamD) (status : Nat) (s : State) : State :=
  match d.statPa with
  | some pa => s.unitWrite pa (streamRecord status (min d.pchunks 65535) d.rowsDone d.user) false (some c)
  | none => s

theorem writeRecord_unit (c : Nat) (d : StreamD) (status : Nat) (s : State) : UnitAccessed s (writeRecord c d status s) := by
  unfold writeRecord
  split
  · exact unitWrite_unit ..
  · exact .refl s

theorem completeDesc_eq (s : State) (c : Nat) (d : StreamD) (status : Nat) : s.completeDesc c d status =
    if d.notify then (writeRecord c d status { s with buf := d.release (decide (d.rowsDone < d.rows)) s.buf }).raiseEvent c 3
    else writeRecord c d status { s with buf := d.release (decide (d.rowsDone < d.rows)) s.buf } := rfl

theorem completeDesc_streams (s : State) (c : Nat) (d : StreamD) (status : Nat) : (s.completeDesc c d status).streams = s.streams := by
  rw [completeDesc_eq]
  split
  · exact (raiseEvent_unit ..).streams.trans (writeRecord_unit ..).streams
  · exact (writeRecord_unit ..).streams

theorem completeDesc_mem (s : State) (c : Nat) (d : StreamD) (status : Nat) : (s.completeDesc c d status).mem =
    (writeRecord c d status { s with buf := d.release (decide (d.rowsDone < d.rows)) s.buf }).mem := by
  rw [completeDesc_eq]
  split
  · exact (raiseEvent_accessed ..).mem
  · rfl

theorem flowEnds_keeps (s : State) (c : Nat) (d : StreamD) : (s.flowEnds c d).streams = s.streams ∧ (s.flowEnds c d).mem = s.mem := by
  unfold State.flowEnds
  split <;> exact ⟨rfl, rfl⟩

theorem flowStarts_streams (s : State) (c : Nat) (d : StreamD) : (s.flowStarts c d).streams = s.streams := by
  unfold State.flowStarts
  split <;> rfl

theorem streamRecords_unit (s : State) (c eng : Nat) (d : StreamD) (status : BitVec 8) (pch : Nat) :
    UnitAccessed s (s.streamRecords c eng d status pch) := by
  have h1 (s : State) (p : Prop) [Decidable p] (r : ErrRec) : UnitAccessed s (if p then s.record r else s) := by
    split
    · exact record_unit ..
    · exact .refl s
  unfold State.streamRecords
  dsimp only
  split
  · exact h1 ..
  · exact (h1 ..).trans (record_unit ..)

theorem streamRecords_mem (s : State) (c eng : Nat) (d : StreamD) (status : BitVec 8) (pch : Nat) :
    (s.streamRecords c eng d status pch).mem = s.mem := by
  have h1 (s : State) (p : Prop) [Decidable p] (r : ErrRec) : (if p then s.record r else s).mem = s.mem := by
    split
    · exact (record_accessed ..).mem
    · rfl
  unfold State.streamRecords
  dsimp only
  split
  · exact h1 ..
  · exact (record_accessed ..).mem.trans (h1 ..)

theorem stream_of_streams {s t : State} (h : t.streams = s.streams) (j : Nat) : t.stream j = s.stream j := by
  rw [State.stream, h, State.stream]

/-- What the shadow of a slot comes to when its active descriptor has ended. -/
theorem nextShadow_leaves (s : State) (k code : Nat) (ha : (s.stream k).act = none) : let t := s.nextShadow k code
    (t.stream k).shadow = none ∧
    ((s.stream k).shadow = none ∨ code = 3 ∨ code = 4 → (t.stream k).act = none) ∧
    (∀ d2, (s.stream k).shadow = some d2 → code ≠ 3 → code ≠ 4 → ∃ g, (t.stream k).act = some { d2 with granted := g }) ∧
    ∀ j, j ≠ k → t.stream j = s.stream j := by
  unfold State.nextShadow
  dsimp only
  cases hs : (s.stream k).shadow with
  | none =>
    exact ⟨hs, fun _ => ha, fun d2 h => absurd h.symm (Option.some_ne_none d2), fun _ _ => rfl⟩
  | some d =>
    dsimp only
    split
    next hc =>
      refine ⟨?_, fun _ => ?_, fun d2 _ h3 h4 => absurd hc (not_or.mpr ⟨h3, h4⟩), fun j hj => ?_⟩
      · rw [State.stream_setStream]
      · rw [State.stream_setStream]
        exact ha
      · rw [stream_setStream_other _ hj]
        exact stream_of_streams (completeDesc_streams ..) j
    next hc =>
      obtain ⟨u, hu⟩ : ∃ u, u = (s.flowStarts (s.stream k).ctx d).setStream k { s.stream k with act := some d, shadow := none } :=
        ⟨_, rfl⟩
      have huk : u.stream k = { s.stream k with act := some d, shadow := none } := by rw [hu, State.stream_setStream]
      obtain ⟨_, _, hother, hsh⟩ := engineAcquire_keeps u k
      rw [← hu]
      refine ⟨hsh.trans (by rw [huk]), fun h => ?_, fun d2 h2 _ _ => ?_, fun j hj => (hother j hj).trans ?_⟩
      · exact absurd h (not_or.mpr ⟨Option.some_ne_none d, hc⟩)
      · cases h2
        obtain ⟨g, sb, hacq⟩ := acquire_keeps d u.buf
        rw [engineAcquire_some (d := d) (by rw [huk]), State.stream_setStream, hacq]
        exact ⟨g, rfl⟩
      · rw [hu, stream_setStream_other _ hj]
        exact stream_of_streams (flowStarts_streams ..) j

/-- R356: the descriptor of a completion as it is recorded. -/
def endedDesc (d : StreamD) (rows pch : Nat) : StreamD := { d with granted := false, rowsDone := rows, pchunks := pch }

/-- R356: the slot without its active descriptor, whose record is written. -/
def descEnded (s : State) (k : Nat) (d : StreamD) (code rows pch : Nat) : State :=
  ((State.setStream { s with buf := d.release (decide (rows < d.rows)) s.buf } k { s.stream k with act := none }).flowEnds
    (s.stream k).ctx d).completeDesc (s.stream k).ctx (endedDesc d rows pch) code

theorem endStream_eq (s : State) (k : Nat) (d : StreamD) (code rows pch : Nat) :
    s.endStream k d code rows pch = (descEnded s k d code rows pch).nextShadow k code := rfl

theorem stream_descEnded (s : State) (k : Nat) (d : StreamD) (code rows pch : Nat) :
    (descEnded s k d code rows pch).stream k = { s.stream k with act := none } ∧
    ∀ j, j ≠ k → (descEnded s k d code rows pch).stream j = s.stream j := by
  have h := (completeDesc_streams ((State.setStream { s with buf := d.release (decide (rows < d.rows)) s.buf } k
    { s.stream k with act := none }).flowEnds (s.stream k).ctx d) (s.stream k).ctx (endedDesc d rows pch) code).trans
      (flowEnds_keeps ..).1
  exact ⟨(stream_of_streams h k).trans (State.stream_setStream ..), fun j hj =>
    (stream_of_streams h j).trans (stream_setStream_other _ hj)⟩

theorem endStream_leaves (s : State) (k : Nat) (d : StreamD) (code rows pch : Nat) : let t := s.endStream k d code rows pch
    (t.stream k).shadow = none ∧
    ((s.stream k).shadow = none ∨ code = 3 ∨ code = 4 → (t.stream k).act = none) ∧
    (∀ d2, (s.stream k).shadow = some d2 → code ≠ 3 → code ≠ 4 → ∃ g, (t.stream k).act = some { d2 with granted := g }) ∧
    ∀ j, j ≠ k → t.stream j = s.stream j := by
  obtain ⟨hk, hj⟩ := stream_descEnded s k d code rows pch
  obtain ⟨h1, h2, h3, h4⟩ := nextShadow_leaves (descEnded s k d code rows pch) k code (by rw [hk])
  rw [hk] at h2 h3
  rw [endStream_eq]
  exact ⟨h1, h2, h3, fun j hne => (h4 j hne).trans (hj j hne)⟩

theorem streamRecord_length (status pch rows : Nat) (user : Word) : (streamRecord status pch rows user).length = 16 := by
  simp only [streamRecord, List.length_append, leBytes_length, List.length_cons, List.length_nil]

/-- R356: the record of a completion that no shadow follows. -/
theorem endStream_record {d : StreamD} {code rows pch pa : Nat} (hs : (s.stream k).shadow = none) (hp : d.statPa = some pa)
    (ha : pa % 16 = 0) (hn : s.mem.noTarget.get false (pa / 128) = false) (hw : windowSpace (pa / 128) = false) :
    (s.endStream k d code rows pch).mem.store.read pa 16 = streamRecord code (min pch 65535) rows d.user := by
  obtain ⟨hk, _⟩ := stream_descEnded s k d code rows pch
  have hnext : s.endStream k d code rows pch = descEnded s k d code rows pch := by
    rw [endStream_eq, State.nextShadow, hk]
    dsimp only
    rw [hs]
  obtain ⟨u, hu⟩ : ∃ u, u = (State.setStream { s with buf := d.release (decide (rows < d.rows)) s.buf } k
    { s.stream k with act := none }).flowEnds (s.stream k).ctx d := ⟨_, rfl⟩
  have hum : u.mem = s.mem := by rw [hu, (flowEnds_keeps ..).2]; rfl
  have hlen := streamRecord_length code (min pch 65535) rows d.user
  have hwr (v : State) (hv : v.mem = s.mem) : (writeRecord (s.stream k).ctx (endedDesc d rows pch) code v).mem.store.read pa 16 =
      streamRecord code (min pch 65535) rows d.user := by
    obtain ⟨t, -, ht⟩ := unitWrite_line (s := v) (p := false) (c := some (s.stream k).ctx)
      (bs := streamRecord code (min pch 65535) rows d.user) (by rw [hlen]; omega) (hv ▸ hn) hw
    have he : writeRecord (s.stream k).ctx (endedDesc d rows pch) code v =
        v.unitWrite pa (streamRecord code (min pch 65535) rows d.user) false (some (s.stream k).ctx) := by
      unfold writeRecord
      rw [show (endedDesc d rows pch).statPa = some pa from hp]
      rfl
    rw [he, ht]
    exact (congrArg (Store.read _ _) hlen.symm).trans (Store.read_write ..)
  rw [hnext, descEnded, ← hu, completeDesc_mem]
  exact hwr _ hum

/-- R356: what an engine's report of a completion does. -/
def doneBody (k eng : Nat) (status : BitVec 8) (rows pch : Nat) (s : State) : State :=
  match (s.stream k).act with
  | none => s
  | some d => (s.endStream k d (status.toNat % 64) rows pch).streamRecords (s.stream k).ctx eng d status pch

theorem doneBody_active {d : StreamD} {eng rows pch : Nat} {status : BitVec 8} (h : (s.stream k).act = some d) :
    doneBody k eng status rows pch s =
      (s.endStream k d (status.toNat % 64) rows pch).streamRecords (s.stream k).ctx eng d status pch := by
  unfold doneBody
  rw [h]

/-! ### The watchdog (R352) -/

/-- A slot without a descriptor. -/
def SlotEmpty (s : State) (j : Nat) : Prop := (s.stream j).act = none ∧ (s.stream j).shadow = none

theorem stallSlot_leaves (s : State) (k : Nat) : SlotEmpty (s.stallSlot k) k ∧ ∀ j, j ≠ k → (s.stallSlot k).stream j = s.stream j := by
  obtain ⟨s1, hs1⟩ : ∃ s1, s1 = match (s.stream k).shadow with
    | some d => (s.completeDesc (s.stream k).ctx d 3).setStream k { s.stream k with shadow := none }
    | none => s := ⟨_, rfl⟩
  have hk : (s1.stream k).shadow = none ∧ (s1.stream k).act = (s.stream k).act ∧ ∀ j, j ≠ k → s1.stream j = s.stream j := by
    rw [hs1]
    split
    next d hd =>
      rw [State.stream_setStream]
      refine ⟨rfl, rfl, fun j hj => ?_⟩
      rw [stream_setStream_other _ hj]
      exact stream_of_streams (completeDesc_streams ..) j
    next hn => exact ⟨hn, rfl, fun _ _ => rfl⟩
  obtain ⟨hsh, hact, hother⟩ := hk
  have he : s.stallSlot k = match (s.stream k).act with
      | some d => (s1.endStream k d 3 d.rowsDone d.pchunks).streamRecords (s.stream k).ctx (k / 8) d 3 d.pchunks
      | none => s1 := by
    rw [hs1]
    rfl
  rw [he]
  split
  next d hd =>
    obtain ⟨h1, h2, _, h4⟩ := endStream_leaves s1 k d 3 d.rowsDone d.pchunks
    have hst := stream_of_streams (streamRecords_unit (s1.endStream k d 3 d.rowsDone d.pchunks) (s.stream k).ctx (k / 8) d 3
      d.pchunks).streams
    refine ⟨⟨?_, ?_⟩, fun j hj => ?_⟩
    · rw [hst]
      exact h2 (.inl hsh)
    · rw [hst]
      exact h1
    · rw [hst]
      exact (h4 j hj).trans (hother j hj)
  next hn => exact ⟨⟨hact.trans hn, hsh⟩, hother⟩

theorem stallSlot_keepsEmpty {j : Nat} (h : SlotEmpty s j) (k : Nat) : SlotEmpty (s.stallSlot k) j := by
  obtain ⟨he, ho⟩ := stallSlot_leaves s k
  by_cases hj : j = k
  · exact hj ▸ he
  · rw [SlotEmpty, ho j hj]
    exact h

theorem foldl_stallSlot (l : List (Nat × StreamSlot)) {j : Nat} (h : SlotEmpty s j ∨ ∃ p ∈ l, p.1 = j) :
    SlotEmpty (l.foldl (fun s p => s.stallSlot p.1) s) j := by
  induction l generalizing s with
  | nil => exact h.elim id fun ⟨_, hp, _⟩ => absurd hp List.not_mem_nil
  | cons x xs ih =>
    refine ih ?_
    obtain h | ⟨p, hp, hpj⟩ := h
    · exact .inl (stallSlot_keepsEmpty h x.1)
    · obtain rfl | hp := List.mem_cons.mp hp
      · exact .inl (hpj ▸ (stallSlot_leaves s p.1).1)
      · exact .inr ⟨p, hp, hpj⟩

/-- A key of a table that holds another value than its default stands in it. -/
theorem get_mem {α : Type} (d : α) (t : Tbl α) (j : Nat) : t.get d j = d ∨ (j, t.get d j) ∈ t := by
  induction t with
  | nil => exact .inl rfl
  | cons p t ih =>
    obtain ⟨i, v⟩ := p
    rw [Tbl.get]
    split
    next h => exact .inr (h ▸ List.mem_cons_self)
    next => exact ih.imp id (List.mem_cons_of_mem _)

/-- R352: the descriptors of the context's slots end. -/
theorem watchdog_empties {c j : Nat} (h : (s.stream j).ctx = c) :
    SlotEmpty ((s.streams.filter fun p => p.2.ctx = c).foldl (fun s p => s.stallSlot p.1) s) j := by
  refine foldl_stallSlot _ ?_
  obtain hd | hm := get_mem StreamSlot.empty s.streams j
  · refine .inl ?_
    rw [SlotEmpty, State.stream, hd]
    exact ⟨rfl, rfl⟩
  · exact .inr ⟨_, List.mem_filter.mpr ⟨hm, decide_eq_true h⟩, rfl⟩

/-- R352: what the watchdog does. -/
def watchdogBody (c : Nat) (s : State) : State := (s.streams.filter fun p => p.2.ctx = c).foldl (fun s p => s.stallSlot p.1) s

/-! ### The range-check port (R340) -/

/-- R340: the response to a pending acquire. -/
def responseBody (tag : Nat) (s : State) : State :=
  match s.buf.pend.find? fun a => a.tag = tag with
  | none => s
  | some a =>
    match (s.buf.cancel a.tag).tryAcquire a.lo a.hi a.write with
    | (true, b) => ({ s with buf := b }).granted a.tag a.owner
    | (false, _) => s

theorem responseBody_granted {tag : Nat} {q : Acq} {b : Buffer} (hq : (s.buf.pend.find? fun a => a.tag = tag) = some q)
    (hb : (s.buf.cancel q.tag).tryAcquire q.lo q.hi q.write = (true, b)) :
    responseBody tag s = State.granted { s with buf := b } q.tag q.owner := by
  unfold responseBody
  rw [hq]
  dsimp only
  rw [hb]

theorem tryAcquire_pend {b c : Buffer} {lo hi : Nat} {write : Bool} (h : b.tryAcquire lo hi write = (true, c)) : c.pend = b.pend := by
  unfold Buffer.tryAcquire at h
  split at h
  · cases h
    rfl
  · exact absurd (congrArg Prod.fst h) Bool.false_ne_true

theorem granted_buf (s : State) (tag : Nat) (o : AcqOwner) : (s.granted tag o).buf = s.buf := by
  unfold State.granted
  split <;> rfl

theorem find?_mapVals {α : Type} (f : Nat → α → α) (t : Tbl α) (i : Nat) :
    (t.mapVals f).find? (fun p => p.1 = i) = (t.find? fun p => p.1 = i).map fun p => (p.1, f p.1 p.2) := by
  rw [Tbl.mapVals, List.find?_map]
  rfl

theorem granted_entry {tag m i : Nat} {r : RangeEntry} (h : (s.ctx m).range i = some r) :
    ((s.granted tag (.entry m i)).ctx m).range i = some { r with granted := true } := by
  unfold Ctx.range at h ⊢
  obtain ⟨p, hp, rfl⟩ := Option.map_eq_some_iff.mp h
  have hi : p.1 = i := by simpa using List.find?_some hp
  have hc : (s.granted tag (.entry m i)).ctx m = { s.ctx m with
      ranges := (s.ctx m).ranges.mapVals fun j r => if j = i then { r with granted := true } else r } := State.ctx_setCtx ..
  rw [hc]
  dsimp only
  rw [find?_mapVals, hp]
  simp only [Option.map_some, if_pos hi]

theorem granted_admission {tag m i : Nat} : ∀ h ∈ ((s.granted tag (.admission m i)).ctx m).askedRanges, h.tag = tag → h.granted = true := by
  have hc : ((s.granted tag (.admission m i)).ctx m).askedRanges = (s.ctx m).askedRanges.map fun h =>
      if h.tag = tag && !h.granted then { h with granted := true } else h :=
    congrArg Ctx.askedRanges (State.ctx_setCtx ..)
  rw [hc]
  intro h hm ht
  obtain ⟨x, _, rfl⟩ := List.mem_map.mp hm
  cases hg : x.granted with
  | true =>
    rw [if_neg (by simp)]
    exact hg
  | false =>
    by_cases hx : x.tag = tag
    · rw [if_pos (by rw [decide_eq_true hx]; rfl)]
    · rw [if_neg (by rw [decide_eq_false hx]; simp)] at ht
      exact absurd ht hx

end

/-- Settles O33. -/
theorem streamEvents : Obligations.StreamEvents := by
  unfold Obligations.StreamEvents
  intro s eng slot status rows pch c tag d b q hl k d1 b1
  refine ⟨fun ha hr hlost hg => ?_, fun ha h5 => ?_, fun hst => ?_, fun hq hb => ?_⟩
  · obtain ⟨g, sb, hacq⟩ := acquire_keeps d s.buf
    have hexec : Machine.exec (.streamRowDone eng slot) s = .next (State.streamRow { s with buf := b1 } k (s.stream k) d1) :=
      (eventStep_runs (f := rowBody k) hl rfl).trans (congrArg _ (rowBody_moves ha hr hlost hg))
    have hd1 : d1 = { d with granted := g } := congrArg Prod.fst hacq
    have hb1 : b1 = { s.buf with sb := sb } := congrArg Prod.snd hacq
    obtain ⟨v, hv⟩ : ∃ v : State, v = { s with buf := b1 } := ⟨_, rfl⟩
    obtain ⟨e, he, hdone, hrows⟩ := streamRow_counts v k (s.stream k) d1
    have hact {x : StreamD} (h : (v.streamRow k (s.stream k) d1).stream k = { s.stream k with act := some x }) : x = e :=
      Option.some.inj (congrArg StreamSlot.act (h.symm.trans he))
    have hvb : v.buf = b1 := by rw [hv]
    have hbyte (x : Nat) : v.buf.store.byte x = s.buf.store.byte x := by rw [hvb, hb1]
    have hvm : v.mem = s.mem := by rw [hv]
    refine ⟨State.streamRow { s with buf := b1 } k (s.stream k) d1, e, hexec, rfl, ?_⟩
    rw [← hv]
    refine ⟨congrArg StreamSlot.act he, hdone.trans (by rw [hd1]), hrows.trans (by rw [hd1]), (congrArg StreamSlot.shadow he).trans rfl,
      fun pa hpa => ?_, fun hf hlast => ?_, fun hf hc hlt => ?_, fun hf => ?_⟩
    · have hpv : v.rowPa d1 d1.rowsDone = some pa := by rw [← hpa, hv, hd1]; rfl
      have hmv := streamRow_moves (k := k) (s.stream k) hpv
      rw [hvm] at hmv
      simp only [hbyte] at hmv
      rw [hd1] at hmv ⊢
      exact hmv
    · obtain ⟨h1, x, h2, h3⟩ := streamRow_last (s := v) (k := k) (d := d1) (s.stream k) (by rw [hd1]; exact hf)
        (by rw [hd1]; exact hlast)
      exact ⟨h1.trans (by rw [hvb]), hact h2 ▸ h3⟩
    · obtain ⟨h1, x, h2, h3⟩ := streamRow_between (s := v) (k := k) (d := d1) (s.stream k) (by rw [hd1]; exact hf)
        (by rw [hd1]; exact hc) (by rw [hd1]; exact hlt)
      exact ⟨h1.trans (by rw [hvb]), hact h2 ▸ h3⟩
    · exact streamRow_flow (s := v) (k := k) (d := d1) (s.stream k) (by rw [hd1]; exact hf)
  · obtain ⟨h1, h2, h3, _⟩ := endStream_leaves s k d (status.toNat % 64) rows.toNat pch.toNat
    have hexec : Machine.exec (.streamDone eng slot status rows pch) s = .next
        ((s.endStream k d (status.toNat % 64) rows.toNat pch.toNat).streamRecords (s.stream k).ctx eng.toNat d status pch.toNat) :=
      (eventStep_runs (f := doneBody k eng.toNat status rows.toNat pch.toNat) hl (decide_eq_true h5)).trans
        (congrArg _ (doneBody_active ha))
    have hst := stream_of_streams (streamRecords_unit (s.endStream k d (status.toNat % 64) rows.toNat pch.toNat) (s.stream k).ctx
      eng.toNat d status pch.toNat).streams k
    refine ⟨_, hexec, rfl, ?_, fun h => ?_, fun d2 hd2 hn3 hn4 => ?_, fun pa hs hp h16 hn hw => ?_⟩
    · rw [hst]
      exact h1
    · rw [hst]
      exact h2 h
    · rw [hst]
      exact h3 d2 hd2 hn3 hn4
    · rw [streamRecords_mem]
      exact endStream_record hs hp h16 hn hw
  · exact ⟨_, eventStep_runs (f := watchdogBody c.toNat) hl hst, rfl, fun j hj => watchdog_empties hj⟩
  · have hbuf : (State.granted { s with buf := b } q.tag q.owner).buf = b := granted_buf ..
    have htag : q.tag = tag.toNat := by simpa using List.find?_some hq
    refine ⟨_, (eventStep_runs (f := responseBody tag.toNat) hl rfl).trans (congrArg _ (responseBody_granted hq hb)), rfl, hbuf,
      fun a ha => ?_, fun m i r ho hr => ?_, fun w ho => ?_, fun m i ho => ?_⟩
    · rw [hbuf, tryAcquire_pend hb, Buffer.cancel, List.mem_filter, htag] at ha
      simpa using ha.2
    · rw [ho]
      exact granted_entry (s := { s with buf := b }) hr
    · rw [ho]
      exact window_setWindow ..
    · rw [ho, ← htag]
      exact granted_admission

end Sys2Proof.Machine
end

section
/-! PROOFS. The ports that the host chip answers (R319, R320, R335, R336, R338, R509), and the disabling of cache ways (R322 to
R325). -/

namespace Sys2Proof.Machine

/-! ### Marks and chunks of a store -/

theorem mark_putMark_same (m : Store) (c : Nat) (b : Bool) : (m.putMark c b).mark c = b :=
  Tbl.get_put_same false m.poison c b

theorem mark_putMark_other (m : Store) {c x : Nat} (b : Bool) (h : x ≠ c) : (m.putMark c b).mark x = m.mark x :=
  Tbl.get_put_other false m.poison b h

theorem mark_putBytes (m : Store) (a : Nat) (bs : List Byte) (x : Nat) : (m.putBytes a bs).mark x = m.mark x := by
  induction bs generalizing m a with
  | nil => rfl
  | cons b bs ih => exact ih (m.putByte a b) (a + 1)

theorem bytes_putMarks (m : Store) (b : Bool) (cs : List Nat) : (m.putMarks b cs).bytes = m.bytes := by
  induction cs generalizing m with
  | nil => rfl
  | cons c cs ih => exact ih (m.putMark c b)

theorem mark_putMarks {cs : List Nat} {x : Nat} (m : Store) (b : Bool) (h : m.mark x = b ∨ x ∈ cs) :
    (m.putMarks b cs).mark x = b := by
  induction cs generalizing m with
  | nil => exact h.resolve_right (List.not_mem_nil (a := x))
  | cons c cs ih =>
    refine ih (m.putMark c b) ?_
    by_cases hc : x = c
    · exact .inl (hc ▸ mark_putMark_same m c b)
    · exact h.imp (mark_putMark_other m b hc).trans fun h => (List.mem_cons.mp h).resolve_left hc

theorem byte_putChunk (m : Store) (a : Nat) (ch : Chunk) (x : Nat) : (m.putChunk a ch).byte x = (m.putBytes a ch.1).byte x := by
  unfold Store.putChunk
  dsimp only
  split
  · rfl
  · split <;> rfl

theorem mark_putChunk_other (m : Store) (a : Nat) (ch : Chunk) {x : Nat} (h : x ≠ a / 16) :
    (m.putChunk a ch).mark x = m.mark x := by
  unfold Store.putChunk
  dsimp only
  split
  · rw [mark_putMark_other _ _ h, mark_putBytes]
  · split
    · rw [mark_putMark_other _ _ h, mark_putBytes]
    · exact mark_putBytes ..

theorem mark_putChunk_same (m : Store) (a : Nat) {ch : Chunk} (h : ch.1.length = 16) :
    (m.putChunk a ch).mark (a / 16) = ch.2 := by
  unfold Store.putChunk
  dsimp only
  rw [if_pos h]
  split
  next hp => rw [mark_putMark_same, hp]
  next hp => rw [mark_putMark_same, Bool.eq_false_iff.mpr hp]

section
variable {cs : List Chunk} (hc : ∀ ch ∈ cs, ch.1.length = 16)
include hc

theorem byte_putChunks_outside (m : Store) {a x : Nat} (h : x < a ∨ a + 16 * cs.length ≤ x) :
    (m.putChunks a cs).byte x = m.byte x := by
  induction cs generalizing m a with
  | nil => rfl
  | cons ch cs ih =>
    obtain ⟨h0, ht⟩ := List.forall_mem_cons.mp hc
    rw [List.length_cons] at h
    rw [Store.putChunks, ih ht _ (by omega), byte_putChunk, Store.byte_putBytes_outside _ _ _ _ (by omega)]

theorem byte_putChunks_inside (m : Store) (a : Nat) {i j : Nat} (hi : i < cs.length) (hj : j < 16) :
    (m.putChunks a cs).byte (a + 16 * i + j) = cs[i].1.getD j 0 := by
  induction cs generalizing m a i with
  | nil => exact absurd hi (Nat.not_lt_zero i)
  | cons ch cs ih =>
    obtain ⟨h0, ht⟩ := List.forall_mem_cons.mp hc
    cases i with
    | zero =>
      rw [Store.putChunks, byte_putChunks_outside ht _ (by omega), byte_putChunk, Nat.mul_zero, Nat.add_zero,
        Store.byte_putBytes_inside _ _ _ _ (by omega), List.getElem_cons_zero, getD_getElem]
    | succ i =>
      have := ih ht (m.putChunk a ch) (a + 16) (i := i) (by simpa using hi)
      rw [show a + 16 * (i + 1) + j = a + 16 + 16 * i + j by omega, List.getElem_cons_succ]
      exact this

theorem mark_putChunks_outside (m : Store) {c x : Nat} (h : x < c ∨ c + cs.length ≤ x) :
    (m.putChunks (c * 16) cs).mark x = m.mark x := by
  induction cs generalizing m c with
  | nil => rfl
  | cons ch cs ih =>
    obtain ⟨h0, ht⟩ := List.forall_mem_cons.mp hc
    rw [List.length_cons] at h
    rw [Store.putChunks, show c * 16 + 16 = (c + 1) * 16 by omega, ih ht _ (by omega), mark_putChunk_other _ _ _ (by omega)]

theorem mark_putChunks_inside (m : Store) (c : Nat) {i : Nat} (hi : i < cs.length) :
    (m.putChunks (c * 16) cs).mark (c + i) = cs[i].2 := by
  induction cs generalizing m c i with
  | nil => exact absurd hi (Nat.not_lt_zero i)
  | cons ch cs ih =>
    obtain ⟨h0, ht⟩ := List.forall_mem_cons.mp hc
    rw [Store.putChunks, show c * 16 + 16 = (c + 1) * 16 by omega]
    cases i with
    | zero =>
      rw [mark_putChunks_outside ht _ (by omega), Nat.add_zero, List.getElem_cons_zero]
      have := mark_putChunk_same m (c * 16) h0
      rwa [Nat.mul_div_cancel _ (by decide)] at this
    | succ i =>
      have := ih ht (m.putChunk (c * 16) ch) (c + 1) (i := i) (by simpa using hi)
      rw [show c + (i + 1) = c + 1 + i by omega, List.getElem_cons_succ]
      exact this

end

/-! ### What an error that a port reports leaves (R338, R452) -/

/-- Memory, buffer memory and the caches are as they were. -/
structure StoresSame (s t : State) : Prop where
  mem : t.mem = s.mem
  buf : t.buf = s.buf
  caches : t.caches = s.caches

section
variable {s t u : State}

theorem StoresSame.trans (h : StoresSame s t) (h' : StoresSame t u) : StoresSame s u :=
  ⟨h'.mem.trans h.mem, h'.buf.trans h.buf, h'.caches.trans h.caches⟩

end

section
variable (s : State)

theorem raiseEvent_stores (c k : Nat) : StoresSame s (s.raiseEvent c k) := by
  unfold State.raiseEvent
  dsimp only
  split <;> exact ⟨rfl, rfl, rfl⟩

theorem raiseAlert_stores (c b : Nat) : StoresSame s (s.raiseAlert c b) := by
  unfold State.raiseAlert
  split
  · exact .trans (t := s.modCtx c fun e => { e with alert := e.alert.putBit b true }) ⟨rfl, rfl, rfl⟩ (raiseEvent_stores _ c 6)
  · exact ⟨rfl, rfl, rfl⟩

theorem record_stores (r : ErrRec) : StoresSame s (s.record r) := by
  have h : ∀ x : State, StoresSame s x → StoresSame s (if r.ctx = 0xFFFF then x else x.raiseAlert r.ctx.toNat 1) := fun x hx => by
    split
    · exact hx
    · exact hx.trans (raiseAlert_stores ..)
  refine h _ ?_
  split <;> exact ⟨rfl, rfl, rfl⟩

theorem setRun_stores (i : Nat) (x : Option Run) : StoresSame s (s.setRun i x) := by
  unfold State.setRun
  split <;> exact ⟨rfl, rfl, rfl⟩

theorem chargeErrors_stores (r : Run) (n start latency after : Nat) (es : List ErrRec) :
    StoresSame s (s.chargeErrors r n start latency after es).1 :=
  foldl_keeps (P := fun a : State × Run => StoresSame s a.1) (fun a _ ha => ha.trans (record_stores a.1 _)) es (s, r)
    ⟨rfl, rfl, rfl⟩

theorem portError_stores (mine : Run → Bool) (e : ErrRec) : StoresSame s (s.portError mine e) := by
  unfold State.portError
  split
  next r x _ =>
    exact (chargeErrors_stores s r x.run x.start x.latency x.latency [e]).trans (setRun_stores _ s.tile.active.toNat _)
  · exact record_stores s e

end

/-! ### Memory access ports (R319, R509) -/

section
variable (s : State) (data : List Byte) (block : Nat)

theorem byte_putLineMarks (m : Store) (line : Nat) (marks : List Bool) (x : Nat) :
    (m.putLineMarks line marks).byte x = m.byte x :=
  foldl_keeps (f := fun (u : Store) (p : Bool × Nat) => u.putMark (line * 8 + p.2) p.1) (P := fun u : Store => u.byte x = m.byte x) (fun _ _ hu => hu)
    marks.zipIdx m rfl

/-- The one line that a mask of 1 names is the first of its block. -/
theorem lines_first : ([block * 2, block * 2 + 1].filter fun l => (1 : BitVec 2).getLsbD (l % 2)) = [block * 2] := by
  rw [List.filter_cons_of_pos (by rw [Nat.mul_mod_left]; decide),
    List.filter_cons_of_neg (by rw [show (block * 2 + 1) % 2 = 1 by omega]; decide), List.filter_nil]

/-- A line that no cache holds is read GOOD: memory holds its bytes, and there is a target. -/
theorem memAnswered_good {s : State} (hl : s.caches.hasLine (block * 2) = false) (hd : data.length = 256) (pm : BitVec 16) :
    let t := s.memAnswered false block 1 .good data pm
    t.mem.lost (block * 2) = windowSpace (block * 2) ∧
      (∀ i, i < 128 → t.mem.store.byte (block * 256 + i) = data.getD i 0) ∧
      (∀ a, (a < block * 256 ∨ block * 256 + 128 ≤ a) → t.mem.store.byte a = s.mem.store.byte a) := by
  have hline : block * 2 % 2 = 0 := Nat.mul_mod_left ..
  have hlen : ((data.drop (128 * 0)).take 128).length = 128 := by simp [hd]
  have ht : s.memAnswered false block 1 .good data pm = { s with mem :=
      { store := (s.mem.store.putBytes (block * 256) ((data.drop (128 * 0)).take 128)).putLineMarks (block * 2) (lineMarks 0 0),
        noTarget := s.mem.noTarget.put false (block * 2) false } } := by
    rw [State.memAnswered, lines_first]
    dsimp only [List.foldl_cons, List.foldl_nil]
    rw [State.lineAnswered, if_neg Bool.false_ne_true, State.readAnswered, hl, hline, if_neg Bool.false_ne_true,
      Nat.mul_assoc]
  dsimp only
  rw [ht]
  refine ⟨?_, fun i hi => ?_, fun a ha => ?_⟩
  · rw [HostMem.lost, Tbl.get_put_same, Bool.false_or]
  · rw [byte_putLineMarks, Store.byte_putBytes_inside _ _ _ _ (hlen.symm ▸ hi)]
    simp [hd, show i < 256 by omega]
  · rw [byte_putLineMarks, Store.byte_putBytes_outside _ _ _ _ (hlen.symm ▸ ha)]

/-- A line has no target: it leaves the caches, and memory keeps its bytes. -/
theorem memAnswered_notarget (write : Bool) (pm : BitVec 16) : let t := s.memAnswered write block 1 .notarget data pm
    t.mem.lost (block * 2) = true ∧ t.mem.store = s.mem.store ∧ t.caches = s.caches.removeLine (block * 2) := by
  intro t
  obtain ⟨hm, -, hc⟩ : StoresSame { s with caches := s.caches.removeLine (block * 2), mem :=
      { s.mem with noTarget := s.mem.noTarget.put false (block * 2) true } } t := by
    unfold t
    rw [State.memAnswered, lines_first]
    exact portError_stores ..
  refine ⟨?_, (congrArg HostMem.store hm).trans rfl, hc⟩
  rw [hm, HostMem.lost, Tbl.get_put_same, Bool.true_or]

end

/-! ### Buffer ports (R335, R336, R338) -/

section
variable (s : State) (port chunk : Nat) (data : List Byte) (rp : BitVec 32)

/-- The chunks that a data beat delivers. -/
def beatChunks (data : List Byte) (rp : BitVec 32) : List Chunk :=
  (List.range (data.length / 16)).map fun j => ((data.drop (16 * j)).take 16, rp.getLsbD j)

theorem beatChunks_length : (beatChunks data rp).length = data.length / 16 := by
  rw [beatChunks, List.length_map, List.length_range]

theorem beatChunks_getElem {j : Nat} (h : j < (beatChunks data rp).length) :
    (beatChunks data rp)[j] = ((data.drop (16 * j)).take 16, rp.getLsbD j) := by
  simp only [beatChunks, List.getElem_map, List.getElem_range]

theorem beatChunks_whole : ∀ ch ∈ beatChunks data rp, ch.1.length = 16 := by
  intro ch h
  obtain ⟨j, hj, rfl⟩ := List.mem_map.mp h
  have := List.mem_range.mp hj
  simp only [List.length_take, List.length_drop]
  omega

/-- A good beat that lies in buffer memory: its chunks hold what it delivers. -/
theorem bufBeat_good {s : State} (hd : data.length % 16 = 0) (hf : chunk * 16 + data.length ≤ s.buf.size) :
    let t := s.bufBeat port chunk data rp false
    (∀ i, i < data.length → t.buf.store.byte (chunk * 16 + i) = data.getD i 0) ∧
      (∀ j, j < data.length / 16 → t.buf.store.mark (chunk + j) = rp.getLsbD j) ∧
      (∀ x, x < chunk * 16 ∨ chunk * 16 + data.length ≤ x → t.buf.store.byte x = s.buf.store.byte x) := by
  intro t
  have ht : t.buf.store = s.buf.store.putChunks (chunk * 16) (beatChunks data rp) := by
    unfold t State.bufBeat
    dsimp only
    rw [if_neg Bool.false_ne_true, if_neg (by omega)]
    rfl
  have hw := beatChunks_whole data rp
  have hl := beatChunks_length data rp
  rw [ht]
  refine ⟨fun i hi => ?_, fun j hj => ?_, fun x hx => byte_putChunks_outside hw _ (by omega)⟩
  · have := byte_putChunks_inside hw s.buf.store (chunk * 16) (i := i / 16) (j := i % 16) (by omega) (by omega)
    rw [show chunk * 16 + 16 * (i / 16) + i % 16 = chunk * 16 + i by omega] at this
    rw [this, beatChunks_getElem, List.getD_eq_getElem?_getD, List.getElem?_take_of_lt (by omega), List.getElem?_drop,
      Nat.div_add_mod, List.getD_eq_getElem?_getD]
  · rw [mark_putChunks_inside hw _ _ (hl.symm ▸ hj), beatChunks_getElem]

/-- The chunks of a beat of `n` that lie in buffer memory. -/
def chunksHere (size chunk n : Nat) : List Nat :=
  ((List.range n).filter fun j => decide (chunk * 16 + 16 * j + 16 ≤ size)).map (chunk + ·)

theorem mem_chunksHere {size chunk n j : Nat} (hj : j < n) (h : chunk * 16 + 16 * j + 16 ≤ size) :
    chunk + j ∈ chunksHere size chunk n :=
  List.mem_map.mpr ⟨j, List.mem_filter.mpr ⟨List.mem_range.mpr hj, decide_eq_true h⟩, rfl⟩

/-- A failed beat outside a run: the chunks that it covers are poisoned. -/
theorem bufBeat_failed {s : State}
    (h : (s.portRun fun r => r.rangesBytes (chunk * 16) (16 * (data.length / 16))) = none) :
    let t := s.bufBeat port chunk data rp true
    (∀ j, j < data.length / 16 → chunk * 16 + 16 * j + 16 ≤ s.buf.size → t.buf.store.mark (chunk + j) = true) ∧
      t.buf.store.bytes = s.buf.store.bytes := by
  intro t
  have ht : t.buf.store = s.buf.store.putMarks true (chunksHere s.buf.size chunk (data.length / 16)) := by
    unfold t State.bufBeat
    dsimp only
    rw [if_pos rfl, h, Option.isSome_none, if_neg Bool.false_ne_true]
    dsimp only
    rw [(portError_stores ..).buf]
    rfl
  rw [ht]
  exact ⟨fun j hj hs => mark_putMarks _ _ (.inr (mem_chunksHere hj hs)), bytes_putMarks ..⟩

/-- AERR: the chunks of the write are poisoned. -/
theorem bufAck_failed (n : Nat) : let t := s.bufAck port chunk n true
    (∀ j, j < n → chunk * 16 + 16 * j + 16 ≤ s.buf.size → t.buf.store.mark (chunk + j) = true) ∧
      t.buf.store.bytes = s.buf.store.bytes := by
  intro t
  have ht : t.buf.store = s.buf.store.putMarks true (chunksHere s.buf.size chunk n) := by
    unfold t State.bufAck
    rw [if_pos rfl]
    exact congrArg (fun b : Buffer => b.store) (portError_stores ..).buf
  rw [ht]
  exact ⟨fun j hj hs => mark_putMarks _ _ (.inr (mem_chunksHere hj hs)), bytes_putMarks ..⟩

end

/-! ### The disabling of a way (R322 to R325) -/

section
variable {s : State} {k : CacheId} {w : Nat}

/-- What a change of the caches leaves but their lines: the ways disabled, and the caches as put but for the copies of what
memory holds. -/
theorem putCaches_caches (s : State) (c : Caches) (d : Option Nat) :
    { (s.putCaches c d).caches with stale := [] } = { c with stale := [] } := by
  have h : ∀ (xs : List Nat) (u : State), (xs.foldl State.writeBack u).caches = u.caches := fun xs u =>
    foldl_keeps (f := State.writeBack) (P := fun t : State => t.caches = u.caches) (fun _ _ ht => ht) xs u rfl
  unfold State.putCaches
  dsimp only
  rw [h]

theorem putCaches_off (s : State) (c : Caches) (d : Option Nat) : (s.putCaches c d).caches.off = c.off :=
  (congrArg Caches.off (putCaches_caches s c d) :)

theorem tackRaw_stores (s : State) (n : Nat) (v : Word) (src : TkSrc) : StoresSame s (s.tackRaw n v src).2 := by
  unfold State.tackRaw
  refine foldl_keeps (P := fun t : State => StoresSame s t) (fun t e ht => ht.trans ?_) _ _ ⟨rfl, rfl, rfl⟩
  exact ⟨rfl, rfl, rfl⟩

/-- The new map of the ways is committed, and the record of it written: the caches stay. -/
theorem commitMap_caches (s : State) (n : Nat) (v : Word) (r : ErrRec) :
    (((s.tackRaw n v .firmware).2.tackNotify (s.tackRaw n v .firmware).1.toList).record r).caches = s.caches := by
  have hk : ∀ e ∈ (s.tackRaw n v .firmware).1.toList, e.code ≠ 0 ∧ e.srcs = [.firmware] := fun e he =>
    (write_keeps (k := s.tack) (t := s.tclkNow) ⟨n, v, [.firmware]⟩).1 e (Option.mem_toList.mp he)
  rw [tackNotify_firmware hk]
  exact ((tackRaw_stores s n v .firmware).trans (record_stores _ r)).caches

/-- A way that may be disabled is disabled. -/
theorem disableWay_caches (hw : w < cacheWays k) (ho : s.caches.wayOff k w = false) (hl : s.caches.waysOff k < cacheLimit k) :
    { (s.disableWay k w).caches with stale := [] } = { s.caches.disable k w with stale := [] } := by
  rw [← putCaches_caches s (s.caches.disable k w) none]
  unfold State.disableWay
  rw [ho, if_neg (by simp only [Bool.false_eq_true, false_or]; omega)]
  exact congrArg (fun c : Caches => { c with stale := [] }) (commitMap_caches (s.putCaches (s.caches.disable k w) none) 1 _ _)

theorem off_dropL1 (c : Caches) (line : Nat) : (c.dropL1 line).off = c.off := rfl

theorem off_setTags (c : Caches) (k : CacheId) (x : Tbl CLine) : (c.setTags k x).off = c.off := by
  cases k <;> rfl

theorem off_disable (c : Caches) (k : CacheId) (w : Nat) :
    (c.disable k w).off = c.off ||| (1 <<< (cacheField k + w) : BitVec 28) := by
  have h : ∀ (xs : List Nat) (c : Caches), (xs.foldl Caches.dropL1 c).off = c.off := fun xs c =>
    foldl_keeps (f := Caches.dropL1) (P := fun d : Caches => d.off = c.off) (fun _ _ hd => hd) xs c rfl
  unfold Caches.disable
  dsimp only
  split
  · rw [h, off_setTags]
  · rw [off_setTags]

theorem wayOff_disable (c : Caches) (hw : w < cacheWays k) : (c.disable k w).wayOff k w = true := by
  have hlt : cacheField k + w < 28 := by
    cases k <;> simp only [cacheWays, cacheField] at hw ⊢ <;> omega
  rw [Caches.wayOff, off_disable, BitVec.getLsbD_or, BitVec.natCast_eq_ofNat, BitVec.getLsbD_ofNat, decide_eq_true hlt,
    Nat.one_shiftLeft, Nat.testBit_two_pow_self, Bool.and_true, Bool.or_true]

/-- The ways disabled are as they were. -/
theorem wayOff_of_off {c d : Caches} (h : d.off = c.off) : d.wayOff k w = c.wayOff k w ∧ d.waysOff k = c.waysOff k := by
  simp only [Caches.wayOff, Caches.waysOff, h, and_self]

theorem disableWay_off (hw : w < cacheWays k) (ho : s.caches.wayOff k w = false) (hl : s.caches.waysOff k < cacheLimit k) :
    (s.disableWay k w).caches.wayOff k w = true := by
  have h := congrArg Caches.off (disableWay_caches hw ho hl)
  exact (wayOff_of_off h).1.trans (wayOff_disable _ hw)

theorem lineError_off (s : State) (k : CacheId) (w a : Nat) : (s.lineError k w a).2.caches.off = s.caches.off := by
  unfold State.lineError
  dsimp only
  split
  · rfl
  · split
    · exact putCaches_off ..
    · rw [putCaches_off]
      split
      · exact off_setTags ..
      · exact off_setTags ..

theorem cacheError_off (s : State) (k : CacheId) (w : Nat) (bad : Bool) (a : BitVec 52) (syn : BitVec 16) :
    (s.cacheError k w bad a syn).caches.off = s.caches.off := by
  unfold State.cacheError
  cases bad with
  | true => exact (congrArg Caches.off (record_stores _ _).caches).trans (lineError_off s k w a.toNat)
  | false => exact congrArg Caches.off (record_stores s _).caches

/-- A way is disabled after an error that leaves the ways disabled as they were. -/
theorem disableWay_off_of {u : State} (hu : u.caches.off = s.caches.off) (hw : w < cacheWays k)
    (ho : s.caches.wayOff k w = false) (hl : s.caches.waysOff k < cacheLimit k) : (u.disableWay k w).caches.wayOff k w = true :=
  disableWay_off hw ((wayOff_of_off hu).1.trans ho) ((wayOff_of_off (w := w) hu).2.symm ▸ hl)

/-- An error in a way that is in use, and what it leads to. -/
theorem exec_wayDisable {w : BitVec 4} (hl : s.live = true) (hb : 9 ≤ s.boot.sstep) (hw : w.toNat < cacheWays k)
    (ho : s.caches.wayOff k w.toNat = false) (err : CacheErr) :
    exec (.wayDisable k w err) s = .next (if (s.wayError k w.toNat err).1 then
      (s.wayError k w.toNat err).2.disableWay k w.toNat else (s.wayError k w.toNat err).2) := by
  refine (eventStep_runs (f := fun s => if cacheWays k ≤ w.toNat ∨ s.caches.wayOff k w.toNat then s
    else match s.wayError k w.toNat err with
      | (true, s1) => s1.disableWay k w.toNat
      | (false, s1) => s1) hl (decide_eq_true hb)).trans (congrArg Host.Outcome.next ?_)
  rw [ho, if_neg (by simp only [Bool.false_eq_true, or_false]; omega)]
  rcases s.wayError k w.toNat err with ⟨_ | _, u⟩ <;> rfl

/-- A way that a corrected error is met in is disabled where two earlier ones lie within 86,400 s. -/
theorem corrected_off {a : BitVec 52} {syn : BitVec 16} (hw : w < cacheWays k) (ho : s.caches.wayOff k w = false)
    (hl : s.caches.waysOff k < cacheLimit k) :
    (if (s.wayError k w (.corrected a syn)).1 then (s.wayError k w (.corrected a syn)).2.disableWay k w
      else (s.wayError k w (.corrected a syn)).2).caches.wayOff k w = true ↔ 2 ≤ (s.recentErrors k w).length := by
  have hu : (s.wayError k w (.corrected a syn)).2.caches.off = s.caches.off := cacheError_off s k w false a syn
  have hn : (s.wayError k w (.corrected a syn)).1 = decide (2 ≤ (s.recentErrors k w).length) := by
    rw [State.wayError, List.length_append, List.length_singleton]
    exact decide_eq_decide.mpr (by omega)
  rw [hn]
  by_cases h : 2 ≤ (s.recentErrors k w).length
  · rw [if_pos (decide_eq_true h)]
    exact iff_of_true (disableWay_off_of hu hw ho hl) h
  · rw [if_neg (by rw [decide_eq_false h]; exact Bool.false_ne_true)]
    exact iff_of_false (by rw [(wayOff_of_off hu).1, ho]; exact Bool.false_ne_true) h

/-! ### The commands of the ports -/

theorem exec_memPortResponse (hl : s.live = true) (write : Bool) (block : BitVec 44) (lmask : BitVec 2) (resp : PortResp)
    (data : List Byte) (pm : BitVec 16) : exec (.memPortResponse 0 write block lmask resp data pm) s =
      .next (s.memAnswered write block.toNat lmask resp data pm) :=
  eventStep_runs (f := fun s => s.memAnswered write block.toNat lmask resp data pm) hl rfl

theorem exec_bufReadData (hl : s.live = true) (port : BitVec 3) (chunk : BitVec 28) (data : List Byte) (rp : BitVec 32)
    (rerr : Bool) : exec (.bufReadData port chunk data rp rerr) s =
      .next (s.bufBeat port.toNat chunk.toNat data rp rerr) :=
  eventStep_runs (f := fun s => s.bufBeat port.toNat chunk.toNat data rp rerr) hl rfl

theorem exec_bufWriteAck (hl : s.live = true) (p2 : BitVec 2) (chunk : BitVec 28) (len : BitVec 5) (aerr : Bool) :
    exec (.bufWriteAck p2 chunk len aerr) s = .next (s.bufAck p2.toNat chunk.toNat (len.toNat + 1) aerr) :=
  eventStep_runs (f := fun s => s.bufAck p2.toNat chunk.toNat (len.toNat + 1) aerr) hl rfl

/-- What SN_RSP carries for a line. -/
theorem snoopAnswer_eq (s : State) (line : Nat) (tag : BitVec 8) :
    s.snoopAnswer line tag = { s with ports := { s.ports with snoop := some (if s.caches.dirtyLine line then
      { tag := tag, dirty := true, data := (s.mem.store.line line).1, poison := (s.mem.store.line line).2 }
      else { tag := tag, dirty := false, data := [], poison := [] }) } } := by
  unfold State.snoopAnswer
  cases s.caches.dirtyLine line <;> rfl

theorem exec_snoop (hl : s.live = true) (line : BitVec 45) (tag : BitVec 8) :
    let t := s.snoopAnswer line.toNat tag
    exec (.snoopInvalidate line tag) s = .next { t with caches := t.caches.removeLine line.toNat } ∧
      exec (.snoopRead line tag) s = .next { t with caches := t.caches.cleanLine line.toNat } :=
  ⟨eventStep_runs (f := fun s => { s.snoopAnswer line.toNat tag with
      caches := (s.snoopAnswer line.toNat tag).caches.removeLine line.toNat }) hl rfl,
    eventStep_runs (f := fun s => { s.snoopAnswer line.toNat tag with
      caches := (s.snoopAnswer line.toNat tag).caches.cleanLine line.toNat }) hl rfl⟩

end

/-- Settles O39: what the answers of each port leave (R319, R320, R335, R336, R338), and when a way is disabled (R322 to
R325). -/
theorem portsAndCaches : Obligations.PortsAndCaches := by
  unfold Obligations.PortsAndCaches
  refine ⟨fun s tag mt block line port p2 chunk len data pm rp resp write lmask hl => ?_, fun s k w hl hb hw ho hlim => ?_⟩
  · refine ⟨exec_memPortResponse hl .., fun hm =>
        eventStep_idles (f := fun s => s.memAnswered write block.toNat lmask resp data pm) hl (decide_eq_false hm),
      fun hc hd => ⟨_, exec_memPortResponse hl .., memAnswered_good data block.toNat hc hd pm⟩,
      ⟨_, exec_memPortResponse hl .., memAnswered_notarget s data block.toNat write pm⟩, ?_,
      fun hd hf => ⟨_, exec_bufReadData hl .., bufBeat_good port.toNat chunk.toNat data rp hd hf⟩,
      fun hr => ⟨_, exec_bufReadData hl .., bufBeat_failed port.toNat chunk.toNat data rp hr⟩, exec_bufWriteAck hl ..,
      fun _ => ⟨_, exec_bufWriteAck hl .., bufAck_failed s p2.toNat chunk.toNat (len.toNat + 1)⟩⟩
    have h := exec_snoop hl line tag
    rw [snoopAnswer_eq] at h
    exact h
  · exact ⟨⟨_, exec_wayDisable hl hb hw ho _, disableWay_caches hw ho hlim, disableWay_off hw ho hlim⟩,
      fun a syn => ⟨_, exec_wayDisable hl hb hw ho _, disableWay_off_of (cacheError_off ..) hw ho hlim⟩,
      fun a syn => ⟨_, exec_wayDisable hl hb hw ho _, corrected_off hw ho hlim⟩⟩

end Sys2Proof.Machine
end

section
/-! PROOFS. The rows that the tile unit moves from and to memory and buffer memory (R116 to R121, R319, R335 to R338). -/

namespace Sys2Proof.Machine

/-! ### Chunks and bytes -/

section
variable (m : Store) (a : Nat)

theorem read_append (k l : Nat) : m.read a (k + l) = m.read a k ++ m.read (a + k) l := by
  simp only [Store.read, List.range_add, List.map_append, List.map_map, Function.comp_def, Nat.add_assoc]

theorem chunkBytes_append (xs ys : List Chunk) : chunkBytes (xs ++ ys) = chunkBytes xs ++ chunkBytes ys :=
  List.flatMap_append

theorem getChunks_succ (n : Nat) : m.getChunks a (n + 1) = m.getChunks a n ++ [(m.read (a + 16 * n) 16, m.mark (a / 16 + n))] := by
  rw [Store.getChunks, List.range_succ, List.map_append]
  rfl

/-- The bytes of the chunks of a store are the bytes that it holds. -/
theorem chunkBytes_getChunks (n : Nat) : chunkBytes (m.getChunks a n) = m.read a (16 * n) := by
  induction n with
  | zero => rfl
  | succ n ih => rw [getChunks_succ, chunkBytes_append, ih, Nat.mul_succ, read_append, chunkBytes, List.flatMap_singleton]

theorem putChunks_append (xs ys : List Chunk) : m.putChunks a (xs ++ ys) = (m.putChunks a xs).putChunks (a + 16 * xs.length) ys := by
  induction xs generalizing m a with
  | nil => rfl
  | cons x xs ih =>
    rw [List.cons_append, Store.putChunks, ih, Store.putChunks, List.length_cons, Nat.mul_succ,
      show a + 16 + 16 * xs.length = a + (16 * xs.length + 16) by omega]

end

section
variable {bs : List Byte} {ms : List Bool} (h : bs.length = 16 * ms.length)
include h

theorem toChunks_whole : ∀ ch ∈ toChunks bs ms, ch.1.length = 16 := by
  intro ch hch
  obtain ⟨p, hp, rfl⟩ := List.mem_map.mp hch
  have := List.snd_lt_of_mem_zipIdx hp
  rw [List.length_take, List.length_drop]
  omega

/-- Bytes that are cut into chunks and written read back. -/
theorem byte_putChunks_toChunks (m : Store) (a : Nat) {i : Nat} (hi : i < bs.length) :
    (m.putChunks a (toChunks bs ms)).byte (a + i) = bs[i] := by
  have hl : (toChunks bs ms).length = ms.length := by simp [toChunks]
  have hb := byte_putChunks_inside (toChunks_whole h) m a (i := i / 16) (j := i % 16) (by omega) (by omega)
  rw [show a + 16 * (i / 16) + i % 16 = a + i by omega] at hb
  rw [hb]
  simp only [toChunks, List.getElem_map, List.getElem_zipIdx, Nat.zero_add, List.getD_eq_getElem?_getD]
  rw [List.getElem?_take_of_lt (by omega), List.getElem?_drop, Nat.div_add_mod, List.getElem?_eq_getElem hi, Option.getD_some]

theorem read_putChunks_toChunks (m : Store) (a : Nat) : (m.putChunks a (toChunks bs ms)).read a bs.length = bs := by
  refine List.ext_getElem (read_length _ _ _) fun i hi hb => ?_
  simp only [Store.read, List.getElem_map, List.getElem_range]
  exact byte_putChunks_toChunks h m a hb

end

/-- Bytes outside the chunks written read as before. -/
theorem read_putChunks_outside {cs : List Chunk} (hc : ∀ ch ∈ cs, ch.1.length = 16) (m : Store) {a b n : Nat}
    (h : b + n ≤ a ∨ a + 16 * cs.length ≤ b) : (m.putChunks a cs).read b n = m.read b n := by
  refine List.map_congr_left fun i hi => byte_putChunks_outside hc m ?_
  have := List.mem_range.mp hi
  omega

/-! ### What the reads of a transfer leave -/

theorem Accessed.tile {s t : State} (h : Accessed s t) : t.tile = s.tile := by
  obtain ⟨_, _, _, _, _, _, _, _, _, rfl⟩ := h
  rfl

theorem tileLineRead_accessed (s : State) (line : Nat) : Accessed s (s.tileLineRead line).2 := by
  unfold State.tileLineRead
  split
  · exact (pmcAdd_fetched ..).accessed
  · dsimp only
    split
    · exact (putCaches_fetched s _ none).accessed
    · exact ((putCaches_fetched s _ none).trans (pmcAdd_fetched _ 7 1)).accessed

theorem tileBlockRead_accessed (s : State) (ls : List Nat) : Accessed s (s.tileBlockRead ls) := by
  unfold State.tileBlockRead
  refine .trans ?_ (Fetched.of_ma (State.maLines_ma ..)).accessed
  exact foldl_keeps (P := fun r : List Nat × State => Accessed s r.2) (fun r l hr => hr.trans (tileLineRead_accessed r.2 l)) ls
    ([], s) (.refl s)

section
variable (p : Perf) (first n : Nat)

theorem readBuf_accessed (q : Nat × Nat) : Accessed p.s (p.readBuf first n q).2.s := by
  unfold Perf.readBuf
  split
  · exact ⟨_, _, _, _, _, _, _, _, _, rfl⟩
  · dsimp only
    split
    · exact .refl _
    · exact ⟨_, _, _, _, _, _, _, _, _, rfl⟩

theorem readPiece_accessed (loc : Loc) (q : Nat × Nat) : Accessed p.s (p.readPiece loc first n q).2.s := by
  cases loc with
  | mem => exact foldl_keeps (P := Accessed p.s) (fun s ls hs => hs.trans (tileBlockRead_accessed s ls)) _ p.s (.refl _)
  | buf =>
    exact foldl_keeps (f := fun (r : List Chunk × Perf) o => (r.1 ++ (r.2.readBuf first n o).1, (r.2.readBuf first n o).2))
      (P := fun r : List Chunk × Perf => Accessed p.s r.2.s) (fun r o hr => hr.trans (readBuf_accessed r.2 first n o))
      (bufRequests (q.2 / 512 + 2) q.1 q.2) ([], p) (.refl _)

theorem readRow_accessed (row : Row) : Accessed p.s (p.readRow first n row).2.s :=
  foldl_keeps (f := fun (r : List Chunk × Perf) q =>
      (r.1 ++ (r.2.readPiece row.loc first n q).1, (r.2.readPiece row.loc first n q).2))
    (P := fun r : List Chunk × Perf => Accessed p.s r.2.s) (fun r q hr => hr.trans (readPiece_accessed r.2 first n row.loc q)) row.pieces ([], p) (.refl _)

theorem readRows_accessed (rows : List Row) : Accessed p.s (p.readRows first n rows).2.s :=
  foldl_keeps (f := fun (r : List Chunk × Perf) row => (r.1 ++ (r.2.readRow first n row).1, (r.2.readRow first n row).2))
    (P := fun r : List Chunk × Perf => Accessed p.s r.2.s) (fun r row hr => hr.trans (readRow_accessed r.2 first n row)) rows ([], p) (.refl _)

end

theorem inline_accessed (p : Perf) (c outcome : Nat) : Accessed p.s (p.inline c outcome) := by
  unfold Perf.inline
  dsimp only
  have hf : ∀ es : List ErrRec, Accessed p.s (es.foldl (fun s r =>
      s.record { r with ctx := BitVec.ofNat 16 c, outcome := BitVec.ofNat 8 outcome }) p.s) := fun es =>
    foldl_keeps (P := Accessed p.s) (fun s r hs => hs.trans (record_accessed s _)) es p.s (.refl _)
  split
  · exact hf _
  · exact (hf _).trans (record_accessed ..)

/-! ### A tile row that is there (R116, R319, R335) -/

theorem mem_linesOf {a n x : Nat} (h1 : a ≤ x) (h2 : x < a + n) : x / 128 ∈ linesOf a n := by
  refine List.mem_map.mpr ⟨x / 128 - a / 128, List.mem_range.mpr ?_, ?_⟩
  · have := Nat.div_le_div_right (c := 128) (show x ≤ a + n - 1 by omega)
    have := Nat.div_le_div_right (c := 128) h1
    omega
  · have := Nat.div_le_div_right (c := 128) h1
    omega

theorem bytesAt_congr {s t : State} (hm : t.mem = s.mem) (hb : t.buf = s.buf) (loc : Loc) (a n : Nat) :
    t.bytesAt loc a n = s.bytesAt loc a n := by
  cases loc with
  | mem => exact congrArg (fun m : HostMem => m.store.read a n) hm
  | buf => exact congrArg (fun b : Buffer => b.store.read a n) hb

theorem rowThere_congr {s t : State} (hm : t.mem.noTarget = s.mem.noTarget) (hb : t.buf.size = s.buf.size) {loc : Loc} {a : Nat}
    (h : s.rowThere loc a) : t.rowThere loc a := by
  obtain ⟨ha, h⟩ := h
  cases loc with
  | mem => exact ⟨ha, fun l hl => by rw [HostMem.lost, hm]; exact h l hl⟩
  | buf => exact ⟨ha, hb ▸ h⟩

/-- The requests of a read inside buffer memory: together they deliver its bytes. -/
theorem readRequests_bytes (first k : Nat) : ∀ (fuel a n : Nat) (acc : List Chunk) (p : Perf), a % 16 = 0 → n % 16 = 0 →
    (n = 0 ∨ a % 512 + n ≤ fuel * 512) → a + n ≤ p.s.buf.size →
    chunkBytes ((cuts 512 fuel a n).foldl (fun r o => (r.1 ++ (r.2.readBuf first k o).1, (r.2.readBuf first k o).2)) (acc, p)).1 =
      chunkBytes acc ++ p.s.buf.store.read a n
  | 0, a, n, acc, p, _, _, hf, _ => by
    obtain rfl : n = 0 := by omega
    exact (List.append_nil _).symm
  | fuel + 1, a, n, acc, p, ha, hn, hf, hs => by
    rw [cuts]
    by_cases h0 : n = 0
    · subst h0
      exact (List.append_nil _).symm
    · rw [if_neg h0]
      dsimp only
      have hk : ∃ l, min n (512 - a % 512) = l ∧ l % 16 = 0 ∧ l ≤ n ∧
          (n - l = 0 ∨ (a + l) % 512 + (n - l) ≤ fuel * 512) :=
        ⟨_, rfl, by omega, by omega, by omega⟩
      obtain ⟨l, hl, hl16, hln, hlf⟩ := hk
      rw [hl, List.foldl_cons]
      have hb : (p.readBuf first k (a, l)).1 = p.s.buf.store.getChunks a (ceilDiv l 16) := by
        unfold Perf.readBuf
        rw [if_neg (by dsimp only; omega)]
        dsimp only
        split <;> rfl
      have hbuf := (readBuf_accessed p first k (a, l)).buf
      rw [readRequests_bytes first k fuel (a + l) (n - l) _ _ (by omega) (by omega) hlf (by rw [hbuf]; omega), hbuf,
        chunkBytes_append, hb, chunkBytes_getChunks, List.append_assoc, show 16 * ceilDiv l 16 = l by unfold ceilDiv; omega,
        ← read_append, Nat.add_sub_cancel' hln]

theorem getChunks_there {m : HostMem} {a n : Nat} (h : ∀ l ∈ linesOf a (16 * n), m.lost l = false) :
    (m.getChunks a n).1 = m.store.getChunks a n := by
  refine List.map_congr_left fun i hi => ?_
  have := List.mem_range.mp hi
  rw [h _ (mem_linesOf (by omega) (by omega)), if_neg Bool.false_ne_true]

/-- A row of one piece. -/
theorem readRow_single (p : Perf) (loc : Loc) (first n : Nat) (q : Nat × Nat) :
    (p.readRow first n ⟨loc, [q]⟩).1 = (p.readPiece loc first n q).1 :=
  List.nil_append (p.readPiece loc first n q).1

theorem readPiece_mem (p : Perf) (first n a k : Nat) : (p.readPiece .mem first n (a, k)).1 = (p.s.mem.getChunks a (k / 16)).1 :=
  rfl

theorem readPiece_buf (p : Perf) (first n a k : Nat) : (p.readPiece .buf first n (a, k)).1 =
    ((cuts 512 (k / 512 + 2) a k).foldl (fun r o =>
      (r.1 ++ (r.2.readBuf first n o).1, (r.2.readBuf first n o).2)) ([], p)).1 :=
  rfl

/-- A tile row that is there is read as its 512 bytes. -/
theorem readRow_there {p : Perf} {loc : Loc} {a : Nat} (first n : Nat) (h : p.s.rowThere loc a) :
    chunkBytes (p.readRow first n ⟨loc, [(a, 512)]⟩).1 = p.s.bytesAt loc a 512 := by
  obtain ⟨ha, h⟩ := h
  cases loc with
  | mem =>
    rw [readRow_single, readPiece_mem, getChunks_there h]
    exact chunkBytes_getChunks ..
  | buf =>
    rw [readRow_single, readPiece_buf]
    exact (readRequests_bytes first n (512 / 512 + 2) a 512 [] p ha rfl (.inr (by omega)) h).trans
      (List.nil_append (p.s.buf.store.read a 512))

/-! ### A tile row written (R319, R336) -/

/-- Chunks written to lines that have a target. -/
theorem putChunks_there {m : HostMem} {a : Nat} {cs : List Chunk} (h : ∀ l ∈ linesOf a (16 * cs.length), m.lost l = false) :
    (m.putChunks a cs).1 = { m with store := m.store.putChunks a cs } := by
  have key : ∀ (xs : List Chunk) (k : Nat) (u : HostMem), u.noTarget = m.noTarget → k + xs.length = cs.length →
      (xs.zipIdx k).foldl (fun u p => if u.lost ((a + 16 * p.2) / 128) then u else
        { u with store := u.store.putChunk (a + 16 * p.2) p.1 }) u = { u with store := u.store.putChunks (a + 16 * k) xs } := by
    intro xs
    induction xs with
    | nil => exact fun _ _ _ _ => rfl
    | cons x xs ih =>
      intro k u hu hk
      rw [List.length_cons] at hk
      have hl : u.lost ((a + 16 * k) / 128) = false := by
        rw [HostMem.lost, hu]
        exact h _ (mem_linesOf (by omega) (by omega))
      rw [List.zipIdx_cons, List.foldl_cons, hl, if_neg Bool.false_ne_true]
      exact ih (k + 1) { u with store := u.store.putChunk (a + 16 * k) x } hu (by omega)
  exact key cs 0 m rfl (Nat.zero_add _)

theorem chunkRequests_ma (fuel a : Nat) (cs : List Chunk) (s : State) :
    ∃ ma, chunkRequests fuel a cs s = { s with ports := { s.ports with ma := ma } } := by
  induction fuel generalizing a cs s with
  | zero => exact ⟨_, rfl⟩
  | succ fuel ih =>
    cases cs with
    | nil => exact ⟨_, rfl⟩
    | cons c cs =>
      unfold chunkRequests
      dsimp only
      refine Exists.imp (fun ma hm => hm.trans ?_) (ih _ _ _)
      obtain ⟨ma', hm'⟩ := State.maLines_ma s _ _ _ _
      rw [hm']

/-- The requests of a write inside buffer memory: together they write its chunks. -/
theorem writeRequests_chunks : ∀ (fuel a : Nat) (cs : List Chunk) (p : Perf), a % 16 = 0 →
    (cs.length = 0 ∨ a % 512 + 16 * cs.length ≤ fuel * 512) → a + 16 * cs.length ≤ p.s.buf.size →
    ((cuts 512 fuel a (16 * cs.length)).foldl (fun (r : List Chunk × Perf) o =>
      (r.1.drop (ceilDiv o.2 16), r.2.writeBuf o (r.1.take (ceilDiv o.2 16)))) (cs, p)).2 =
      { p with s := { p.s with buf := { p.s.buf with store := p.s.buf.store.putChunks a cs } } }
  | 0, a, cs, p, _, hf, _ => by
    obtain rfl := List.eq_nil_of_length_eq_zero (l := cs) (by omega)
    rfl
  | fuel + 1, a, cs, p, ha, hf, hs => by
    rw [cuts]
    by_cases h0 : 16 * cs.length = 0
    · obtain rfl := List.eq_nil_of_length_eq_zero (l := cs) (by omega)
      rfl
    · rw [if_neg h0]
      dsimp only
      have hk : ∃ l, min (16 * cs.length) (512 - a % 512) = 16 * l ∧ l ≤ cs.length ∧
          (cs.length - l = 0 ∨ (a + 16 * l) % 512 + 16 * (cs.length - l) ≤ fuel * 512) :=
        ⟨min (16 * cs.length) (512 - a % 512) / 16, by omega, by omega, by omega⟩
      obtain ⟨l, hl, hlc, hlf⟩ := hk
      have hc : ceilDiv (16 * l) 16 = l := by unfold ceilDiv; omega
      have hw : p.writeBuf (a, 16 * l) (cs.take l) =
          { p with s := { p.s with buf := { p.s.buf with store := p.s.buf.store.putChunks a (cs.take l) } } } := by
        unfold Perf.writeBuf
        exact if_neg (by dsimp only; omega)
      have hd : (cs.drop l).length = cs.length - l := List.length_drop
      rw [hl, List.foldl_cons, hc, hw, show 16 * cs.length - 16 * l = 16 * (cs.drop l).length by omega,
        writeRequests_chunks fuel (a + 16 * l) (cs.drop l) _ (by omega) (by omega) (by dsimp only; omega)]
      dsimp only
      have hp := putChunks_append p.s.buf.store a (cs.take l) (cs.drop l)
      rw [List.take_append_drop, List.length_take_of_le hlc] at hp
      rw [hp]

/-- A state whose tile unit is as it was, with memory and buffer memory of the same extent. -/
structure SamePlaces (s t : State) : Prop where
  tile : t.tile = s.tile
  noTarget : t.mem.noTarget = s.mem.noTarget
  size : t.buf.size = s.buf.size

theorem SamePlaces.trans {s t u : State} (h : SamePlaces s t) (h' : SamePlaces t u) : SamePlaces s u :=
  ⟨h'.tile.trans h.tile, h'.noTarget.trans h.noTarget, h'.size.trans h.size⟩

theorem SamePlaces.there {s t : State} (h : SamePlaces s t) {loc : Loc} {a : Nat} (hr : s.rowThere loc a) : t.rowThere loc a :=
  rowThere_congr h.noTarget h.size hr

/-- A tile row is written where it is there: its 512 bytes are held, and those of no other row change. -/
theorem writeRow_there {p : Perf} {loc : Loc} {a : Nat} {bs : List Byte} {ms : List Bool} (h : p.s.rowThere loc a)
    (hb : bs.length = 512) (hm : ms.length = 32) :
    let t := (p.writeRow ⟨loc, [(a, 512)]⟩ (toChunks bs ms)).s
    SamePlaces p.s t ∧ t.bytesAt loc a 512 = bs ∧
      ∀ b, (a + 512 ≤ b ∨ b + 512 ≤ a) → t.bytesAt loc b 512 = p.s.bytesAt loc b 512 := by
  obtain ⟨ha, h⟩ := h
  have hbm : bs.length = 16 * ms.length := by omega
  have hl : (toChunks bs ms).length = 32 := by rw [toChunks, List.length_map, List.length_zipIdx, hm]
  have htake : (toChunks bs ms).take (ceilDiv 512 16) = toChunks bs ms := List.take_of_length_le (by rw [hl]; decide)
  have hread : ∀ m : Store, (m.putChunks a (toChunks bs ms)).read a 512 = bs := fun m => by
    rw [← hb]
    exact read_putChunks_toChunks hbm m a
  have hkeep : ∀ (m : Store) (b : Nat), (a + 512 ≤ b ∨ b + 512 ≤ a) → (m.putChunks a (toChunks bs ms)).read b 512 = m.read b 512 :=
    fun m b hd => read_putChunks_outside (toChunks_whole hbm) m (by omega)
  intro t
  cases loc with
  | mem =>
    obtain ⟨ma, hma⟩ := chunkRequests_ma (toChunks bs ms).length a (toChunks bs ms) p.s
    have ht : t = { p.s with
        ports := { p.s.ports with ma := ma }
        mem := { p.s.mem with store := p.s.mem.store.putChunks a (toChunks bs ms) } } := by
      have : t = (p.writePiece .mem (a, 512) ((toChunks bs ms).take (ceilDiv 512 16))).s := rfl
      rw [this, htake, Perf.writePiece]
      dsimp only
      have hp := putChunks_there (m := p.s.mem) (a := a) (cs := toChunks bs ms) (by rw [hl]; exact h)
      rw [hma]
      exact congrArg (fun m : HostMem => ({ p.s with ports := { p.s.ports with ma := ma }, mem := m } : State)) hp
    rw [ht]
    exact ⟨⟨rfl, rfl, rfl⟩, hread _, fun b hd => hkeep _ b hd⟩
  | buf =>
    have ht : t = { p.s with buf := { p.s.buf with store := p.s.buf.store.putChunks a (toChunks bs ms) } } := by
      have : t = (p.writePiece .buf (a, 512) ((toChunks bs ms).take (ceilDiv 512 16))).s := rfl
      rw [this, htake, Perf.writePiece]
      have hw := writeRequests_chunks (512 / 512 + 2) a (toChunks bs ms) p ha (.inr (by omega)) (by rw [hl]; exact h)
      rw [hl, show 16 * 32 = 512 from rfl] at hw
      exact congrArg Perf.s hw
    rw [ht]
    exact ⟨⟨rfl, rfl, rfl⟩, hread _, fun b hd => hkeep _ b hd⟩

end Sys2Proof.Machine
end

section
/-! PROOFS. TLD and TST, with their scale forms: the rows loaded, the bytes stored, and the abandoned transfer (R116 to R121,
R178, R202). -/

namespace Sys2Proof.Machine

/-! ### Saddles of a state -/

section
variable (s : State) (i : Nat)

theorem sad_modSad (f : Saddle → Saddle) : (s.modSad i f).sad i = f (s.sad i) := by
  unfold State.modSad State.setSad State.sad
  split <;> rfl

theorem sad_of_tile {t : State} (h : t.tile = s.tile) : t.sad i = s.sad i := by
  simp only [State.sad, h]

theorem modSad_stores (f : Saddle → Saddle) : StoresSame s (s.modSad i f) := by
  unfold State.modSad State.setSad
  split <;> exact ⟨rfl, rfl, rfl⟩

theorem countIssue_stores (q : Issued) : StoresSame s (s.countIssue i q) := by
  have hp : ∀ u : State, StoresSame u (u.pmcAdd 4 1) := fun u => by
    unfold State.pmcAdd
    split <;> exact ⟨rfl, rfl, rfl⟩
  unfold State.countIssue
  refine .trans ?_ (hp _)
  exact .trans (t := { s with tile := { s.tile with
    issueSeq := s.tile.issueSeq + 1
    winEnergy := s.tile.winEnergy + q.k.energy q.shape q.right } }) ⟨rfl, rfl, rfl⟩ (modSad_stores ..)

/-- What an issue counts beside the saddle's data: the stamp of its last issue. -/
theorem sad_countIssue (q : Issued) : (s.countIssue i q).sad i = { s.sad i with lastIssue := s.tile.issueSeq + 1 } := by
  unfold State.countIssue
  dsimp only
  have hp : ∀ u : State, (u.pmcAdd 4 1).sad i = u.sad i := fun u => sad_of_tile u i (pmcAdd_fetched u 4 1).accessed.tile
  rw [hp, sad_modSad]
  rfl

theorem sad_dropReins (u : TileUnit) (j : Nat) (wr : List (Nat × Nat)) :
    State.sad { s with tile := u.dropReins j wr } i = State.sad { s with tile := u } i := by
  unfold TileUnit.dropReins
  split
  · rfl
  · rfl

end

/-- An operation's effect on the saddles, on memory and on buffer memory is that of its kind; the rein caches follow. -/
theorem sad_perform (x : TileRun) (i : Nat) (s : State) : (x.perform i s).s.sad i = (x.act i s).s.sad i :=
  sad_dropReins ..

theorem sad_inline (p : Perf) (i c outcome : Nat) : (p.inline c outcome).sad i = p.s.sad i :=
  sad_of_tile _ _ (inline_accessed p c outcome).tile

theorem bytesAt_inline (p : Perf) (c outcome : Nat) (loc : Loc) (a n : Nat) :
    (p.inline c outcome).bytesAt loc a n = p.s.bytesAt loc a n :=
  bytesAt_congr (inline_accessed p c outcome).mem (inline_accessed p c outcome).buf ..

/-! ### Rows of a tile -/

section
variable (d : Saddle) {t : Nat} (scale : Bool)

theorem twTile_lt (w : Word) : twTile w < 16 := Nat.mod_lt _ (by decide)

theorem tile_writeTile (ht : t < 16) (o : Nat) (bs : List Byte) (ms : List (Nat × Bool)) :
    (d.writeTile t scale o bs ms).tile t = (d.tile t).write scale o bs ms := by
  have hs : (d.writeTile t scale o bs ms).status.tileState t = 2 := by
    have h := Word.bits_putBits_inside d.status.ostate (h := 2 * t + 1) (l := 2 * t) 2 (Nat.le_refl _) (Nat.le_refl _)
      (by omega)
    rw [Nat.sub_self, show 2 * t + 1 + 1 - 2 * t = 2 by omega] at h
    exact h
  rw [Saddle.tile, hs, if_neg (by decide)]
  exact Tbl.get_set_same ..

theorem read_write_tile (x : Tile) (o : Nat) (bs : List Byte) (ms : List (Nat × Bool)) (a n : Nat) :
    (x.write scale o bs ms).read scale a n = (List.range n).map fun i =>
      if o ≤ a + i ∧ a + i < o + bs.length then bs.getD (a + i - o) 0 else Tbl.get 0 (if scale then x.scale else x.bytes) (a + i) := by
  refine List.map_congr_left fun i _ => ?_
  have h := fun m : Tbl Byte => get_foldl_put bs m o 0 (a + i)
  cases scale with
  | true => exact h x.scale
  | false => exact h x.bytes

theorem tileRow_setTileRow_same (ht : t < 16) (r : Nat) {bs : List Byte} (ms : List Bool) (hb : bs.length = 512) :
    ((d.setTileRow t scale r bs ms).tileRow t scale r).1 = bs := by
  rw [Saddle.tileRow, Saddle.setTileRow, tile_writeTile d scale ht]
  dsimp only
  rw [read_write_tile]
  refine List.ext_getElem (by rw [List.length_map, List.length_range, hb]) fun i hi hi' => ?_
  rw [List.getElem_map, List.getElem_range, if_pos (by omega), Nat.add_sub_cancel_left, getD_getElem]

theorem tileRow_setTileRow_other (ht : t < 16) {r k : Nat} {bs : List Byte} (ms : List Bool) (hb : bs.length = 512) (h : k ≠ r) :
    ((d.setTileRow t scale r bs ms).tileRow t scale k).1 = (d.tileRow t scale k).1 := by
  simp only [Saddle.tileRow, Saddle.setTileRow]
  rw [tile_writeTile d scale ht, read_write_tile, Tile.read]
  refine List.map_congr_left fun i hi => ?_
  have := List.mem_range.mp hi
  exact if_neg (by omega)

/-- SCL and SAX are no part of a tile's rows. -/
theorem tileRow_setScale (ht : t < 16) (sax : Bool) (r : Nat) :
    (d.setScale t sax).tileRow t scale r = d.tileRow t scale r := by
  have hs : (d.setScale t sax).status.tileState t = d.status.tileState t := by
    exact (Word.bits_putBits_outside _ _ (.inr (by omega))).trans (Word.bits_putBits_outside _ _ (.inr (by omega)))
  have ht : (d.setScale t sax).tile t = d.tile t := by
    rw [Saddle.tile, hs]
    rfl
  rw [Saddle.tileRow, ht]
  rfl

end

/-! ### TLD (R116, R118, R178) -/

/-- One row of a TLD. -/
def loadRow (i t : Nat) (scale : Bool) (f : Nat) (p : Perf) (q : Row × Nat) : Perf :=
  (p.readRow 0 8 q.1).2.modSad i fun d =>
    d.setTileRow t scale (f + q.2) (chunkBytes (p.readRow 0 8 q.1).1) ((p.readRow 0 8 q.1).1.map (·.2))

/-- A tile row of 512 bytes at `a`. -/
def rowAt (loc : Loc) (a : Nat) : Row := ⟨loc, [(a, 512)]⟩

theorem bytesAt_length (s : State) (loc : Loc) (a n : Nat) : (s.bytesAt loc a n).length = n := by
  cases loc <;> exact read_length ..

section
variable (i : Nat) {t : Nat} (scale : Bool) (f : Nat) (ht : t < 16) (loc : Loc)
include ht

theorem loadRow_there {p : Perf} {a : Nat} (k : Nat) (h : p.s.rowThere loc a) :
    let u := loadRow i t scale f p (rowAt loc a, k)
    u.s.mem = p.s.mem ∧ u.s.buf = p.s.buf ∧ ((u.s.sad i).tileRow t scale (f + k)).1 = p.s.bytesAt loc a 512 ∧
      ∀ r, r ≠ f + k → ((u.s.sad i).tileRow t scale r).1 = ((p.s.sad i).tileRow t scale r).1 := by
  have ha := readRow_accessed p 0 8 (rowAt loc a)
  have hb := readRow_there 0 8 h
  have hl : (chunkBytes (p.readRow 0 8 (rowAt loc a)).1).length = 512 := by
    rw [rowAt, hb]
    exact bytesAt_length ..
  have hs : (loadRow i t scale f p (rowAt loc a, k)).s.sad i = (p.s.sad i).setTileRow t scale (f + k)
      (chunkBytes (p.readRow 0 8 (rowAt loc a)).1) ((p.readRow 0 8 (rowAt loc a)).1.map (·.2)) := by
    refine (sad_modSad (p.readRow 0 8 (rowAt loc a)).2.s i _).trans ?_
    rw [sad_of_tile _ _ ha.tile]
  have hm := modSad_stores (p.readRow 0 8 (rowAt loc a)).2.s i fun d => d.setTileRow t scale (f + k)
    (chunkBytes (p.readRow 0 8 (rowAt loc a)).1) ((p.readRow 0 8 (rowAt loc a)).1.map (·.2))
  dsimp only
  rw [hs]
  exact ⟨hm.mem.trans ha.mem, hm.buf.trans ha.buf, (tileRow_setTileRow_same _ scale ht _ _ hl).trans hb,
    fun r hr => tileRow_setTileRow_other _ scale ht _ hl hr⟩

/-- The rows of a TLD, one after the other. -/
theorem loadRows_there : ∀ (places : List Nat) (k : Nat) (p : Perf), (∀ a ∈ places, p.s.rowThere loc a) →
    let u := ((places.map (rowAt loc)).zipIdx k).foldl (loadRow i t scale f) p
    (∀ j a, places[j]? = some a → ((u.s.sad i).tileRow t scale (f + (k + j))).1 = p.s.bytesAt loc a 512) ∧
      ∀ r, r < f + k → ((u.s.sad i).tileRow t scale r).1 = ((p.s.sad i).tileRow t scale r).1
  | [], k, p, _ => ⟨fun j a h => absurd h (by simp), fun _ _ => rfl⟩
  | a :: places, k, p, h => by
    obtain ⟨h0, hrest⟩ := List.forall_mem_cons.mp h
    obtain ⟨hm, hb, hrow, hothers⟩ := loadRow_there i scale f ht loc k h0
    obtain ⟨hrows, hkeep⟩ := loadRows_there places (k + 1) (loadRow i t scale f p (rowAt loc a, k))
      fun b hb' => rowThere_congr (congrArg HostMem.noTarget hm) (congrArg Buffer.size hb) (hrest b hb')
    rw [List.map_cons, List.zipIdx_cons, List.foldl_cons]
    refine ⟨fun j b hj => ?_, fun r hr => (hkeep r (by omega)).trans (hothers r (by omega))⟩
    cases j with
    | zero =>
      obtain rfl : a = b := by simpa using hj
      exact (hkeep (f + k) (by omega)).trans hrow
    | succ j =>
      have hj' : places[j]? = some b := by simpa using hj
      rw [show k + (j + 1) = k + 1 + j by omega, hrows j b hj']
      exact bytesAt_congr hm hb ..

end

/-! ### TST (R116, R121, R178) -/

/-- The bytes and marks of a tile row that a TST stores: a scale store that no TLD has written reads as 0. -/
def storedRow (d : Saddle) (t : Nat) (scale : Bool) (r : Nat) : List Byte × List Bool :=
  if scale && !d.status.scl t then (List.replicate 512 0, List.replicate 32 false) else d.tileRow t scale r

/-- One row of a TST. -/
def storeRow (i t : Nat) (scale : Bool) (f : Nat) (p : Perf) (q : Row × Nat) : Perf :=
  p.writeRow q.1 (toChunks (storedRow (p.s.sad i) t scale (f + q.2)).1 (storedRow (p.s.sad i) t scale (f + q.2)).2)

section
variable (i t : Nat) (scale : Bool) (f : Nat) (loc : Loc)

theorem storedRow_length (d : Saddle) (r : Nat) :
    (storedRow d t scale r).1.length = 512 ∧ (storedRow d t scale r).2.length = 32 := by
  unfold storedRow
  split
  · exact ⟨List.length_replicate, List.length_replicate⟩
  · exact ⟨by simp [Saddle.tileRow, Tile.read], by simp [Saddle.tileRow, Tile.marks]⟩

/-- The rows of a TST, one after the other. -/
theorem storeRows_there : ∀ (places : List Nat) (k : Nat) (p : Perf), (∀ a ∈ places, p.s.rowThere loc a) →
    places.Pairwise (fun a b => a + 512 ≤ b ∨ b + 512 ≤ a) →
    let u := ((places.map (rowAt loc)).zipIdx k).foldl (storeRow i t scale f) p
    (∀ j a, places[j]? = some a → u.s.bytesAt loc a 512 = (storedRow (p.s.sad i) t scale (f + (k + j))).1) ∧
      ∀ b, (∀ a ∈ places, b + 512 ≤ a ∨ a + 512 ≤ b) → u.s.bytesAt loc b 512 = p.s.bytesAt loc b 512
  | [], k, p, _, _ => ⟨fun j a h => absurd h (by simp), fun _ _ => rfl⟩
  | a :: places, k, p, h, hd => by
    obtain ⟨h0, hrest⟩ := List.forall_mem_cons.mp h
    obtain ⟨hda, hdr⟩ := List.pairwise_cons.mp hd
    obtain ⟨hl, hml⟩ := storedRow_length t scale (p.s.sad i) (f + k)
    obtain ⟨hs, hrow, hothers⟩ := writeRow_there h0 hl hml
    obtain ⟨hrows, hkeep⟩ := storeRows_there places (k + 1) (storeRow i t scale f p (rowAt loc a, k))
      (fun b hb => hs.there (hrest b hb)) hdr
    rw [List.map_cons, List.zipIdx_cons, List.foldl_cons]
    refine ⟨fun j b hj => ?_, fun b hb => ?_⟩
    · cases j with
      | zero =>
        obtain rfl : a = b := by simpa using hj
        exact (hkeep a hda).trans hrow
      | succ j =>
        have hj' : places[j]? = some b := by simpa using hj
        rw [show k + (j + 1) = k + 1 + j by omega, hrows j b hj', storeRow, rowAt, sad_of_tile _ _ hs.tile]
    · obtain ⟨hba, hbr⟩ := List.forall_mem_cons.mp hb
      exact (hkeep b hbr).trans (hothers b hba.symm)

end

/-! ### The transfer as a whole -/

section
variable (q : Issued) (n : Nat) (s : State) {scale : Bool}

theorem act_load (rows : List Row) (hk : q.k = .tld scale) :
    let p := rows.zipIdx.foldl (loadRow n (twTile q.right.data) scale (twFirst q.right.data)) ⟨s, [], []⟩
    (q.run rows).act n s = if scale then p.modSad n fun d => d.setScale (twTile q.right.data) (q.shape.bit 48) else p := by
  unfold TileRun.act
  dsimp only [Issued.run]
  rw [hk]
  unfold Perf.load
  cases scale <;> rfl

theorem act_store (rows : List Row) (hk : q.k = .tst scale) : (q.run rows).act n s =
    rows.zipIdx.foldl (storeRow n (twTile q.right.data) scale (twFirst q.right.data)) ⟨s, [], []⟩ := by
  unfold TileRun.act
  dsimp only [Issued.run]
  rw [hk]
  rfl

section
variable {q n} {s} {loc : Loc} {places : List Nat} (h : ∀ a ∈ places, s.rowThere loc a) (c : Nat)
include h

/-- TLD leaves in each row of its tile the 512 bytes read for it. -/
theorem load_leaves (hk : q.k = .tld scale) {j a : Nat} (hj : places[j]? = some a) :
    let t := ((q.run (places.map (rowAt loc))).perform n s).inline c 1
    ((t.sad n).tileRow (twTile q.right.data) scale (twFirst q.right.data + j)).1 = s.bytesAt loc a 512 := by
  have hr := (loadRows_there n scale (twFirst q.right.data) (twTile_lt q.right.data) loc places 0 ⟨s, [], []⟩ h).1 j a hj
  rw [Nat.zero_add] at hr
  dsimp only
  rw [sad_inline, sad_perform, act_load q n s _ hk]
  cases scale with
  | false => exact hr
  | true => rw [if_pos rfl, Perf.modSad, sad_modSad, tileRow_setScale _ true (twTile_lt q.right.data), hr]

/-- TST leaves in memory or buffer memory, for each row, the 512 bytes of the tile's row. -/
theorem store_leaves (hk : q.k = .tst scale) (hscl : scale = true → (s.sad n).status.scl (twTile q.right.data) = true)
    (hd : places.Pairwise fun a b => a + 512 ≤ b ∨ b + 512 ≤ a) {j a : Nat} (hj : places[j]? = some a) :
    let t := ((q.run (places.map (rowAt loc))).perform n s).inline c 1
    t.bytesAt loc a 512 = ((s.sad n).tileRow (twTile q.right.data) scale (twFirst q.right.data + j)).1 := by
  have hr := (storeRows_there n (twTile q.right.data) scale (twFirst q.right.data) loc places 0 ⟨s, [], []⟩ h hd).1 j a hj
  rw [Nat.zero_add, storedRow, if_neg (by cases scale <;> simp [hscl])] at hr
  dsimp only
  rw [bytesAt_inline, ← hr, ← act_store q n s _ hk]
  exact bytesAt_congr rfl rfl ..

end

end

/-- R117, R119: what a transfer that has its turn does: it is carried out, or it is abandoned and presented again. -/
theorem transferTile_ok {i : Instr} {s1 s3 s4 : State} {q : Issued} {n : Nat} {rows rows2 : List Row} (hiss : Issues i s1 q n s3)
    (hr : placeRows q.c q.k q.shape q.left q.right s3 = .ok (rows, rows2) s4) (hp : s4.paced q.c = false)
    (hq : (s4.sad n).queue = []) (ha : s4.tile.active.toNat = n) :
    transferTile i none s1 = .ok none (((q.run rows).perform n (s4.countIssue n q)).inline q.c 1) ∧
      ∀ m, transferTile i (some m) s1 = .error (.wait .transfer 0 .none 0)
        ((({ q.run rows with cut := some m } : TileRun).perform n s4).inline q.c 1) := by
  obtain ⟨s2, h2, h3⟩ := hiss
  have hw := waitTurn_ok (engines := true) hp hq fun _ => ha
  exact ⟨(bind_of_ok h2).trans ((bind_of_ok h3).trans ((bind_of_ok hr).trans ((bind_of_ok hw).trans rfl))),
    fun m => (bind_of_ok h2).trans ((bind_of_ok h3).trans ((bind_of_ok hr).trans ((bind_of_ok hw).trans rfl)))⟩

/-- Settles O24: the transfers, their abandonment, and the bytes that they move. -/
theorem tileTransferCompletes : Obligations.TileTransferCompletes := by
  unfold Obligations.TileTransferCompletes
  intro sh l r m s s1 s3 s4 q n rows rows2 ready goes stops
  have hgo : ∀ i : Instr, Machine.exec i s = coreStep i (transferTile i none) s → goes i := fun i he => by
    intro ⟨hb, hiss, hr, hp, hq, ha⟩
    exact he.trans (coreStep_ok hb (transferTile_ok hiss hr hp hq ha).1)
  have hstop : ∀ i : Instr, Machine.exec i s = coreStep i (transferTile i (some m)) s → stops i := fun i he => by
    intro ⟨hb, hiss, hr, hp, hq, ha⟩
    exact he.trans (coreStep_error hb ((transferTile_ok hiss hr hp hq ha).2 m))
  refine ⟨⟨hgo _ rfl, hgo _ rfl, hgo _ rfl, hgo _ rfl⟩, ⟨hstop _ rfl, hstop _ rfl, hstop _ rfl, hstop _ rfl⟩, ?_⟩
  intro scale loc places hrows hthere t w
  subst hrows
  have hsame := countIssue_stores s4 n q
  have hthere' : ∀ a ∈ places, (s4.countIssue n q).rowThere loc a := fun a ha =>
    rowThere_congr (congrArg HostMem.noTarget hsame.mem) (congrArg Buffer.size hsame.buf) (hthere a ha)
  refine ⟨fun hk j a hj => (load_leaves hthere' q.c hk hj).trans (bytesAt_congr hsame.mem hsame.buf ..), fun hk hscl hd j a hj => ?_⟩
  have hsad := sad_countIssue s4 n q
  have hr := store_leaves hthere' q.c hk (by rw [hsad]; exact hscl) hd hj
  rw [hsad] at hr
  exact hr

end Sys2Proof.Machine
end

section
/-! PROOFS. The cells of a saddle, their zero marks and their checksums (R94 to R98, R139, R141, R175 to R177, R179). -/

namespace Sys2Proof.Machine

/-! ### Keys of cells, engine rows and checksum entries (R96 to R98) -/

theorem get_drop {α : Type} (p : Nat → Bool) (x : α) (t : Tbl α) (k : Nat) :
    Tbl.get x (t.drop p) k = if p k then x else Tbl.get x t k := by
  induction t with
  | nil => exact (ite_self x).symm
  | cons e t ih =>
    obtain ⟨j, v⟩ := e
    by_cases hj : p j = true
    · rw [Tbl.drop, List.filter_cons_of_neg (by simp [hj])]
      refine ih.trans ?_
      by_cases hk : k = j
      · rw [hk, if_pos hj, if_pos hj]
      · rw [Tbl.get, if_neg hk]
    · rw [Tbl.drop, List.filter_cons_of_pos (by simp [hj])]
      by_cases hk : k = j
      · rw [Tbl.get, Tbl.get, if_pos hk, hk, if_neg hj, if_pos rfl]
      · rw [Tbl.get, Tbl.get, if_neg hk, if_neg hk]
        exact ih

section
variable {r c r' c' : Nat} (hc : c < 1024) (hc' : c' < 1024)
include hc hc'

theorem cellKey_eq_iff : cellKey r' c' = cellKey r c ↔ r' = r ∧ c' = c := by
  unfold cellKey
  omega

theorem rowKey_eq_iff : rowKey r' c' = rowKey r c ↔ r' = r ∧ c' / 256 = c / 256 := by
  unfold rowKey engineOf
  omega

theorem colKey_eq_iff : colKey r' c' = colKey r c ↔ r' / 256 = r / 256 ∧ c' = c := by
  unfold colKey engineOf
  omega

end

theorem rowKey_band (r c : Nat) : rowKey r c = rowKey r (c / 256 * 256) := by
  unfold rowKey engineOf
  omega

theorem colKey_band (r c : Nat) : colKey r c = colKey (r / 256 * 256) c := by
  unfold colKey engineOf
  omega

/-! ### Cells and sums that agree -/

/-- Two saddles hold the same cells with the same marks and checksums. -/
structure Saddle.SameField (d e : Saddle) : Prop where
  cells : e.cells = d.cells
  live : e.live = d.live
  crow : e.crow = d.crow
  ccol : e.ccol = d.ccol

section
variable {d e : Saddle}

theorem cell_of_same (hc : e.cells = d.cells) (hl : e.live = d.live) (r c : Nat) : e.cell r c = d.cell r c := by
  unfold Saddle.cell Saddle.marked
  rw [hc, hl]

theorem sumOf_congr {cs : List (Nat × Nat)} (h : ∀ p ∈ cs, e.cell p.1 p.2 = d.cell p.1 p.2) : e.sumOf cs = d.sumOf cs :=
  foldl_congr_mem fun _ p hp => by rw [h p hp]

end

section
variable (d : Saddle)

theorem sum_add_zero (a : BitVec 136) : a + 0 = a := BitVec.add_zero a

theorem zero_add_sum (a : BitVec 136) : 0 + a = a := BitVec.zero_add a

theorem sum_replace (x y z : BitVec 136) : x + z = y + z + (x - y) := by
  bv_omega

theorem foldl_sum (cs : List (Nat × Nat)) (a : BitVec 136) :
    cs.foldl (fun a p => a + (d.cell p.1 p.2).s.signExtend 136) a = a + d.sumOf cs := by
  induction cs generalizing a with
  | nil => exact (sum_add_zero a).symm
  | cons p cs ih =>
    rw [Saddle.sumOf, List.foldl_cons, List.foldl_cons, ih, ih, zero_add_sum, BitVec.add_assoc]

theorem sumOf_cons (p : Nat × Nat) (cs : List (Nat × Nat)) :
    d.sumOf (p :: cs) = (d.cell p.1 p.2).s.signExtend 136 + d.sumOf cs := by
  rw [Saddle.sumOf, List.foldl_cons, foldl_sum, zero_add_sum]

theorem sumOf_zero {cs : List (Nat × Nat)} (h : ∀ p ∈ cs, d.cell p.1 p.2 = Cell.zero) : d.sumOf cs = 0 := by
  induction cs with
  | nil => rfl
  | cons p cs ih =>
    obtain ⟨h0, ht⟩ := List.forall_mem_cons.mp h
    rw [sumOf_cons, ih ht, h0]
    rfl

/-- A sum after one of its cells has changed. -/
theorem sumOf_change {e : Saddle} {q : Nat × Nat} {cs : List (Nat × Nat)} (hn : cs.Nodup)
    (h : ∀ p ∈ cs, p ≠ q → e.cell p.1 p.2 = d.cell p.1 p.2) : e.sumOf cs = d.sumOf cs +
      if q ∈ cs then (e.cell q.1 q.2).s.signExtend 136 - (d.cell q.1 q.2).s.signExtend 136 else 0 := by
  induction cs with
  | nil => rfl
  | cons p cs ih =>
    obtain ⟨hp, hn⟩ := List.nodup_cons.mp hn
    obtain ⟨h0, ht⟩ := List.forall_mem_cons.mp h
    rw [sumOf_cons, sumOf_cons]
    by_cases hq : p = q
    · subst hq
      rw [if_pos List.mem_cons_self, sumOf_congr fun x hx => ht x hx fun hxp => hp (hxp ▸ hx)]
      exact sum_replace ..
    · have hm : q ∈ p :: cs ↔ q ∈ cs := by simp [Ne.symm hq]
      rw [ih hn ht, h0 hq]
      simp only [hm]
      exact (BitVec.add_assoc ..).symm

end

/-! ### Zero marks (R98) -/

section
variable (d : Saddle) {r c r' c' : Nat}

theorem marked_open' (hc : c < 1024) (hc' : c' < 1024) : (d.open' r c).marked r' c' =
    (d.marked r' c' && !decide (r' = r ∧ c' / 256 = c / 256)) := by
  unfold Saddle.open'
  by_cases hm : d.marked r c = true
  · rw [if_pos hm]
    simp only [Saddle.marked]
    by_cases hk : r' = r ∧ c' / 256 = c / 256
    · rw [(rowKey_eq_iff hc hc').mpr hk, Tbl.get_set_same, decide_eq_true hk]
      simp
    · rw [Tbl.get_set_other _ _ _ fun h => hk ((rowKey_eq_iff hc hc').mp h), decide_eq_false hk]
      simp
  · rw [if_neg hm]
    by_cases hk : r' = r ∧ c' / 256 = c / 256
    · have : d.marked r' c' = d.marked r c := by rw [Saddle.marked, Saddle.marked, (rowKey_eq_iff hc hc').mpr hk]
      rw [this, Bool.eq_false_iff.mpr hm, Bool.false_and]
    · rw [decide_eq_false hk, Bool.not_false, Bool.and_true]

theorem get_cellsBut (hc' : c' < 1024) : Tbl.get Cell.zero (d.cellsBut r c) (cellKey r' c') =
    if r' = r ∧ c' / 256 = c / 256 then Cell.zero else Tbl.get Cell.zero d.cells (cellKey r' c') := by
  rw [Saddle.cellsBut, get_drop]
  have h : (decide (cellKey r' c' / 1024 = r) && decide (cellKey r' c' % 1024 / 256 = c / 256)) =
      decide (r' = r ∧ c' / 256 = c / 256) := by
    rw [show cellKey r' c' / 1024 = r' by unfold cellKey; omega, show cellKey r' c' % 1024 = c' by unfold cellKey; omega,
      Bool.decide_and]
  rw [h]
  simp only [decide_eq_true_eq]

/-- A row is opened: every cell reads as before. -/
theorem cell_open' (hc : c < 1024) (hc' : c' < 1024) : (d.open' r c).cell r' c' = d.cell r' c' := by
  by_cases hm : d.marked r c = true
  · have hcells : (d.open' r c).cells = d.cellsBut r c := by rw [Saddle.open', if_pos hm]
    rw [Saddle.cell, marked_open' d hc hc', hcells, get_cellsBut d hc', Saddle.cell]
    by_cases hk : r' = r ∧ c' / 256 = c / 256
    · have : d.marked r' c' = true := by rw [← hm, Saddle.marked, Saddle.marked, (rowKey_eq_iff hc hc').mpr hk]
      rw [if_pos hk, ite_self, this, if_pos rfl]
    · rw [if_neg hk, decide_eq_false hk, Bool.not_false, Bool.and_true]
  · rw [Saddle.open', if_neg hm]

theorem colSum_open' : (d.open' r c).colSum r' c' = d.colSum r' c' := by
  unfold Saddle.open' Saddle.colSum
  split <;> rfl

/-- The checksum column entries after a row is opened: its own starts from what it read as. -/
theorem ccol_open' (hc : c < 1024) (hc' : c' < 1024) (hm : d.marked r' c' = false ∨ (r' = r ∧ c' / 256 = c / 256)) :
    Tbl.get 0 (d.open' r c).ccol (rowKey r' c') = d.rowSum r' c' := by
  unfold Saddle.open' Saddle.rowSum
  by_cases hk : r' = r ∧ c' / 256 = c / 256
  · have hkey := (rowKey_eq_iff hc hc').mpr hk
    have he : d.marked r' c' = d.marked r c := by rw [Saddle.marked, Saddle.marked, hkey]
    rw [he, hkey]
    split
    · exact Tbl.get_put_same 0 d.ccol (rowKey r c) 0
    · rfl
  · rw [hm.resolve_right hk, if_neg Bool.false_ne_true]
    split
    · exact Tbl.get_put_other 0 d.ccol 0 fun h => hk ((rowKey_eq_iff hc hc').mp h)
    · rfl

end

/-! ### One cell written (R141) -/

section
variable (d : Saddle) {r c r' c' : Nat} (v : Cell)

/-- What a cell of S contributes to its checksums when it becomes `v`. -/
def Saddle.change (d : Saddle) (r c : Nat) (v : Cell) : BitVec 136 := v.s.signExtend 136 - (d.cell r c).s.signExtend 136

theorem marked_setCell : (d.setCell r c v).marked r' c' = (d.open' r c).marked r' c' := rfl

theorem cell_setCell (hc : c < 1024) (hc' : c' < 1024) : (d.setCell r c v).cell r' c' =
    if r' = r ∧ c' = c then { v with perr := 0 } else d.cell r' c' := by
  have hget : ∀ k, Tbl.get Cell.zero (d.setCell r c v).cells k =
      Tbl.get Cell.zero (Tbl.put Cell.zero (d.open' r c).cells (cellKey r c) { v with perr := 0 }) k := fun _ => rfl
  rw [Saddle.cell, marked_setCell, hget]
  by_cases hk : r' = r ∧ c' = c
  · obtain ⟨rfl, rfl⟩ := hk
    rw [marked_open' d hc hc, decide_eq_true ⟨rfl, rfl⟩, Bool.not_true, Bool.and_false, if_neg Bool.false_ne_true,
      Tbl.get_put_same, if_pos ⟨rfl, rfl⟩]
  · rw [Tbl.get_put_other _ _ _ fun h => hk ((cellKey_eq_iff hc hc').mp h), if_neg hk, ← cell_open' d (r := r) hc hc',
      Saddle.cell]

theorem colSum_setCell (hc : c < 1024) (hc' : c' < 1024) : (d.setCell r c v).colSum r' c' =
    d.colSum r' c' + if r' / 256 = r / 256 ∧ c' = c then d.change r c v else 0 := by
  have h : (d.setCell r c v).colSum r' c' =
      Tbl.get 0 (addSum (d.open' r c).crow (colKey r c) (d.change r c v)) (colKey r' c') := rfl
  rw [h, addSum, ← colSum_open' d (r := r) (c := c)]
  by_cases hk : r' / 256 = r / 256 ∧ c' = c
  · rw [(colKey_eq_iff hc hc').mpr hk, Tbl.get_put_same, if_pos hk, Saddle.colSum, (colKey_eq_iff hc hc').mpr hk]
  · rw [Tbl.get_put_other _ _ _ fun h => hk ((colKey_eq_iff hc hc').mp h), if_neg hk, sum_add_zero]
    rfl

theorem rowSum_setCell (hc : c < 1024) (hc' : c' < 1024) : (d.setCell r c v).rowSum r' c' =
    d.rowSum r' c' + if r' = r ∧ c' / 256 = c / 256 then d.change r c v else 0 := by
  have h : (d.setCell r c v).rowSum r' c' = if (d.open' r c).marked r' c' then 0 else
      Tbl.get 0 (addSum (d.open' r c).ccol (rowKey r c) (d.change r c v)) (rowKey r' c') := rfl
  rw [h, marked_open' d hc hc', addSum]
  by_cases hk : r' = r ∧ c' / 256 = c / 256
  · have hkey := (rowKey_eq_iff hc hc').mpr hk
    rw [decide_eq_true hk, Bool.not_true, Bool.and_false, if_neg Bool.false_ne_true, if_pos hk, hkey, Tbl.get_put_same,
      ← ccol_open' d hc hc' (.inr hk), hkey]
  · rw [decide_eq_false hk, Bool.not_false, Bool.and_true, if_neg hk, sum_add_zero,
      Tbl.get_put_other _ _ _ fun h => hk ((rowKey_eq_iff hc hc').mp h)]
    by_cases hm : d.marked r' c' = true
    · rw [if_pos hm, Saddle.rowSum, if_pos hm]
    · rw [if_neg hm, ccol_open' d hc hc' (.inl (Bool.eq_false_iff.mpr hm))]

end

/-! ### Checksums that agree with the cells (R97, R141, R188) -/

/-- The cells of column `c` in engine row `er`, and of engine row (`r`, `ec`). -/
def columnCells (er c : Nat) : List (Nat × Nat) := (List.range 256).map fun i => (er * 256 + i, c)
def rowCells (r ec : Nat) : List (Nat × Nat) := (List.range 256).map fun j => (r, ec * 256 + j)

/-- A checksum row entry, or checksum column entry, equals the sum of its cells. -/
def Saddle.colGood (d : Saddle) (er c : Nat) : Prop := d.sumOf (columnCells er c) = d.colSum (er * 256) c
def Saddle.rowGood (d : Saddle) (r ec : Nat) : Prop := d.sumOf (rowCells r ec) = d.rowSum r (ec * 256)

theorem mem_columnCells {er c : Nat} {p : Nat × Nat} : p ∈ columnCells er c ↔ p.1 / 256 = er ∧ p.2 = c := by
  obtain ⟨x, y⟩ := p
  simp only [columnCells, List.mem_map, List.mem_range, Prod.mk.injEq]
  exact ⟨fun ⟨i, hi, h1, h2⟩ => ⟨by omega, h2.symm⟩, fun ⟨h1, h2⟩ => ⟨x % 256, by omega, by omega, h2.symm⟩⟩

theorem mem_rowCells {r ec : Nat} {p : Nat × Nat} : p ∈ rowCells r ec ↔ p.1 = r ∧ p.2 / 256 = ec := by
  obtain ⟨x, y⟩ := p
  simp only [rowCells, List.mem_map, List.mem_range, Prod.mk.injEq]
  exact ⟨fun ⟨i, hi, h1, h2⟩ => ⟨h1.symm, by omega⟩, fun ⟨h1, h2⟩ => ⟨y % 256, by omega, h1.symm, by omega⟩⟩

theorem columnCells_nodup (er c : Nat) : (columnCells er c).Nodup :=
  nodup_map_of_injective (fun i j h => by
    have := (Prod.mk.inj h).1
    omega) List.nodup_range

theorem rowCells_nodup (r ec : Nat) : (rowCells r ec).Nodup :=
  nodup_map_of_injective (fun i j h => by
    have := (Prod.mk.inj h).2
    omega) List.nodup_range

/-- The cells of block `b`. -/
def inBlock (b r c : Nat) : Prop := r / 256 = b / 4 ∧ c / 256 = b % 4

theorem blockGood_iff (d : Saddle) {b : Nat} : d.blockGood b = true ↔
    (∀ c, c / 256 = b % 4 → d.colGood (b / 4) c) ∧ (∀ r, r / 256 = b / 4 → d.rowGood r (b % 4)) ∧
      ∀ r c, inBlock b r c → (d.cell r c).perr = 0 := by
  simp only [Saddle.blockGood, Bool.and_eq_true, List.all_eq_true, List.mem_range, decide_eq_true_eq, and_assoc]
  refine and_congr ⟨fun h c hc => ?_, fun h j hj => ?_⟩ (and_congr ⟨fun h r hr => ?_, fun h i hi => ?_⟩ ⟨fun h r c hrc => ?_,
    fun h p hp => ?_⟩)
  · have := h (c - b % 4 * 256) (by omega)
    rw [show b % 4 * 256 + (c - b % 4 * 256) = c by omega] at this
    exact this
  · exact h (b % 4 * 256 + j) (by omega)
  · have := h (r - b / 4 * 256) (by omega)
    rw [show b / 4 * 256 + (r - b / 4 * 256) = r by omega] at this
    exact this
  · exact h (b / 4 * 256 + i) (by omega)
  · obtain ⟨hr, hc⟩ := hrc
    refine h (r, c) (List.mem_flatMap.mpr ⟨r - b / 4 * 256, List.mem_range.mpr (by omega), List.mem_map.mpr
      ⟨c - b % 4 * 256, List.mem_range.mpr (by omega), ?_⟩⟩)
    rw [Prod.mk.injEq]
    omega
  · obtain ⟨i, hi, hp⟩ := List.mem_flatMap.mp hp
    obtain ⟨j, hj, rfl⟩ := List.mem_map.mp hp
    have hi := List.mem_range.mp hi
    have hj := List.mem_range.mp hj
    exact h _ _ ⟨by dsimp only; omega, by dsimp only; omega⟩

theorem Saddle.SameField.blockGood {d e : Saddle} (h : Saddle.SameField d e) {b : Nat} (hg : d.blockGood b = true) : e.blockGood b = true := by
  have hcell := fun r c => cell_of_same h.cells h.live r c
  have hsum := fun cs => sumOf_congr (d := d) (e := e) (cs := cs) fun p _ => hcell p.1 p.2
  obtain ⟨hcol, hrow, hp⟩ := (blockGood_iff d).mp hg
  refine (blockGood_iff e).mpr ⟨fun c hc => ?_, fun r hr => ?_, fun r c hrc => (congrArg Cell.perr (hcell r c)).trans (hp r c hrc)⟩
  · rw [Saddle.colGood, hsum, Saddle.colSum, h.crow]
    exact hcol c hc
  · rw [Saddle.rowGood, hsum, Saddle.rowSum, Saddle.marked, h.live, h.ccol]
    exact hrow r hr

section
variable {d : Saddle} {r c : Nat} (v : Cell) (hc : c < 1024)
include hc

theorem colGood_setCell {er c' : Nat} (hc' : c' < 1024) (h : d.colGood er c') : (d.setCell r c v).colGood er c' := by
  rw [Saddle.colGood, colSum_setCell d v hc hc', ← h,
    sumOf_change d (q := (r, c)) (columnCells_nodup er c') fun p hp hne => ?_]
  · refine congrArg _ (ite_congr_iff ?_ ?_ rfl)
    · rw [mem_columnCells, Nat.mul_div_cancel _ (by decide)]
      exact and_congr eq_comm eq_comm
    · rw [cell_setCell d v hc hc, if_pos ⟨rfl, rfl⟩]
      rfl
  · rw [cell_setCell d v hc ((mem_columnCells.mp hp).2 ▸ hc'), if_neg fun h => hne (Prod.ext h.1 h.2)]

theorem rowGood_setCell {r' ec : Nat} (hec : ec < 4) (h : d.rowGood r' ec) : (d.setCell r c v).rowGood r' ec := by
  rw [Saddle.rowGood, rowSum_setCell d v hc (by omega), ← h,
    sumOf_change d (q := (r, c)) (rowCells_nodup r' ec) fun p hp hne => ?_]
  · refine congrArg _ (ite_congr_iff ?_ ?_ rfl)
    · rw [mem_rowCells, Nat.mul_div_cancel _ (by decide)]
      exact and_congr eq_comm eq_comm
    · rw [cell_setCell d v hc hc, if_pos ⟨rfl, rfl⟩]
      rfl
  · have := (mem_rowCells.mp hp).2
    rw [cell_setCell d v hc (by omega), if_neg fun h => hne (Prod.ext h.1 h.2)]

/-- R141: a write of a cell keeps the checksums of every block that has them right. -/
theorem blockGood_setCell {b : Nat} (h : d.blockGood b = true) : (d.setCell r c v).blockGood b = true := by
  obtain ⟨hcol, hrow, hp⟩ := (blockGood_iff d).mp h
  refine (blockGood_iff _).mpr ⟨fun c' hc' => colGood_setCell v hc (by omega) (hcol c' hc'),
    fun r' hr' => rowGood_setCell v hc (by omega) (hrow r' hr'), fun r' c' hrc => ?_⟩
  rw [cell_setCell d v hc (by have := hrc.2; omega)]
  split
  · rfl
  · exact hp r' c' hrc

end

end Sys2Proof.Machine
end

section
/-! PROOFS. Regions of a saddle: what products and zeroing leave of their cells, marks and checksums (R95 to R98, R141, R175 to
R177, R179). -/

namespace Sys2Proof.Machine

/-! ### Regions (R95, R96) -/

theorem foldl_keeps_of_mem {α β : Type} {f : β → α → β} {P : β → Prop} {xs : List α} (h : ∀ b, ∀ x ∈ xs, P b → P (f b x))
    {b : β} (hb : P b) : P (xs.foldl f b) :=
  List.foldlRecOn xs f hb fun b hb x hx => h b x hx hb

/-- Region `m` by `n` at (`r0`, `c0`) holds the cell. -/
def inRegion (r0 c0 m n r c : Nat) : Prop := r0 ≤ r ∧ r < r0 + m ∧ c0 ≤ c ∧ c < c0 + n

theorem mem_region {r0 c0 m n : Nat} {p : Nat × Nat} :
    p ∈ region r0 c0 m n ↔ inRegion r0 c0 m n p.1 p.2 := by
  obtain ⟨r, c⟩ := p
  simp only [inRegion, region, List.mem_flatMap, List.mem_map, List.mem_range, Prod.mk.injEq]
  exact ⟨fun ⟨i, hi, j, hj, h1, h2⟩ => by omega,
    fun h => ⟨r - r0, by omega, c - c0, by omega, by omega, by omega⟩⟩

theorem region_col_lt {r0 c0 m n : Nat} (hw : c0 + n ≤ 1024) {p : Nat × Nat} (h : p ∈ region r0 c0 m n) : p.2 < 1024 :=
  Nat.lt_of_lt_of_le (mem_region.mp h).2.2.2 hw

theorem region_nodup (r0 c0 m n : Nat) : (region r0 c0 m n).Nodup := by
  refine List.pairwise_flatMap.mpr ⟨fun i _ => nodup_map_of_injective (fun a b h => ?_) List.nodup_range,
    List.nodup_range.imp fun {i k} hik p hp q hq he => hik ?_⟩
  · have := (Prod.mk.inj h).2
    omega
  · obtain ⟨_, _, rfl⟩ := List.mem_map.mp hp
    obtain ⟨_, _, rfl⟩ := List.mem_map.mp hq
    have := (Prod.mk.inj he).1
    omega

/-! ### Outer products (R175, R176) -/

section
variable (r0 c0 m n : Nat) (α : Int) (vs : List (List Elem × List Elem))

/-- The cells after each of a list has taken its products. -/
theorem cell_foldl_outer {r c : Nat} (hc : c < 1024) : ∀ (ps : List (Nat × Nat)), ps.Nodup → (∀ p ∈ ps, p.2 < 1024) → ∀ d : Saddle,
    (ps.foldl (fun d p => d.setCell p.1 p.2 ((d.cell p.1 p.2).accumAll α vs (p.1 - r0) (p.2 - c0))) d).cell r c =
      if (r, c) ∈ ps then { (d.cell r c).accumAll α vs (r - r0) (c - c0) with perr := 0 } else d.cell r c
  | [], _, _, d => (if_neg List.not_mem_nil).symm
  | p :: ps, hn, hb, d => by
    obtain ⟨hp, hn⟩ := List.nodup_cons.mp hn
    obtain ⟨hpb, hb⟩ := List.forall_mem_cons.mp hb
    rw [List.foldl_cons, cell_foldl_outer hc ps hn hb, cell_setCell d _ hpb hc]
    by_cases hq : (r, c) = p
    · subst hq
      rw [if_neg hp, if_pos ⟨rfl, rfl⟩, if_pos List.mem_cons_self]
    · have hne : ¬(r = p.1 ∧ c = p.2) := fun h => hq (Prod.ext h.1 h.2)
      have hm : (r, c) ∈ p :: ps ↔ (r, c) ∈ ps := by simp [hq]
      simp only [hm, if_neg hne]

theorem cell_outer (d : Saddle) (hw : c0 + n ≤ 1024) {r c : Nat} (hc : c < 1024) :
    (inRegion r0 c0 m n r c → (d.outer r0 c0 m n α vs).cell r c =
      { (d.cell r c).accumAll α vs (r - r0) (c - c0) with perr := 0 }) ∧
    (¬inRegion r0 c0 m n r c → (d.outer r0 c0 m n α vs).cell r c = d.cell r c) := by
  have h := cell_foldl_outer r0 c0 α vs hc (region r0 c0 m n) (region_nodup ..) (fun p hp => region_col_lt hw hp) d (r := r)
  exact ⟨fun hr => h.trans (if_pos (mem_region (p := (r, c)).mpr hr)),
    fun hr => h.trans (if_neg fun hm => hr (mem_region (p := (r, c)).mp hm))⟩

theorem blockGood_outer {d : Saddle} (hw : c0 + n ≤ 1024) {b : Nat} (h : d.blockGood b = true) :
    (d.outer r0 c0 m n α vs).blockGood b = true :=
  foldl_keeps_of_mem (P := fun d : Saddle => d.blockGood b = true) (fun _ _ hp hd => blockGood_setCell _
    (region_col_lt hw hp) hd) h

end

/-! ### A region is zeroed (R98, R179) -/

/-- `e` is `d` with the cells of `R` zero: the checksum column entries stay right, and so do the checksum row entries of the
columns in which `R` has no cell. -/
structure Zeroes (R : Nat → Nat → Prop) (d e : Saddle) : Prop where
  zero : ∀ r c, c < 1024 → R r c → e.cell r c = Cell.zero
  keep : ∀ r c, c < 1024 → ¬R r c → e.cell r c = d.cell r c
  row : ∀ r ec, ec < 4 → d.rowGood r ec → e.rowGood r ec
  col : ∀ er c, c < 1024 → (∀ r, r / 256 = er → ¬R r c) → d.colGood er c → e.colGood er c

section
variable {R S : Nat → Nat → Prop} {d e f : Saddle}

theorem Zeroes.refl (d : Saddle) : Zeroes (fun _ _ => False) d d :=
  ⟨fun _ _ _ h => h.elim, fun _ _ _ _ => rfl, fun _ _ _ h => h, fun _ _ _ _ h => h⟩

theorem Zeroes.congr (h : Zeroes R d e) (hs : ∀ r c, S r c ↔ R r c) : Zeroes S d e :=
  (funext fun r => funext fun c => propext (hs r c) : S = R) ▸ h

theorem Zeroes.trans (h : Zeroes R d e) (h' : Zeroes S e f) : Zeroes (fun r c => R r c ∨ S r c) d f where
  zero r c hc hr := by
    by_cases hs : S r c
    · exact h'.zero r c hc hs
    · exact (h'.keep r c hc hs).trans (h.zero r c hc (hr.resolve_right hs))
  keep r c hc hr := (h'.keep r c hc fun x => hr (.inr x)).trans (h.keep r c hc fun x => hr (.inl x))
  row r ec hec hd := h'.row r ec hec (h.row r ec hec hd)
  col er c hc hr hd := h'.col er c hc (fun r hre x => hr r hre (.inr x)) (h.col er c hc (fun r hre x => hr r hre (.inl x)) hd)

theorem zeroes_foldl {α : Type} {g : Saddle → α → Saddle} {Q : α → Nat → Nat → Prop} {xs : List α}
    (h : ∀ d, ∀ x ∈ xs, Zeroes (Q x) d (g d x)) (d : Saddle) : Zeroes (fun r c => ∃ x ∈ xs, Q x r c) d (xs.foldl g d) := by
  induction xs generalizing d with
  | nil => exact (Zeroes.refl d).congr fun r c => by simp
  | cons x xs ih =>
    obtain ⟨h0, ht⟩ : (∀ d, Zeroes (Q x) d (g d x)) ∧ ∀ d, ∀ y ∈ xs, Zeroes (Q y) d (g d y) :=
      ⟨fun d => h d x List.mem_cons_self, fun d y hy => h d y (List.mem_cons_of_mem x hy)⟩
    exact ((h0 d).trans (ih ht (g d x))).congr fun r c => by simp

end

theorem zeroCell_zeroes (d : Saddle) (r : Nat) {c : Nat} (hc : c < 1024) :
    Zeroes (fun r' c' => r' = r ∧ c' = c) d (d.zeroCell r c) where
  zero _ _ hc' h := (cell_setCell d Cell.zero hc hc').trans (if_pos h)
  keep _ _ hc' h := (cell_setCell d Cell.zero hc hc').trans (if_neg h)
  row _ _ hec h := rowGood_setCell Cell.zero hc hec h
  col _ _ hc' _ h := colGood_setCell Cell.zero hc hc' h

/-! #### An engine row is marked -/

theorem band_lt {e : Nat} (h : e < 4) : e * 256 < 1024 := by
  omega

section
variable (d : Saddle) (r : Nat) {ec : Nat} (hec : ec < 4)
include hec

theorem markRow_zeroes : Zeroes (fun r' c' => r' = r ∧ c' / 256 = ec) d (d.markRow r ec) := by
  have hlt := band_lt hec
  have hdiv : ec * 256 / 256 = ec := Nat.mul_div_cancel ec (by decide)
  have hkey : ∀ {r' c'}, c' < 1024 → (rowKey r' c' = rowKey r (ec * 256) ↔ r' = r ∧ c' / 256 = ec) := fun hc' => by
    rw [rowKey_eq_iff hlt hc', hdiv]
  by_cases hm : d.marked r (ec * 256) = true
  · have he : d.markRow r ec = d := if_pos hm
    rw [he]
    refine ⟨fun r' c' hc' h => ?_, fun _ _ _ _ => rfl, fun _ _ _ h => h, fun _ _ _ _ h => h⟩
    have hm' : d.marked r' c' = true := by rwa [Saddle.marked, (hkey hc').mpr h]
    rw [Saddle.cell, if_pos hm']
  · have he : d.markRow r ec = { d with
        cells := d.cellsBut r (ec * 256), live := d.live.del (rowKey r (ec * 256)),
        ccol := Tbl.put 0 d.ccol (rowKey r (ec * 256)) 0, status := d.status.setBlock (engineOf r (ec * 256)) 2 } := if_neg hm
    have hmark : ∀ r' c', c' < 1024 → (d.markRow r ec).marked r' c' = if r' = r ∧ c' / 256 = ec then true else d.marked r' c' := by
      intro r' c' hc'
      rw [he, Saddle.marked]
      dsimp only
      by_cases hk : r' = r ∧ c' / 256 = ec
      · rw [(hkey hc').mpr hk, Tbl.get_del_same, if_pos hk]
        rfl
      · rw [Tbl.get_del_other _ _ fun h => hk ((hkey hc').mp h), if_neg hk]
        rfl
    have hzero : ∀ r' c', c' < 1024 → r' = r ∧ c' / 256 = ec → (d.markRow r ec).cell r' c' = Cell.zero := fun r' c' hc' h => by
      rw [Saddle.cell, hmark r' c' hc', if_pos h, if_pos rfl]
    have hkeep : ∀ r' c', c' < 1024 → ¬(r' = r ∧ c' / 256 = ec) → (d.markRow r ec).cell r' c' = d.cell r' c' := fun r' c' hc' h => by
      rw [Saddle.cell, hmark r' c' hc', if_neg h, Saddle.cell]
      have hg := get_cellsBut d (r := r) (c := ec * 256) (r' := r') hc'
      rw [hdiv, if_neg h] at hg
      rw [he]
      dsimp only
      rw [hg]
    refine ⟨hzero, hkeep, fun r' e' he' h => ?_, fun er c hc hR h => ?_⟩
    · have hlt' := band_lt he'
      by_cases hk : r' = r ∧ e' = ec
      · have hz : (d.markRow r ec).sumOf (rowCells r' e') = 0 := sumOf_zero _ fun p hp => by
          have hp := mem_rowCells.mp hp
          exact hzero p.1 p.2 (by omega) ⟨hp.1.trans hk.1, hp.2.trans hk.2⟩
        have hm' : (d.markRow r ec).marked r' (e' * 256) = true :=
          (hmark r' (e' * 256) hlt').trans (if_pos ⟨hk.1, (Nat.mul_div_cancel e' (by decide)).trans hk.2⟩)
        rw [Saddle.rowGood, hz, Saddle.rowSum, if_pos hm']
      · have hne : ¬(r' = r ∧ e' * 256 / 256 = ec) := by rwa [Nat.mul_div_cancel e' (by decide)]
        have hs : (d.markRow r ec).rowSum r' (e' * 256) = d.rowSum r' (e' * 256) := by
          rw [Saddle.rowSum, hmark r' (e' * 256) hlt', if_neg hne, Saddle.rowSum, he]
          dsimp only
          rw [Tbl.get_put_other 0 d.ccol 0 fun h => hne ((hkey hlt').mp h)]
        rw [Saddle.rowGood, hs, ← h]
        exact sumOf_congr fun p hp => by
          have hp := mem_rowCells.mp hp
          exact hkeep p.1 p.2 (by omega) fun hx => hk ⟨hp.1.symm.trans hx.1, hp.2.symm.trans hx.2⟩
    · have hs : (d.markRow r ec).colSum (er * 256) c = d.colSum (er * 256) c := by
        rw [he]
        rfl
      rw [Saddle.colGood, hs, ← h]
      exact sumOf_congr fun p hp => by
        obtain ⟨h1, h2⟩ := mem_columnCells.mp hp
        exact hkeep p.1 p.2 (h2 ▸ hc) (h2 ▸ hR p.1 h1)

end

section
variable {r0 c0 m n : Nat} (hw : c0 + n ≤ 1024)

theorem coversCols_iff {ec : Nat} : coversCols c0 n ec = true ↔ c0 ≤ ec * 256 ∧ ec * 256 + 256 ≤ c0 + n := by
  simp only [coversCols, Bool.and_eq_true, decide_eq_true_eq]

include hw

theorem zeroRow_zeroes (d : Saddle) (r : Nat) : Zeroes (fun r' c' => r' = r ∧ c0 ≤ c' ∧ c' < c0 + n) d (d.zeroRow c0 n r) := by
  have h1 := zeroes_foldl (g := fun d ec => Saddle.markRow d r ec) (xs := (List.range 4).filter (coversCols c0 n))
    (Q := fun ec r' c' => r' = r ∧ c' / 256 = ec)
    (fun d ec hx => markRow_zeroes d r (List.mem_range.mp (List.mem_filter.mp hx).1)) d
  have h2 := zeroes_foldl (g := fun d c => Saddle.zeroCell d r c)
    (xs := ((List.range n).map (c0 + ·)).filter fun c => !coversCols c0 n (c / 256)) (Q := fun c r' c' => r' = r ∧ c' = c)
    (fun d c hx => zeroCell_zeroes d r (by
      obtain ⟨j, hj, rfl⟩ := List.mem_map.mp (List.mem_filter.mp hx).1
      have := List.mem_range.mp hj
      omega)) (((List.range 4).filter (coversCols c0 n)).foldl (fun d ec => d.markRow r ec) d)
  refine (h1.trans h2).congr fun r' c' => ⟨fun ⟨hr, hlo, hhi⟩ => ?_, ?_⟩
  · cases hcov : coversCols c0 n (c' / 256) with
    | true => exact .inl ⟨c' / 256, List.mem_filter.mpr ⟨List.mem_range.mpr (by omega), hcov⟩, hr, rfl⟩
    | false =>
      exact .inr ⟨c', List.mem_filter.mpr ⟨List.mem_map.mpr ⟨c' - c0, List.mem_range.mpr (by omega), by omega⟩, by rw [hcov]; rfl⟩,
        hr, rfl⟩
  · rintro (⟨ec, hx, hr, hc⟩ | ⟨c, hx, hr, rfl⟩)
    · have := coversCols_iff.mp (List.mem_filter.mp hx).2
      omega
    · obtain ⟨j, hj, rfl⟩ := List.mem_map.mp (List.mem_filter.mp hx).1
      have := List.mem_range.mp hj
      omega

/-- The rows of a region, zeroed one after the other. -/
theorem zeroRows_zeroes (d : Saddle) : Zeroes (inRegion r0 c0 m n) d
    (((List.range m).map (r0 + ·)).foldl (fun d r => d.zeroRow c0 n r) d) := by
  refine (zeroes_foldl (g := fun d r => Saddle.zeroRow d c0 n r) (fun d r _ => zeroRow_zeroes hw d r) d).congr fun r c => ?_
  simp only [inRegion, List.mem_map, List.mem_range]
  exact ⟨fun h => ⟨r, ⟨r - r0, by omega, by omega⟩, rfl, by omega, by omega⟩, fun ⟨x, ⟨i, hi, hx⟩, hr, hc⟩ => by omega⟩

end

/-! #### The checksums of the region are settled -/

/-- `e` holds the cells of `d`, and every checksum that was right; `C` are columns whose checksum row entries it has right. -/
structure Settles (C : Nat → Nat → Prop) (d e : Saddle) : Prop where
  cell : ∀ r c, e.cell r c = d.cell r c
  row : ∀ r ec, ec < 4 → d.rowGood r ec → e.rowGood r ec
  col : ∀ er c, c < 1024 → d.colGood er c → e.colGood er c
  settled : ∀ er c, c < 1024 → C er c → e.colGood er c

section
variable {C D : Nat → Nat → Prop} {d e f : Saddle}

theorem Settles.refl (d : Saddle) : Settles (fun _ _ => False) d d :=
  ⟨fun _ _ => rfl, fun _ _ _ h => h, fun _ _ _ h => h, fun _ _ _ h => h.elim⟩

theorem Settles.congr (h : Settles C d e) (hs : ∀ er c, D er c ↔ C er c) : Settles D d e :=
  (funext fun r => funext fun c => propext (hs r c) : D = C) ▸ h

theorem Settles.trans (h : Settles C d e) (h' : Settles D e f) : Settles (fun er c => C er c ∨ D er c) d f where
  cell r c := (h'.cell r c).trans (h.cell r c)
  row r ec hec hd := h'.row r ec hec (h.row r ec hec hd)
  col er c hc hd := h'.col er c hc (h.col er c hc hd)
  settled er c hc hx := hx.elim (fun hx => h'.col er c hc (h.settled er c hc hx)) (h'.settled er c hc)

theorem settles_foldl {α : Type} {g : Saddle → α → Saddle} {Q : α → Nat → Nat → Prop} {xs : List α}
    (h : ∀ d, ∀ x ∈ xs, Settles (Q x) d (g d x)) (d : Saddle) : Settles (fun er c => ∃ x ∈ xs, Q x er c) d (xs.foldl g d) := by
  induction xs generalizing d with
  | nil => exact (Settles.refl d).congr fun r c => by simp
  | cons x xs ih =>
    obtain ⟨h0, ht⟩ : (∀ d, Settles (Q x) d (g d x)) ∧ ∀ d, ∀ y ∈ xs, Settles (Q y) d (g d y) :=
      ⟨fun d => h d x List.mem_cons_self, fun d y hy => h d y (List.mem_cons_of_mem x hy)⟩
    exact ((h0 d).trans (ih ht (g d x))).congr fun r c => by simp

end

theorem settleCol_settles (d : Saddle) (er : Nat) {c : Nat} (hc : c < 1024) :
    Settles (fun er' c' => er' = er ∧ c' = c) d (d.settleCol er c) := by
  have hcell : ∀ r c', (d.settleCol er c).cell r c' = d.cell r c' := fun r c' => cell_of_same rfl rfl r c'
  have hkey : ∀ {er' c'}, c' < 1024 → (colKey (er' * 256) c' = colKey (er * 256) c ↔ er' = er ∧ c' = c) := fun hc' => by
    rw [colKey_eq_iff hc hc', Nat.mul_div_cancel _ (by decide), Nat.mul_div_cancel _ (by decide)]
  have hset : (d.settleCol er c).colGood er c := by
    rw [Saddle.colGood, sumOf_congr fun p _ => hcell p.1 p.2]
    exact (Tbl.get_put_same 0 d.crow (colKey (er * 256) c) (d.sumOf (columnCells er c))).symm
  refine ⟨hcell, fun r ec _ h => ?_, fun er' c' hc' h => ?_, fun er' c' _ h => ?_⟩
  · rw [Saddle.rowGood, sumOf_congr fun p _ => hcell p.1 p.2]
    exact h
  · by_cases hk : er' = er ∧ c' = c
    · rw [hk.1, hk.2]
      exact hset
    · rw [Saddle.colGood, sumOf_congr fun p _ => hcell p.1 p.2]
      exact h.trans (Tbl.get_put_other 0 d.crow _ fun h => hk ((hkey hc').mp h)).symm
  · rw [h.1, h.2]
    exact hset

theorem settleRow_settles (d : Saddle) (r : Nat) {ec : Nat} (hec : ec < 4) :
    Settles (fun _ _ => False) d (d.settleRow r ec) := by
  have hkey : ∀ {r' e'}, e' < 4 → (rowKey r' (e' * 256) = rowKey r (ec * 256) ↔ r' = r ∧ e' = ec) := fun he' => by
    rw [rowKey_eq_iff (by omega) (by omega), Nat.mul_div_cancel _ (by decide), Nat.mul_div_cancel _ (by decide)]
  by_cases hm : d.marked r (ec * 256) = true
  · have he : d.settleRow r ec = d := if_pos hm
    rw [he]
    exact .refl d
  · have he : d.settleRow r ec = { d with ccol := Tbl.put 0 d.ccol (rowKey r (ec * 256)) (d.sumOf (rowCells r ec)) } := by
      rw [Saddle.settleRow, if_neg hm, engineCols, List.map_map]
      rfl
    rw [he]
    refine ⟨fun r' c' => cell_of_same rfl rfl r' c', fun r' e' he' h => ?_, fun _ _ _ h => h, fun _ _ _ h => h.elim⟩
    have hsum : ∀ cs, Saddle.sumOf { d with ccol := Tbl.put 0 d.ccol (rowKey r (ec * 256)) (d.sumOf (rowCells r ec)) } cs =
      d.sumOf cs := fun cs => sumOf_congr fun p _ => cell_of_same rfl rfl p.1 p.2
    rw [Saddle.rowGood, hsum]
    by_cases hk : r' = r ∧ e' = ec
    · obtain ⟨rfl, rfl⟩ := hk
      exact ((if_neg hm).trans (Tbl.get_put_same 0 d.ccol (rowKey r' (e' * 256)) (d.sumOf (rowCells r' e')))).symm
    · rw [h, Saddle.rowSum, Saddle.rowSum]
      exact congrArg (ite _ 0) (Tbl.get_put_other 0 d.ccol _ fun h => hk ((hkey he').mp h)).symm

theorem mem_bandsOf {a n e : Nat} : e ∈ bandsOf a n ↔ e < 4 ∧ 0 < n ∧ a / 256 ≤ e ∧ e ≤ (a + n - 1) / 256 := by
  simp only [bandsOf, List.mem_filter, List.mem_range, Bool.and_eq_true, decide_eq_true_eq, and_assoc]

section
variable {r0 c0 m n : Nat} (hw : c0 + n ≤ 1024)
include hw

theorem settle_settles (d : Saddle) :
    Settles (fun er c => er ∈ bandsOf r0 m ∧ c0 ≤ c ∧ c < c0 + n) d (d.settle r0 c0 m n) := by
  have hcols := settles_foldl (g := fun d er => ((List.range n).map (c0 + ·)).foldl (fun d c => Saddle.settleCol d er c) d)
    (xs := bandsOf r0 m) (fun d er _ => settles_foldl (g := fun d c => Saddle.settleCol d er c)
      (Q := fun c er' c' => er' = er ∧ c' = c) (fun d c hx => settleCol_settles d er (by
        obtain ⟨j, hj, rfl⟩ := List.mem_map.mp hx
        have := List.mem_range.mp hj
        omega)) d) d
  have hrows := settles_foldl (g := fun d ec => ((List.range m).map (r0 + ·)).foldl (fun d r => Saddle.settleRow d r ec) d)
    (xs := bandsOf c0 n) (fun d ec hx => settles_foldl (g := fun d r => Saddle.settleRow d r ec) (Q := fun _ _ _ => False)
      (xs := (List.range m).map (r0 + ·)) (fun d r _ => settleRow_settles d r (mem_bandsOf.mp hx).1) d)
    ((bandsOf r0 m).foldl (fun d er => ((List.range n).map (c0 + ·)).foldl (fun d c => d.settleCol er c) d) d)
  refine (hcols.trans hrows).congr fun er c => ?_
  simp only [List.mem_map, List.mem_range, and_false, exists_false, or_false]
  exact ⟨fun ⟨he, h1, h2⟩ => ⟨er, he, c, ⟨c - c0, by omega, by omega⟩, rfl, rfl⟩,
    fun ⟨e, he, x, ⟨j, hj, hx⟩, h1, h2⟩ => ⟨h1 ▸ he, by omega, by omega⟩⟩

end

/-- A block all of whose cells are zero is marked as such: its checksum row entries read 0. -/
theorem zeroBlock_settles (d : Saddle) {b : Nat} (hz : ∀ r c, inBlock b r c → d.cell r c = Cell.zero) :
    Settles (fun _ _ => False) d (d.zeroBlock b) := by
  have hcell : ∀ r c, (d.zeroBlock b).cell r c = d.cell r c := fun r c => cell_of_same rfl rfl r c
  refine ⟨hcell, fun r ec _ h => ?_, fun er c hc h => ?_, fun _ _ _ h => h.elim⟩
  · rw [Saddle.rowGood, sumOf_congr fun p _ => hcell p.1 p.2]
    exact h
  · have hs : (d.zeroBlock b).colSum (er * 256) c = if er = b / 4 ∧ c / 256 = b % 4 then 0 else d.colSum (er * 256) c := by
      refine (get_drop (fun k => decide (k / 256 = b)) 0 d.crow (colKey (er * 256) c)).trans ?_
      simp only [decide_eq_true_eq]
      refine ite_congr_iff ?_ rfl rfl
      unfold colKey engineOf
      omega
    rw [Saddle.colGood, hs, sumOf_congr fun p _ => hcell p.1 p.2]
    split
    next hk =>
      refine sumOf_zero d fun p hp => ?_
      obtain ⟨h1, h2⟩ := mem_columnCells.mp hp
      exact hz p.1 p.2 ⟨h1.trans hk.1, h2 ▸ hk.2⟩
    next => exact h

end Sys2Proof.Machine
end

section
/-! PROOFS. The events of the tile unit, with the cells and the checksums that OPA, OPK and TZF leave (R100, R114, R141, R175 to
R179, R200, R342, R360). -/

namespace Sys2Proof.Machine

/-! ### A zeroed region (R98, R179) -/

section
variable {r0 c0 m n : Nat} (hr : r0 + m ≤ 1024) (hw : c0 + n ≤ 1024) (d : Saddle)

theorem mem_wholeBlocks {b r c : Nat} (h : b ∈ wholeBlocks r0 c0 m n) (hb : inBlock b r c) : inRegion r0 c0 m n r c := by
  obtain ⟨-, hc⟩ := List.mem_filter.mp h
  obtain ⟨h1, h2⟩ := Bool.and_eq_true_iff.mp hc
  have h1 := coversCols_iff.mp h1
  have h2 := coversCols_iff.mp h2
  unfold inBlock at hb
  unfold inRegion
  omega

include hw

/-- The blocks that the region covers are marked ZERO. -/
theorem zeroBlocks_settle {e : Saddle} (hz : ∀ r c, c < 1024 → inRegion r0 c0 m n r c → e.cell r c = Cell.zero) :
    Settles (fun _ _ => False) e ((wholeBlocks r0 c0 m n).foldl Saddle.zeroBlock e) := by
  refine foldl_keeps_of_mem (P := Settles (fun _ _ => False) e) (fun f b hb hf => ?_) (.refl e)
  refine (hf.trans (zeroBlock_settles f fun r c hrc => ?_)).congr fun _ _ => (or_self _).symm.to_iff
  have hin := mem_wholeBlocks hb hrc
  exact (hf.cell r c).trans (hz r c (Nat.lt_of_lt_of_le hin.2.2.2 hw) hin)

theorem zeroRegion_cell {r c : Nat} (hc : c < 1024) :
    (inRegion r0 c0 m n r c → (d.zeroRegion r0 c0 m n).cell r c = Cell.zero) ∧
      (¬inRegion r0 c0 m n r c → (d.zeroRegion r0 c0 m n).cell r c = d.cell r c) := by
  have hzero := zeroRows_zeroes (r0 := r0) (m := m) hw d
  have hset := settle_settles (r0 := r0) (m := m) hw (((List.range m).map (r0 + ·)).foldl (fun d r => d.zeroRow c0 n r) d)
  have hblk := zeroBlocks_settle hw fun r c hc h => (hset.cell r c).trans (hzero.zero r c hc h)
  have hcell := (hblk.cell r c).trans (hset.cell r c)
  exact ⟨fun h => hcell.trans (hzero.zero r c hc h), fun h => hcell.trans (hzero.keep r c hc h)⟩

include hr

/-- Every block whose checksums agree with its cells still has them agree. -/
theorem blockGood_zeroRegion {b : Nat} (h : d.blockGood b = true) : (d.zeroRegion r0 c0 m n).blockGood b = true := by
  have hzero := zeroRows_zeroes (r0 := r0) (m := m) hw d
  have hset := settle_settles (r0 := r0) (m := m) hw (((List.range m).map (r0 + ·)).foldl (fun d r => d.zeroRow c0 n r) d)
  have hblk := zeroBlocks_settle hw fun r c hc h => (hset.cell r c).trans (hzero.zero r c hc h)
  obtain ⟨hcol, hrow, hp⟩ := (blockGood_iff d).mp h
  have h4 : b % 4 < 4 := Nat.mod_lt _ (by decide)
  have hlt : ∀ {c}, c / 256 = b % 4 → c < 1024 := fun hc => by omega
  refine (blockGood_iff _).mpr ⟨fun c hc => hblk.col _ c (hlt hc) ?_,
    fun r hr => hblk.row r _ h4 (hset.row r _ h4 (hzero.row r _ h4 (hrow r hr))), fun r c hrc => ?_⟩
  · by_cases hx : b / 4 ∈ bandsOf r0 m ∧ c0 ≤ c ∧ c < c0 + n
    · exact hset.settled _ c (hlt hc) hx
    · refine hset.col _ c (hlt hc) (hzero.col _ c (hlt hc) (fun r hrb hin => hx ⟨mem_bandsOf.mpr ?_, hin.2.2⟩) (hcol c hc))
      obtain ⟨h1, h2, -⟩ := hin
      omega
  · by_cases hin : inRegion r0 c0 m n r c
    · rw [(zeroRegion_cell hw d (hlt hrc.2)).1 hin]
      rfl
    · rw [(zeroRegion_cell hw d (hlt hrc.2)).2 hin]
      exact hp r c hrc

end

/-! ### The operations on a saddle -/

theorem sad_modTile {f : TileUnit → TileUnit} (hf : ∀ u, (f u).sad0 = u.sad0 ∧ (f u).sad1 = u.sad1) (p : Perf) (i : Nat) :
    (p.modTile f).s.sad i = p.s.sad i := by
  obtain ⟨h0, h1⟩ := hf p.s.tile
  unfold State.sad Perf.modTile
  dsimp only
  rw [h0, h1]

theorem latchPairs_sads (u : TileUnit) (r0 c0 : Nat) (vs : List (List Elem × List Elem)) :
    (u.latchPairs r0 c0 vs).sad0 = u.sad0 ∧ (u.latchPairs r0 c0 vs).sad1 = u.sad1 := by
  unfold TileUnit.latchPairs
  split <;> exact ⟨rfl, rfl⟩

theorem reins_sads (x : TileRun) (u : TileUnit) (i k : Nat) : (x.reins u i k).sad0 = u.sad0 ∧ (x.reins u i k).sad1 = u.sad1 :=
  List.foldlRecOn _ _ (motive := fun v : TileUnit => v.sad0 = u.sad0 ∧ v.sad1 = u.sad1) ⟨rfl, rfl⟩ fun _ h _ _ => h

section
variable (x : TileRun) (i : Nat) (p : Perf)

theorem bufVecs_accessed (k : Nat) : Accessed p.s (x.bufVecs p k).2.s :=
  (readRows_accessed p 0 4 x.rows).trans (readRows_accessed (p.readRows 0 4 x.rows).2 4 4 x.rows2)

/-- The vectors of an outer product, from buffer memory or from operand tiles. -/
def outerVecs (mem : Bool) (k : Nat) : List (List Elem × List Elem) :=
  if mem then (x.bufVecs p k).1 else x.tileVecs (p.s.sad i) k

/-- R175, R176: the products go to the cells as they are once their parity has been checked. -/
theorem sad_outer (mem : Bool) (k : Nat) : (p.outer i x mem k).s.sad i =
    ((p.parity i x).s.sad i).outer x.r0 x.c0 x.m x.n (shAnchor x.shape) (outerVecs x i (p.parity i x) mem k) := by
  cases mem with
  | true =>
    refine (sad_modSad _ i _).trans (congrArg (fun d : Saddle => d.outer x.r0 x.c0 x.m x.n (shAnchor x.shape) _) ?_)
    exact (sad_modTile (fun u => latchPairs_sads u ..) _ i).trans (sad_of_tile _ i (bufVecs_accessed x _ k).tile)
  | false =>
    refine (sad_modSad _ i _).trans (congrArg (fun d : Saddle => d.outer x.r0 x.c0 x.m x.n (shAnchor x.shape) _) ?_)
    exact (sad_modTile (fun u => latchPairs_sads u ..) _ i).trans (sad_modTile (fun u => reins_sads x u i k) _ i)

/-- R449: where every cell of the region has its parity right, its check does nothing. -/
theorem parity_clean (h : ∀ q ∈ x.cells, ((p.s.sad i).cell q.1 q.2).perr = 0) : p.parity i x = p := by
  have hf : (x.cells.filter fun q => ((p.sad i).cell q.1 q.2).perr ≠ 0) = [] :=
    List.filter_eq_nil_iff.mpr fun q hq hne => of_decide_eq_true hne (h q hq)
  rw [Perf.parity, hf]
  rfl

theorem blockGood_parity (hw : x.c0 + x.n ≤ 1024) {b : Nat} (h : (p.s.sad i).blockGood b = true) :
    ((p.parity i x).s.sad i).blockGood b = true := by
  refine foldl_keeps_of_mem (P := fun p : Perf => (p.s.sad i).blockGood b = true) (fun u q hq hu => ?_) h
  have hlt := region_col_lt hw (List.mem_filter.mp hq).1
  dsimp only
  split
  · exact hu
  · rw [Perf.modSad, sad_modSad]
    exact blockGood_setCell _ hlt hu

/-- What TZF leaves of the cells, the marks and the checksums: the zeroed region. -/
theorem sad_zero : Saddle.SameField ((p.s.sad i).zeroRegion x.r0 x.c0 x.m x.n) ((p.zero i x).s.sad i) := by
  rw [Perf.zero, Perf.modSad, sad_modSad]
  exact foldl_keeps_of_mem (f := Saddle.zeroTile) (P := Saddle.SameField ((p.s.sad i).zeroRegion x.r0 x.c0 x.m x.n))
    (fun _ _ _ h => ⟨h.cells, h.live, h.crow, h.ccol⟩) ⟨rfl, rfl, rfl, rfl⟩

end

section
variable {x : TileRun} (i : Nat) (s : State) (hx : x.hw = .none) (c : Nat)
include hx

theorem act_op {mem : Bool} {k : Nat} (hk : x.k = .op mem k) : x.act i s = Perf.outer ⟨s, [], []⟩ i x mem k := by
  unfold TileRun.act
  rw [hk, hx]
  rfl

theorem act_tzf (hk : x.k = .tzf) : x.act i s = Perf.zero ⟨s, [], []⟩ i x := by
  unfold TileRun.act
  rw [hk, hx]
  rfl

variable (hw : x.c0 + x.n ≤ 1024)
include hw

/-- OPA and OPK add the products of their vectors to every cell of their region and change no other cell. -/
theorem op_cells {mem : Bool} {k : Nat} (hk : x.k = .op mem k) (hp : ∀ q ∈ x.cells, ((s.sad i).cell q.1 q.2).perr = 0)
    {r col : Nat} (hc : col < 1024) : let t := (x.perform i s).inline c 1
    (x.holds r col → (t.sad i).cell r col = { ((s.sad i).cell r col).accumAll (shAnchor x.shape)
      (outerVecs x i ⟨s, [], []⟩ mem k) (r - x.r0) (col - x.c0) with perr := 0 }) ∧
    (¬x.holds r col → (t.sad i).cell r col = (s.sad i).cell r col) := by
  dsimp only
  rw [sad_inline, sad_perform, act_op i s hx hk, sad_outer, parity_clean x i ⟨s, [], []⟩ hp]
  exact cell_outer x.r0 x.c0 x.m x.n _ _ _ hw hc

/-- TZF makes the cells of its region zero and changes no other. -/
theorem tzf_cells (hk : x.k = .tzf) {r col : Nat} (hc : col < 1024) : let t := (x.perform i s).inline c 1
    (x.holds r col → (t.sad i).cell r col = Cell.zero) ∧
    (¬x.holds r col → (t.sad i).cell r col = (s.sad i).cell r col) := by
  have hz := sad_zero x i ⟨s, [], []⟩
  dsimp only
  rw [sad_inline, sad_perform, act_tzf i s hx hk, cell_of_same hz.cells hz.live]
  exact zeroRegion_cell hw _ hc

/-- Each of them keeps the checksums of every block that has them right. -/
theorem blockGood_perform (hr : x.r0 + x.m ≤ 1024) (hk : x.k = .tzf ∨ ∃ mem n, x.k = .op mem n) {b : Nat}
    (h : (s.sad i).blockGood b = true) : (((x.perform i s).inline c 1).sad i).blockGood b = true := by
  rw [sad_inline, sad_perform]
  rcases hk with hk | ⟨mem, k, hk⟩
  · rw [act_tzf i s hx hk]
    exact (sad_zero x i ⟨s, [], []⟩).blockGood (blockGood_zeroRegion hr hw _ h)
  · rw [act_op i s hx hk, sad_outer]
    exact blockGood_outer _ _ _ _ _ _ hw (blockGood_parity x i ⟨s, [], []⟩ hw h)

end

/-! ### The events -/

section
variable {s : State} (hl : s.live = true)
include hl

theorem exec_tileInsnComplete {sad : BitVec 1} {o : TileOp} {rest : List TileOp} {c : Nat} (hw : HwFault)
    (ha : s.tile.active = sad) (hq : (s.sad sad.toNat).queue = o :: rest) (ho : (s.sad sad.toNat).owner = some c) :
    exec (.tileInsnComplete sad hw) s =
      .next (((o.run hw).perform sad.toNat (s.modSad sad.toNat fun d => { d with queue := rest })).inline c 1) := by
  refine (eventStep_runs (f := fun s => match (s.sad sad.toNat).queue, (s.sad sad.toNat).owner with
    | o :: rest, some c =>
      ((o.run hw).perform sad.toNat (s.modSad sad.toNat fun d => { d with queue := rest })).inline c 1
    | _, _ => s) hl (decide_eq_true ha)).trans ?_
  rw [hq, ho]

theorem exec_saddleSwitch {sad : BitVec 1} (hm : s.mayActivate sad.toNat = true) : exec (.saddleSwitch sad) s =
    .next { s with tile := { s.tile with active := sad, reinL := [], reinR := [] } } := by
  refine (eventStep_runs (f := fun s => s.setActive sad.toNat) hl hm).trans ?_
  rw [State.setActive, BitVec.ofNat_toNat, BitVec.setWidth_eq]
  rfl

/-- A range wait that has passed bwlimit ends with BUFWAIT. -/
theorem exec_bufwaitExpiry {c k field : Nat} {tag : Tag} {v : Word} {w : Wait} (hc : s.curCtx = some c)
    (hk : s.curStall = some k) (hwait : (s.ctx c).waitAt = some w) (hr : w.why = .range)
    (hb : s.bufwait c w = some (field, tag, v)) (ht : w.since / 2 + s.cur.bwlimit.bits 31 0 ≤ s.now / 2) :
    exec .bufwaitExpiry s = .next (s.abort w.insn k (some c) s.cur.pc (.trap 0x33 field tag v)) := by
  refine (eventStep_runs (f := fun s => match s.curCtx, s.curStall with
    | some c, some k =>
      match (s.ctx c).waitAt with
      | some w =>
        match s.bufwait c w with
        | some (field, tag, v) =>
          if w.why = .range ∧ aclkOf w.since + s.cur.bwlimit.bits 31 0 ≤ aclkOf s.now then
            s.abort w.insn k (some c) s.cur.pc (.trap 0x33 field tag v)
          else s
        | none => s
      | none => s
    | _, _ => s) hl rfl).trans ?_
  rw [hc, hk]
  dsimp only
  rw [hwait]
  dsimp only
  rw [hb]
  exact congrArg Host.Outcome.next (if_pos ⟨hr, ht⟩)

end

/-- Settles O27: the events of the tile unit, and what OPA, OPK and TZF leave of the cells and the checksums. -/
theorem tileEvents : Obligations.TileEvents := by
  unfold Obligations.TileEvents
  intro sad hw s o rest c k field tag v w hl i s0
  refine ⟨fun ha hq ho => exec_tileInsnComplete hl hw ha hq ho, ?_, exec_saddleSwitch hl,
    fun hc hk hwait hr hb ht => exec_bufwaitExpiry hl hc hk hwait hr hb ht⟩
  intro x t hrow hcol
  have hs0 : s0.sad i = { s.sad i with queue := rest } := sad_modSad s i _
  have hcell : ∀ r col, (s0.sad i).cell r col = (s.sad i).cell r col := fun r col => by
    rw [hs0]
    rfl
  refine ⟨fun r col _ hc => ?_, fun b _ hk hg => ?_⟩
  · intro old new sum
    refine ⟨fun n hk hp => ?_, fun n hk hp => ?_, fun hk => ?_⟩
    · have h := op_cells i s0 (x := x) rfl c hcol hk (fun q hq => (congrArg Cell.perr (hcell q.1 q.2)).trans (hp q hq)) (r := r) hc
      rw [hcell] at h
      exact h
    · have h := op_cells i s0 (x := x) rfl c hcol hk (fun q hq => (congrArg Cell.perr (hcell q.1 q.2)).trans (hp q hq)) (r := r) hc
      rw [hcell] at h
      exact h
    · have h := tzf_cells i s0 (x := x) rfl c hcol hk (r := r) hc
      rw [hcell] at h
      exact h
  · refine blockGood_perform i s0 (x := x) rfl c hcol hrow hk ?_
    rw [hs0]
    exact Saddle.SameField.blockGood (d := s.sad i) ⟨rfl, rfl, rfl, rfl⟩ hg

end Sys2Proof.Machine
end
